-- ==== Sys2Proof/Word.lean ====
section
/-!
DEFINITION. The word types of the VX-4410 model: a 32-bit register word, a byte, and the
64-bit Chord instruction.
-/

namespace Sys2Proof

/-- A 32-bit register word (R9). -/
abbrev Word := BitVec 32

/-- A byte of memory (R6). -/
abbrev Byte := BitVec 8

/-- One 64-bit Chord instruction (R205). -/
abbrev Word64 := BitVec 64

end Sys2Proof
end

