-- ==== Sys2Proof/Config.lean ====
section
/-!
DEFINITION. What the manual leaves open: constants without a body, so that no proof can see a
value. A constant whose first argument is a `Nat` named for the count of values drawn is applied
to `State.nonce`, which the drawing command advances.
-/

namespace Sys2Proof.Config

/-- PIP cycles that issue waits before an instruction beyond the counts of R276: R276 gives memory
waits, fetch waits and full-buffer stalls no fixed bound.
[log 125 DESIGN CHOICE] -/
opaque pipStall : Nat → BitVec 64

/-- A pixel that unchecked programming makes unpredictable within the stage (R11, R138 FORMAT 7,
bitmaps of illegal size): by the count of values drawn and the position.
[log 132 DESIGN CHOICE] -/
opaque anyPixel : Nat → Nat → BitVec 64

/-- Whether an occluder's opaque summary is known before a lower layer reaches a segment's positions (R187):
by the count of values drawn, the layer and the segment.
[log 115 DESIGN CHOICE] -/
opaque coverKnown : Nat → Nat → Nat → Bool

/-- FAB cycles beyond 12 that a Chord WRITE or MASKWRITE takes to arrive, taken modulo 29 (R207).
[log 119 DESIGN CHOICE] -/
opaque chordDelay : Nat → Nat

/-- A word whose value no rule gives, by the count of values drawn.
[log 12 DESIGN CHOICE, 23 DESIGN CHOICE, 80 DESIGN CHOICE] -/
opaque freeWord : Nat → BitVec 32

/-- A byte whose value no rule gives, by the count of values drawn and its place.
[log 95 DESIGN CHOICE, 116 DESIGN CHOICE, 136 DESIGN CHOICE] -/
opaque freeByte : Nat → Nat → BitVec 8

/-- Whether a read of a word with more than two symbol errors is miscorrected, not reported (R93): by the count of values
drawn and the address of the word.
[log 150 DESIGN CHOICE] -/
opaque miscorrects : Nat → Nat → Bool

/-- How far a transfer has come when it is cut off: taken modulo one more than it may have come (R334, R336,
R338).
[log 27 DESIGN CHOICE, 96 DESIGN CHOICE, 109 DESIGN CHOICE, 138 DESIGN CHOICE] -/
opaque progress : Nat → Nat

/-- Whether a byte of a segment with INIT = 0 keeps what the same stage slot left there, or reads zero (R54): by the
count of values drawn and the address.
[log 61 DESIGN CHOICE] -/
opaque initKeeps : Nat → Nat → Bool

/-- The revision that IDCODE shows (R428): the implementation's.
[log 157 DESIGN CHOICE] -/
opaque revision : BitVec 4

/-! ### Sound: what chapter 09 states to a stated accuracy, or not at all -/

/-- The error of a gain factor, taken modulo 2^17 in steps of 2^-41 around zero: R242 asks for 24 bits.
[log 122 DESIGN CHOICE] -/
opaque gainErr : Rat → Nat

/-- Whether a value that falls between two whole numbers is taken up: no rule states the rounding of
samples and phase steps.
[log 122 DESIGN CHOICE] -/
opaque roundUp : Rat → Bool

/-- Where in its step an entry of the quarter-wave table of R233 takes the sine, modulo 2^16 in steps of 2^-16: the rule
states the size of the table, not where its entries lie.
[log 122 DESIGN CHOICE] -/
opaque sinePlace : Nat

/-- The error of a pan factor, taken modulo 2^17 in steps of 2^-41 around zero: R242 asks for 24 bits.
[log 122 DESIGN CHOICE] -/
opaque panErr : Nat → Nat

/-- Where in its cycle a triangle LFO of phase 0 stands, pitch and amplitude (R231).
[log 122 DESIGN CHOICE] -/
opaque lfoStart : Bool → Rat

/-- Whether the all-pass filters of the reverb take their coefficient with the other sign (R239 states the coefficient,
not the form).
[log 123 DESIGN CHOICE] -/
opaque allPassNeg : Bool

/-- Whether DAMP / 256 weighs the new value of the one-pole low-pass of a comb, not the old one (R239 states the
coefficient, not the form).
[log 123 DESIGN CHOICE] -/
opaque dampNew : Bool

/-- The wet sample of an effect unit programmed as R239 calls unpredictable or gives no value for: by the
count of values drawn and the unit.
[log 123 DESIGN CHOICE] -/
opaque anySound : Nat → Nat → Rat × Rat

end Sys2Proof.Config
end

