-- ==== Sys2Proof/Machine/RegMap.lean ====
section
/-!
DEFINITION. The register tables of the manual as data: for each block, one row per register or
run of like registers, with the access masks of R9 and the reset value. Reserved bits are in no
mask (R10).
-/

namespace Sys2Proof.Machine

/-- How a register takes part in a `_LO`/`_HI` pair under R130. -/
inductive Pair where
  | plain | lo | hi
  deriving DecidableEq, Repr

/-- One row: `n` registers of the same layout, `stride` bytes apart from `off`; the bits of each
access kind of R9; the reset value. -/
structure RegRow where
  name : String
  off : Nat
  n : Nat
  stride : Nat
  rw : Nat
  w1c : Nat
  w1s : Nat
  wo : Nat
  ro : Nat
  reset : Nat
  pair : Pair
  deriving DecidableEq, Repr

namespace Regs

/-- Registers of stage identity, status, beam port and general outputs (stage offset 0x000-0xFFF). R109 (04), R20, R296 (11), R34, R380 (16), R426 (18), R91 (03) -/
def identRows : List RegRow :=
  [ ⟨"STAGE_ID", 0, 1, 4, 0, 0, 0, 0, 0xFF, 0, .plain⟩,
    ⟨"STAGE_STATUS", 4, 1, 4, 0, 0x200, 0, 0, 0x50F, 1, .plain⟩,
    ⟨"STAGE_SEG", 8, 1, 4, 0, 0, 0, 0, 0x7F, 0, .plain⟩,
    ⟨"BIND_GEN", 0xF0, 1, 4, 0, 0, 0, 0, 0xFFFFFFFF, 0, .plain⟩,
    ⟨"BIND_LAYER", 0x100, 16, 4, 0, 0, 0, 0, 0xEC1F0000, 0, .plain⟩,
    ⟨"BIND_SPRITE", 0x140, 8, 4, 0, 0, 0, 0, 0xEC1F0000, 0, .plain⟩,
    ⟨"BIND_PRISM", 0x160, 1, 4, 0, 0, 0, 0, 0xEC1F0000, 0, .plain⟩,
    ⟨"BIND_CHORD", 0x164, 1, 4, 0, 0, 0, 0, 0xEC1F0000, 0, .plain⟩,
    ⟨"BIND_PRESS", 0x168, 1, 4, 0, 0, 0, 0, 0xEC1F0000, 0, .plain⟩,
    ⟨"BIND_PIP", 0x180, 8, 4, 0, 0, 0, 0, 0xEC1F0000, 0, .plain⟩,
    ⟨"BIND_BRAMBLE", 0x1A0, 4, 4, 0, 0, 0, 0, 0xEC1F01FF, 0, .plain⟩,
    ⟨"MEM_STATUS", 0x200, 1, 4, 0, 3, 0, 0, 0xFFFFFF00, 0, .plain⟩,
    ⟨"MEM_ADDR_LO", 0x204, 1, 4, 0, 0, 0, 0, 0xFFFFFFFF, 0, .plain⟩,
    ⟨"MEM_ADDR_HI", 0x208, 1, 4, 0, 0, 0, 0, 0xFF, 0, .plain⟩,
    ⟨"PIP_STATE", 0x300, 1, 4, 0, 0, 0, 0, 0xFFFF, 0, .plain⟩,
    ⟨"PIP_CKPT", 0x304, 1, 4, 0, 0xFF00, 0, 1, 0, 0, .plain⟩,
    ⟨"BEAM_POS", 0x400, 1, 4, 0, 0, 0, 0, 0xFFFFFFFF, 0, .plain⟩,
    ⟨"BEAM_FRAME", 0x404, 1, 4, 0, 0, 0, 0, 0xFFFFFFFF, 0, .plain⟩,
    ⟨"BEAM_IRQ_LINE", 0x408, 1, 4, 0xFFF, 0, 0, 0, 0, 0xFFF, .plain⟩,
    ⟨"BEAM_EVENTS", 0x40C, 1, 4, 0, 7, 0, 0, 8, 0, .plain⟩ ] ++
  [ ⟨"TIM_CLK", 0x410, 1, 4, 0xFFFFFFFF, 0, 0, 0, 0, 0, .plain⟩,
    ⟨"TIM_H0", 0x414, 1, 4, 0xFFFFFFFF, 0, 0, 0, 0, 0, .plain⟩,
    ⟨"TIM_H1", 0x418, 1, 4, 0xFFFFFFFF, 0, 0, 0, 0, 0, .plain⟩,
    ⟨"TIM_V0", 0x41C, 1, 4, 0xFFFFFFFF, 0, 0, 0, 0, 0, .plain⟩,
    ⟨"TIM_V1", 0x420, 1, 4, 0xFFFFFFFF, 0, 0, 0, 0, 0, .plain⟩,
    ⟨"TIM_MODE", 0x424, 1, 4, 0x1FFF777, 0, 0, 0, 0, 0, .plain⟩,
    ⟨"TIM_LATCH", 0x428, 1, 4, 0xFFFF, 0, 0, 0, 0, 0xFFFF, .plain⟩,
    ⟨"TIM_LAT_TOL", 0x42C, 1, 4, 0xFFFFFFFF, 0, 0, 0, 0, 0, .plain⟩,
    ⟨"TIM_COMMIT", 0x430, 1, 4, 0, 0, 0, 3, 0, 0, .plain⟩,
    ⟨"TIMING_STATUS", 0x434, 1, 4, 0, 0x802, 0, 0, 0xF777FD, 0, .plain⟩,
    ⟨"COMPAT_WM", 0x438, 1, 4, 0xFFF, 0, 0, 0, 0, 0x100, .plain⟩,
    ⟨"UNDERRUN_FLAGS", 0x440, 1, 4, 0, 0xFFFFFF, 0, 0, 0, 0, .plain⟩,
    ⟨"UNDERRUN_MASK", 0x444, 1, 4, 0xFFFFFF, 0, 0, 0, 0, 0, .plain⟩,
    ⟨"UNDERRUN_CNT", 0x460, 12, 4, 0xFFFFFFFF, 0, 0, 0, 0, 0, .plain⟩,
    ⟨"STAGE_GO", 0x500, 1, 4, 0xFFFFFFFF, 0, 0, 0, 0, 0, .plain⟩ ]

/-- Registers of fence table (0x1000). R182 -/
def fenceRows : List RegRow :=
  [ ⟨"FENCE", 0, 256, 4, 0xFFFFFFFF, 0, 0, 0, 0, 0, .plain⟩,
    ⟨"FENCE_ADD", 0x400, 256, 4, 0, 0, 0, 0xFFFFFFFF, 0, 0, .plain⟩ ]

/-- Registers of a layer block. R130 -/
def layerRows : List RegRow :=
  [ ⟨"LAYER_CTRL", 0, 1, 4, 0x3FFFF7F, 0, 0, 0, 0, 0, .plain⟩,
    ⟨"LAYER_HSCROLL", 4, 1, 4, 0xFFFF, 0, 0, 0, 0, 0, .plain⟩,
    ⟨"LAYER_VSCROLL", 8, 1, 4, 0xFFFF, 0, 0, 0, 0, 0, .plain⟩,
    ⟨"LAYER_MOSAIC", 0xC, 1, 4, 0xFF, 0, 0, 0, 0, 0, .plain⟩,
    ⟨"LAYER_KEY", 0x10, 1, 4, 0xFFFF, 0, 0, 0, 0, 0, .plain⟩,
    ⟨"LAYER_PAL", 0x14, 1, 4, 0xFF, 0, 0, 0, 0, 0, .plain⟩,
    ⟨"LAYER_MAP_LO", 0x20, 1, 4, 0xFFFFFFC0, 0, 0, 0, 0, 0, .lo⟩,
    ⟨"LAYER_MAP_HI", 0x24, 1, 4, 0xFF, 0, 0, 0, 0, 0, .hi⟩,
    ⟨"LAYER_TILE_LO", 0x28, 1, 4, 0xFFFFFFC0, 0, 0, 0, 0, 0, .lo⟩,
    ⟨"LAYER_TILE_HI", 0x2C, 1, 4, 0xFF, 0, 0, 0, 0, 0, .hi⟩,
    ⟨"LAYER_BMP_LO", 0x30, 1, 4, 0xFFFFFFC0, 0, 0, 0, 0, 0, .lo⟩,
    ⟨"LAYER_BMP_HI", 0x34, 1, 4, 0xFF, 0, 0, 0, 0, 0, .hi⟩,
    ⟨"LAYER_LSCR_LO", 0x40, 1, 4, 0xFFFFFFFC, 0, 0, 0, 0, 0, .lo⟩,
    ⟨"LAYER_LSCR_HI", 0x44, 1, 4, 0xFF, 0, 0, 0, 0, 0, .hi⟩,
    ⟨"LAYER_AFF_LO", 0x48, 1, 4, 0xFFFFFFE0, 0, 0, 0, 0, 0, .lo⟩,
    ⟨"LAYER_AFF_HI", 0x4C, 1, 4, 0xFF, 0, 0, 0, 0, 0, .hi⟩,
    ⟨"LAYER_BMP_GEOM", 0x38, 1, 4, 0xFFFFFFFF, 0, 0, 0, 0, 0, .plain⟩,
    ⟨"LAYER_BMP_PITCH", 0x3C, 1, 4, 0xFFFFC0, 0, 0, 0, 0, 0, .plain⟩,
    ⟨"LAYER_AFF_A", 0x50, 1, 4, 0xFFFFFFFF, 0, 0, 0, 0, 0x10000, .plain⟩,
    ⟨"LAYER_AFF_B", 0x54, 1, 4, 0xFFFFFFFF, 0, 0, 0, 0, 0, .plain⟩ ] ++
  [ ⟨"LAYER_AFF_C", 0x58, 1, 4, 0xFFFFFFFF, 0, 0, 0, 0, 0, .plain⟩,
    ⟨"LAYER_AFF_D", 0x5C, 1, 4, 0xFFFFFFFF, 0, 0, 0, 0, 0x10000, .plain⟩,
    ⟨"LAYER_AFF_X0", 0x60, 1, 4, 0xFFFFFFFF, 0, 0, 0, 0, 0, .plain⟩,
    ⟨"LAYER_AFF_Y0", 0x64, 1, 4, 0xFFFFFFFF, 0, 0, 0, 0, 0, .plain⟩,
    ⟨"LAYER_STATUS", 0x80, 1, 4, 0, 0x1E, 0, 0, 1, 0, .plain⟩,
    ⟨"LAYER_COST", 0x84, 1, 4, 0xFFFF0000, 0, 0, 0, 0xFFFF, 0, .plain⟩,
    ⟨"LAYER_COLSCROLL", 0x1000, 520, 4, 0xFFFFFFFF, 0, 0, 0, 0, 0, .plain⟩ ]

/-- Registers of a sprite-plane block. R163 -/
def spriteRows : List RegRow :=
  [ ⟨"SPR_CTRL", 0, 1, 4, 0x1F, 0, 0, 0, 0, 0, .plain⟩,
    ⟨"SPR_KEY", 4, 1, 4, 0xFFFF, 0, 0, 0, 0, 0, .plain⟩,
    ⟨"SPR_LIST_LO", 8, 1, 4, 0xFFFFFFE0, 0, 0, 0, 0, 0, .lo⟩,
    ⟨"SPR_LIST_HI", 0xC, 1, 4, 0xFF, 0, 0, 0, 0, 0, .hi⟩,
    ⟨"SPR_COUNT", 0x10, 1, 4, 0x1FFF, 0, 0, 0, 0, 0, .plain⟩,
    ⟨"SPR_SHARE", 0x14, 1, 4, 0x1FFF0FFF, 0, 0, 0, 0, 0, .plain⟩,
    ⟨"SPR_BUDGET", 0x18, 1, 4, 0x1FFF, 0, 0, 0, 0, 0, .plain⟩,
    ⟨"SPR_RANK", 0x1C, 1, 4, 0, 0, 0, 0, 0x77, 0, .plain⟩,
    ⟨"SPR_STATUS", 0x80, 1, 4, 0, 0x1E, 0, 0, 0xFFF0001, 0, .plain⟩,
    ⟨"SPR_COST", 0x84, 1, 4, 0xFFFF0000, 0, 0, 0, 0xFFFF, 0, .plain⟩,
    ⟨"SPR_OVF_CNT", 0x88, 1, 4, 0xFFFFFFFF, 0, 0, 0, 0, 0, .plain⟩,
    ⟨"SPR_HITS", 0x8C, 1, 4, 0, 0, 0, 0, 0x1FFF1FFF, 0, .plain⟩ ]

/-- Registers of the Prism block. R173, R175, R178, R179, R180, R183, R184, R185, R188, R195, R199 -/
def prismRows : List RegRow :=
  [ ⟨"PRISM_CTRL", 0, 1, 4, 0x133, 0, 0, 0, 0, 0, .plain⟩,
    ⟨"PRISM_BACKDROP", 4, 1, 4, 0xFFF, 0, 0, 0, 0, 0, .plain⟩,
    ⟨"PRISM_CSTOP", 8, 1, 4, 0xFFFF0000, 0, 0, 0, 0xFFFF, 0, .plain⟩,
    ⟨"PRISM_MATHWIN", 0xC, 1, 4, 0x3FF, 0, 0, 0, 0, 0, .plain⟩,
    ⟨"PRISM_SRC_CTRL (layers)", 0x100, 16, 8, 0xFFF7FFF, 0, 0, 0, 0, 0, .plain⟩,
    ⟨"PRISM_SRC_CTRL (planes)", 0x180, 8, 8, 0xFFF0000, 0, 0, 0, 0, 0, .plain⟩,
    ⟨"PRISM_SRC_FACT", 0x104, 24, 8, 0xFF, 0, 0, 0, 0, 0xFF, .plain⟩,
    ⟨"PRISM_WIN_CTRL", 0x200, 4, 16, 1, 0, 0, 0, 0, 0, .plain⟩,
    ⟨"PRISM_WIN_LR", 0x204, 4, 16, 0x1FFF1FFF, 0, 0, 0, 0, 0x1FFF, .plain⟩,
    ⟨"PRISM_WIN_TB", 0x208, 4, 16, 0xFFF0FFF, 0, 0, 0, 0, 0, .plain⟩,
    ⟨"PRISM_WIN_SPAN_LO", 0x240, 4, 8, 0xFFFFFFFC, 0, 0, 0, 0, 0, .lo⟩,
    ⟨"PRISM_WIN_SPAN_HI", 0x244, 4, 8, 0xFF, 0, 0, 0, 0, 0, .hi⟩,
    ⟨"PRISM_FLIP_LO", 0x300, 24, 16, 0xFFFFFFE0, 0, 0, 0, 0, 0, .plain⟩,
    ⟨"PRISM_FLIP_HI", 0x304, 24, 16, 0xFF, 0, 0, 0, 0, 0, .plain⟩,
    ⟨"PRISM_FLIP_TARGET", 0x308, 24, 16, 0xFFFFFFFF, 0, 0, 0, 0, 0, .plain⟩,
    ⟨"PRISM_FLIP_CTRL", 0x30C, 24, 16, 0x1FF, 0, 0, 0xC0000000, 0x10000, 0, .plain⟩,
    ⟨"PRISM_GROUP", 0x480, 8, 4, 0xFFFFFF, 0, 0, 0, 0, 0, .plain⟩,
    ⟨"PRISM_FLIP_MISS", 0x4A0, 1, 4, 0, 0xFFFFFF, 0, 0, 0, 0, .plain⟩,
    ⟨"PRISM_FLIP_DONE", 0x4A4, 1, 4, 0, 0xFFFFFF, 0, 0, 0, 0, .plain⟩,
    ⟨"PRISM_MAT0_ROW0_A", 0x500, 1, 4, 0xFFFFFFFF, 0, 0, 0, 0, 0x4000, .plain⟩ ] ++
  [ ⟨"PRISM_MAT0_ROW0_B", 0x504, 1, 4, 0xFFFFFFFF, 0, 0, 0, 0, 0, .plain⟩,
    ⟨"PRISM_MAT0_ROW1_A", 0x508, 1, 4, 0xFFFFFFFF, 0, 0, 0, 0, 0x40000000, .plain⟩,
    ⟨"PRISM_MAT0_ROW1_B", 0x50C, 1, 4, 0xFFFFFFFF, 0, 0, 0, 0, 0, .plain⟩,
    ⟨"PRISM_MAT0_ROW2_A", 0x510, 1, 4, 0xFFFFFFFF, 0, 0, 0, 0, 0, .plain⟩,
    ⟨"PRISM_MAT0_ROW2_B", 0x514, 1, 4, 0xFFFFFFFF, 0, 0, 0, 0, 0x4000, .plain⟩,
    ⟨"PRISM_MAT1_ROW0_A", 0x520, 1, 4, 0xFFFFFFFF, 0, 0, 0, 0, 0x4000, .plain⟩,
    ⟨"PRISM_MAT1_ROW0_B", 0x524, 1, 4, 0xFFFFFFFF, 0, 0, 0, 0, 0, .plain⟩,
    ⟨"PRISM_MAT1_ROW1_A", 0x528, 1, 4, 0xFFFFFFFF, 0, 0, 0, 0, 0x40000000, .plain⟩,
    ⟨"PRISM_MAT1_ROW1_B", 0x52C, 1, 4, 0xFFFFFFFF, 0, 0, 0, 0, 0, .plain⟩,
    ⟨"PRISM_MAT1_ROW2_A", 0x530, 1, 4, 0xFFFFFFFF, 0, 0, 0, 0, 0, .plain⟩,
    ⟨"PRISM_MAT1_ROW2_B", 0x534, 1, 4, 0xFFFFFFFF, 0, 0, 0, 0, 0x4000, .plain⟩,
    ⟨"CONS_CTRL", 0x600, 1, 4, 0xFFFF0001, 0, 0, 0, 0, 0, .plain⟩,
    ⟨"CONS_BASE_LO", 0x604, 1, 4, 0xFFFFFFC0, 0, 0, 0, 0, 0, .plain⟩,
    ⟨"CONS_BASE_HI", 0x608, 1, 4, 0xFF, 0, 0, 0, 0, 0, .plain⟩,
    ⟨"CONS_STATUS", 0x60C, 1, 4, 0xFFFF0000, 0xC, 0, 0, 3, 0, .plain⟩,
    ⟨"CONS_WATCH_LO", 0x620, 4, 16, 0xFFFFFFC0, 0, 0, 0, 0, 0, .plain⟩,
    ⟨"CONS_WATCH_HI", 0x624, 4, 16, 0xFF, 0, 0, 0, 0, 0, .plain⟩,
    ⟨"CONS_WATCH_SIZE", 0x628, 4, 16, 0xFFFFFFC0, 0, 0, 0, 0, 0, .plain⟩,
    ⟨"RIND_CTRL", 0x700, 8, 32, 0x31, 0, 0, 0, 2, 0, .plain⟩,
    ⟨"RIND_LR", 0x704, 8, 32, 0x1FFF1FFF, 0, 0, 0, 0, 0, .plain⟩ ] ++
  [ ⟨"RIND_TB", 0x708, 8, 32, 0xFFF0FFF, 0, 0, 0, 0, 0, .plain⟩,
    ⟨"RIND_EXPECT", 0x70C, 8, 32, 0xFFFFFFFF, 0, 0, 0, 0, 0, .plain⟩,
    ⟨"RIND_NOW", 0x710, 8, 32, 0, 0, 0, 0, 0xFFFFFFFF, 0, .plain⟩,
    ⟨"RIND_LAST", 0x714, 8, 32, 0, 0, 0, 0, 0xFFFFFFFF, 0, .plain⟩,
    ⟨"RIND_STATUS", 0x800, 1, 4, 0, 0x3FE00FF, 0, 0, 0x1FF00, 0, .plain⟩,
    ⟨"PRISM_PAL", 0x4000, 4096, 4, 0xFFFFFFFF, 0, 0, 0, 0, 0, .plain⟩ ]

/-- Registers of the Chord block. R201, R202, R206, R212, R214, R215, R216, R218 -/
def chordRows : List RegRow :=
  [ ⟨"CHORD_CTRL", 0, 1, 4, 3, 0, 0, 0, 0, 0, .plain⟩,
    ⟨"CHORD_PROG_LO", 4, 1, 4, 0xFFFFFFC0, 0, 0, 0, 0, 0, .lo⟩,
    ⟨"CHORD_PROG_HI", 8, 1, 4, 0xFF, 0, 0, 0, 0, 0, .hi⟩,
    ⟨"CHORD_PLEN", 0xC, 1, 4, 0xFFF, 0, 0, 0, 0, 0, .plain⟩,
    ⟨"CHORD_STATUS", 0x10, 1, 4, 0, 0xFE, 0, 0, 0x87FF0000, 0, .plain⟩,
    ⟨"CHORD_LEAD", 0x14, 1, 4, 0, 0, 0, 0, 0xFF, 0, .plain⟩,
    ⟨"CHORD_LOST", 0x18, 1, 4, 0, 0, 0, 0, 0xFFFFF, 0, .plain⟩,
    ⟨"CHORD_EVENTS", 0x1C, 1, 4, 0, 0xF, 0, 0, 0, 0, .plain⟩,
    ⟨"QI_LEVEL_LO", 0x40, 1, 4, 0, 0, 0, 0, 0xFFFFFFFF, 0, .plain⟩,
    ⟨"QI_LEVEL_HI", 0x44, 1, 4, 0, 0, 0, 0, 0xFFFFFFFF, 0, .plain⟩,
    ⟨"QI_CFG", 0x100, 64, 4, 0xFF03FF, 0, 0, 0, 0, 0, .plain⟩,
    ⟨"QI_CNT", 0x200, 64, 4, 0xFFFFFFFF, 0, 0, 0, 0, 0, .plain⟩,
    ⟨"RFX_CTRL", 0x1000, 64, 64, 0x1033F07, 0, 0, 0, 0, 0, .plain⟩,
    ⟨"RFX_TGT0", 0x1010, 64, 64, 0x3FFFFD, 0, 0, 0, 0, 0, .plain⟩,
    ⟨"RFX_VAL0", 0x1014, 64, 64, 0xFFFFFFFF, 0, 0, 0, 0, 0, .plain⟩,
    ⟨"RFX_MASK0", 0x1018, 64, 64, 0xFFFFFFFF, 0, 0, 0, 0, 0, .plain⟩,
    ⟨"RFX_TGT1", 0x101C, 64, 64, 0x3FFFFD, 0, 0, 0, 0, 0, .plain⟩,
    ⟨"RFX_VAL1", 0x1020, 64, 64, 0xFFFFFFFF, 0, 0, 0, 0, 0, .plain⟩,
    ⟨"RFX_MASK1", 0x1024, 64, 64, 0xFFFFFFFF, 0, 0, 0, 0, 0, .plain⟩,
    ⟨"RFX_TGT2", 0x1028, 64, 64, 0x3FFFFD, 0, 0, 0, 0, 0, .plain⟩ ] ++
  [ ⟨"RFX_VAL2", 0x102C, 64, 64, 0xFFFFFFFF, 0, 0, 0, 0, 0, .plain⟩,
    ⟨"RFX_MASK2", 0x1030, 64, 64, 0xFFFFFFFF, 0, 0, 0, 0, 0, .plain⟩,
    ⟨"RFX_TGT3", 0x1034, 64, 64, 0x3FFFFD, 0, 0, 0, 0, 0, .plain⟩,
    ⟨"RFX_VAL3", 0x1038, 64, 64, 0xFFFFFFFF, 0, 0, 0, 0, 0, .plain⟩,
    ⟨"RFX_MASK3", 0x103C, 64, 64, 0xFFFFFFFF, 0, 0, 0, 0, 0, .plain⟩ ]

/-- Registers of the Press block. R351, R354, R356, R357, R358, R362 -/
def pressRows : List RegRow :=
  [ ⟨"PRESS_CTRL", 0, 1, 4, 0x777777, 0, 0, 0, 0, 0, .plain⟩,
    ⟨"PRESS_SRC_LO", 4, 1, 4, 0xFFFFFFFF, 0, 0, 0, 0, 0, .lo⟩,
    ⟨"PRESS_SRC_HI", 8, 1, 4, 0xFF, 0, 0, 0, 0, 0, .hi⟩,
    ⟨"PRESS_DST_LO", 0xC, 1, 4, 0xFFFFFFFF, 0, 0, 0, 0, 0, .lo⟩,
    ⟨"PRESS_DST_HI", 0x10, 1, 4, 0xFF, 0, 0, 0, 0, 0, .hi⟩,
    ⟨"PRESS_PITCH", 0x14, 1, 4, 0xFFFFFFFF, 0, 0, 0, 0, 0, .plain⟩,
    ⟨"PRESS_SIZE", 0x18, 1, 4, 0x1FFF1FFF, 0, 0, 0, 0, 0, .plain⟩,
    ⟨"PRESS_FG", 0x1C, 1, 4, 0xFFFFFFFF, 0, 0, 0, 0, 0, .plain⟩,
    ⟨"PRESS_BG", 0x20, 1, 4, 0xFFFFFFFF, 0, 0, 0, 0, 0, .plain⟩,
    ⟨"PRESS_DEAD", 0x24, 1, 4, 0x3FF, 0, 0, 0, 0, 0, .plain⟩,
    ⟨"PRESS_WM", 0x28, 1, 4, 0x1FFF, 0, 0, 0, 0, 0x1FFF, .plain⟩,
    ⟨"PRESS_FENCE", 0x2C, 1, 4, 0xC00000FF, 0, 0, 0, 0, 0, .plain⟩,
    ⟨"PRESS_FVAL", 0x30, 1, 4, 0xFFFFFFFF, 0, 0, 0, 0, 0, .plain⟩,
    ⟨"PRESS_CMD", 0x34, 1, 4, 0, 0, 0, 3, 0, 0, .plain⟩,
    ⟨"PRESS_STATUS", 0x38, 1, 4, 0, 0xF, 0, 0, 0xFF0070, 0, .plain⟩,
    ⟨"PRESS_ROWS", 0x3C, 1, 4, 0, 0, 0, 0, 0x3FFF, 0, .plain⟩ ]

/-- Registers of a voice block. R230, R232, R233, R234, R235, R237 -/
def voiceRows : List RegRow :=
  [ ⟨"VOICE_CTRL", 0, 1, 4, 0xFF01, 0, 0, 2, 0, 0, .plain⟩,
    ⟨"VOICE_INC", 4, 1, 4, 0xFFFFFFFF, 0, 0, 0, 0, 0, .plain⟩,
    ⟨"VOICE_LEVEL", 8, 1, 4, 0xF7FFF7FF, 0, 0, 0, 0, 0, .plain⟩,
    ⟨"VOICE_PAN", 0xC, 1, 4, 0xFF01FF, 0, 0, 0, 0, 0x100080, .plain⟩,
    ⟨"VOICE_ENV", 0x10, 1, 4, 0xFFFFFFFF, 0, 0, 0, 0, 0, .plain⟩,
    ⟨"VOICE_LFO", 0x14, 1, 4, 0xFFFFFFFF, 0, 0, 0, 0, 0, .plain⟩,
    ⟨"VOICE_OSC", 0x18, 1, 4, 0x7701FF, 0, 0, 0, 0, 0x80, .plain⟩,
    ⟨"OP_CTRL", 0x20, 4, 8, 0x7FFFFFF, 0, 0, 0, 0, 0x10, .plain⟩,
    ⟨"OP_ENV", 0x24, 4, 8, 0xFFFFFFFF, 0, 0, 0, 0, 0, .plain⟩,
    ⟨"WAVE", 0x40, 4, 4, 0xFFFFFFFF, 0, 0, 0, 0, 0, .plain⟩,
    ⟨"VOICE_SRC_LO", 0x50, 1, 4, 0xFFFFFFFF, 0, 0, 0, 0, 0, .lo⟩,
    ⟨"VOICE_SRC_HI", 0x54, 1, 4, 0xFF, 0, 0, 0, 0, 0, .hi⟩,
    ⟨"VOICE_LEN", 0x58, 1, 4, 0xFFFFFFFF, 0, 0, 0, 0, 0, .plain⟩,
    ⟨"VOICE_LOOP", 0x5C, 1, 4, 0xFFFFFFFF, 0, 0, 0, 0, 0, .plain⟩,
    ⟨"VOICE_ADPCM", 0x60, 1, 4, 0x7FFFFF, 0, 0, 0, 0, 0, .plain⟩,
    ⟨"VOICE_ADPCM_LOOP", 0x64, 1, 4, 0x7FFFFF, 0, 0, 0, 0, 0, .plain⟩,
    ⟨"VOICE_STREAM", 0x68, 1, 4, 0x1F8FFFFF, 0, 0, 0, 0, 0xC000000, .plain⟩,
    ⟨"VOICE_LOWAT", 0x6C, 1, 4, 0xFFFFFF, 0, 0, 0, 0, 0, .plain⟩,
    ⟨"VOICE_FEED", 0x70, 1, 4, 0, 0, 0, 0x1FFFFFF, 0, 0, .plain⟩,
    ⟨"VOICE_FILL", 0x74, 1, 4, 0, 0, 0, 0, 0x1FFFFFF, 0, .plain⟩ ] ++
  [ ⟨"VOICE_STATUS", 0x80, 1, 4, 0, 0x7F, 0, 0, 0xC0FF0180, 0, .plain⟩,
    ⟨"VOICE_POS", 0x84, 1, 4, 0, 0, 0, 0, 0xFFFFFFFF, 0, .plain⟩ ]

/-- Registers of a bus block. R238 -/
def busRows : List RegRow :=
  [ ⟨"BUS_GAIN", 0, 1, 4, 0x3FF07FF, 0, 0, 0, 0, 0x3F03C1, .plain⟩,
    ⟨"BUS_ROUTE", 4, 1, 4, 0x7FF1F1F, 0, 0, 0, 0, 0x1F1F, .plain⟩,
    ⟨"BUS_FX", 8, 1, 4, 0xFF, 0, 0, 0, 0, 0xFF, .plain⟩,
    ⟨"BUS_SAT", 0xC, 1, 4, 0xFFFF0000, 0, 0, 0, 0, 0, .plain⟩ ]

/-- Registers of an effect-unit block. R239 -/
def fxRows : List RegRow :=
  [ ⟨"FX_CTRL", 0, 1, 4, 3, 0, 0, 0, 0, 0, .plain⟩,
    ⟨"FX_MIX", 4, 1, 4, 0x7FF07FF, 0, 0, 0, 0, 0x3C1, .plain⟩,
    ⟨"FX_BUF_LO", 8, 1, 4, 0xFFFFFFC0, 0, 0, 0, 0, 0, .lo⟩,
    ⟨"FX_BUF_HI", 0xC, 1, 4, 0xFF, 0, 0, 0, 0, 0, .hi⟩,
    ⟨"FX_BUF_SIZE", 0x10, 1, 4, 0xFFFFFFC0, 0, 0, 0, 0, 0, .plain⟩,
    ⟨"FX_P0", 0x14, 1, 4, 0xFFFFFFFF, 0, 0, 0, 0, 0, .plain⟩,
    ⟨"FX_P1", 0x18, 1, 4, 0xFFFFFFFF, 0, 0, 0, 0, 0, .plain⟩,
    ⟨"FX_BAND", 0x40, 8, 4, 0xFFFFCFFF, 0, 0, 0, 0, 0x1000C064, .plain⟩ ]

/-- Registers of an output pair. R238, R240 -/
def outRows : List RegRow :=
  [ ⟨"OUT_GAIN", 0, 1, 4, 0x3FF07FF, 0, 0, 0, 0, 0x3F03C1, .plain⟩,
    ⟨"OUT_LIM", 4, 1, 4, 0xFFFF03FF, 0, 0, 0, 0, 0, .plain⟩,
    ⟨"OUT_STATUS", 8, 1, 4, 0xFFFF0000, 0, 0, 0, 0x3FF, 0, .plain⟩ ]

/-- Registers of the routes. R240 -/
def routeRows : List RegRow :=
  [ ⟨"ROUTE", 0, 8, 4, 0x80000FFF, 0, 0, 0, 0, 0, .plain⟩ ]

/-- Registers of sound control. R224, R226, R227, R241, R247, R251 -/
def sndRows : List RegRow :=
  [ ⟨"SND_CTRL", 0, 1, 4, 0x100, 0, 0, 0, 0, 0, .plain⟩,
    ⟨"SND_OUTFMT", 4, 1, 4, 0xFF, 0, 0, 0, 0, 0, .plain⟩,
    ⟨"SND_STATUS", 8, 1, 4, 0, 0, 0, 0, 0xC0F3, 0, .plain⟩,
    ⟨"SND_RATE", 0xC, 1, 4, 0, 0, 0, 0, 0xFFFFFFFF, 0, .plain⟩,
    ⟨"SND_BLOCK", 0x10, 1, 4, 0, 0, 0, 0, 0xFFFFFFFF, 0, .plain⟩,
    ⟨"SND_IRQ_BLOCK", 0x14, 1, 4, 0xFFFF, 0, 0, 0, 0, 0, .plain⟩,
    ⟨"SND_EVENTS", 0x18, 1, 4, 0, 0x7F, 0, 0, 0, 0, .plain⟩,
    ⟨"SND_FIRST", 0x1C, 1, 4, 0, 0, 0, 0, 0x3FF, 0, .plain⟩ ]

/-- Registers of the management block. R390 (16), R391 R458 (16), R394 (16), R396 (17), R405 (17), R409 (17), R410 (17), R411 (17), R412 (18), R425 (18), R426 (18), R431 (18), R433 (18), R456 (12), R69 (02), R96 (03) -/
def mgmtRows : List RegRow :=
  [ ⟨"KEEPER_STATUS", 0x100, 1, 4, 0, 0, 0, 0, 0xFF000133, 1, .plain⟩,
    ⟨"KEEPER_HB", 0x104, 1, 4, 0, 0, 0, 0xFFFFFFFF, 0, 0, .plain⟩,
    ⟨"ACC_VIOL", 0x200, 1, 4, 0xFF0000, 0x80000000, 0, 0, 0x33F, 0, .plain⟩,
    ⟨"ACC_VIOL_ADDR_LO", 0x204, 1, 4, 0, 0, 0, 0, 0xFFFFFFFF, 0, .plain⟩,
    ⟨"ACC_VIOL_ADDR_HI", 0x208, 1, 4, 0, 0, 0, 0, 0xFF, 0, .plain⟩,
    ⟨"PYNAL_STATUS", 0x4000, 1, 4, 0, 0, 0, 0, 0xFFFFFFF1, 0xF00, .plain⟩,
    ⟨"LPX_ECC", 0x5000, 4, 16, 0xFFFFFF00, 0, 0, 0, 0, 0, .plain⟩,
    ⟨"LPX_UE_ADDR", 0x5004, 4, 16, 0, 0x80000000, 0, 0, 0x3FFFFFFF, 0, .plain⟩,
    ⟨"MEM_SCRUB", 0x5100, 1, 4, 0xFFFFFFFF, 0, 0, 0, 0, 0x4003E8, .plain⟩,
    ⟨"FAULT_PIN", 0x6000, 1, 4, 1, 0, 0, 0, 0xF1E, 0, .plain⟩,
    ⟨"PWR_MODE", 0x7000, 1, 4, 0, 0, 0, 0, 0xF7F, 3, .plain⟩,
    ⟨"PWR_WAKE_EN", 0x7004, 1, 4, 0x1FE, 0, 0, 0, 0, 0, .plain⟩,
    ⟨"PWR_WAKE_QI_LO", 0x7008, 1, 4, 0xFFFFFFFF, 0, 0, 0, 0, 0, .plain⟩,
    ⟨"PWR_WAKE_QI_HI", 0x700C, 1, 4, 0xFFFFFFFF, 0, 0, 0, 0, 0, .plain⟩,
    ⟨"PWR_LAST_WAKE", 0x7010, 1, 4, 0, 0, 0, 0, 0xFF003F0F, 0, .plain⟩,
    ⟨"PWR_LAST_WAKE_T_LO", 0x7014, 1, 4, 0, 0, 0, 0, 0xFFFFFFFF, 0, .plain⟩,
    ⟨"PWR_DEEP_PULL", 0x7018, 1, 4, 0xFF, 0, 0, 0, 0, 0, .plain⟩,
    ⟨"PWR_LAST_WAKE_T_HI", 0x701C, 1, 4, 0, 0, 0, 0, 0xFFFFFFFF, 0, .plain⟩,
    ⟨"PWR_AON", 0x7020, 1, 4, 0, 0, 0, 0, 7, 0, .plain⟩,
    ⟨"PWR_EVENTS", 0x7024, 1, 4, 0, 3, 0, 0, 0, 0, .plain⟩ ] ++
  [ ⟨"STICKY0", 0x7100, 1, 4, 0, 0x1FD, 0, 0, 0, 0, .plain⟩,
    ⟨"STICKY1,2", 0x7104, 2, 4, 0, 0, 0, 0, 0xFFFFFFFF, 0, .plain⟩,
    ⟨"STICKY3..15", 0x710C, 13, 4, 0xFFFFFFFF, 0, 0, 0, 0, 0, .plain⟩,
    ⟨"JOURNAL_WA", 0x8000, 1024, 4, 0xFFFFFFFF, 0, 0, 0, 0, 0, .plain⟩,
    ⟨"JOURNAL_WB", 0x9000, 1024, 4, 0xFFFFFFFF, 0, 0, 0, 0, 0, .plain⟩,
    ⟨"LINK_STRAP", 0xA000, 1, 4, 0, 0, 0, 0, 7, 0, .plain⟩,
    ⟨"QI_PAD_LO", 0xA010, 1, 4, 0xFFFFFFFF, 0, 0, 0, 0, 0xFFFFFFFF, .plain⟩,
    ⟨"QI_PAD_HI", 0xA014, 1, 4, 0xFFFFFFFF, 0, 0, 0, 0, 0xFFFFFFFF, .plain⟩,
    ⟨"GO_PAD", 0xA018, 1, 4, 0xFFFFFFFF, 0, 0, 0, 0, 0, .plain⟩,
    ⟨"PE_SUBSYS", 0xA100, 2, 64, 0xFFFFFFFF, 0, 0, 0, 0, 0, .plain⟩,
    ⟨"PE_BAR2_BASE_LO", 0xA104, 2, 64, 0xFFF00000, 0, 0, 0, 0, 0, .lo⟩,
    ⟨"PE_BAR2_BASE_HI", 0xA108, 2, 64, 0xFF, 0, 0, 0, 0, 0, .hi⟩,
    ⟨"PE_STATUS", 0xA10C, 2, 64, 0, 0xF0000, 0, 0, 0x77F, 0x300, .plain⟩,
    ⟨"PE_AER_UNC", 0xA110, 2, 64, 0, 0, 0, 0, 0xFFFFFFFF, 0, .plain⟩,
    ⟨"PE_AER_COR", 0xA114, 2, 64, 0, 0, 0, 0, 0xFFFFFFFF, 0, .plain⟩,
    ⟨"EDID_CMD", 0xB000, 4, 512, 0x100FF, 0, 0, 0x80000000, 0, 0, .plain⟩,
    ⟨"EDID_STATUS", 0xB004, 4, 512, 0, 3, 0, 0, 4, 0, .plain⟩,
    ⟨"EDID_BUF (BP0)", 0xB100, 32, 4, 0, 0, 0, 0, 0xFFFFFFFF, 0, .plain⟩,
    ⟨"EDID_BUF (BP1)", 0xB300, 32, 4, 0, 0, 0, 0, 0xFFFFFFFF, 0, .plain⟩,
    ⟨"EDID_BUF (BP2)", 0xB500, 32, 4, 0, 0, 0, 0, 0xFFFFFFFF, 0, .plain⟩ ] ++
  [ ⟨"EDID_BUF (BP3)", 0xB700, 32, 4, 0, 0, 0, 0, 0xFFFFFFFF, 0, .plain⟩ ]

/-- Registers of slot 0 of a Sector window. R377, R457 -/
def sec0Rows : List RegRow :=
  [ ⟨"SEC_FAULT", 0, 1, 4, 0, 0x80000000, 0, 0, 0x7F1FFF00, 0, .plain⟩,
    ⟨"SEC_FAULT_TIME_LO", 4, 1, 4, 0, 0, 0, 0, 0xFFFFFFFF, 0, .plain⟩,
    ⟨"SEC_FAULT_TIME_HI", 8, 1, 4, 0, 0, 0, 0, 0xFFFFFFFF, 0, .plain⟩,
    ⟨"SEC_FAILED", 0xC, 1, 4, 0, 0, 0, 0, 0xFFFFFFFF, 0, .plain⟩,
    ⟨"SEC_REPAIR", 0x10, 1, 4, 0x3FF31F1F, 0x40000000, 0, 0, 0x80000000, 0, .plain⟩,
    ⟨"SEC_STALE", 0x14, 1, 4, 0, 0, 0, 0, 0xFFFFFFFF, 0, .plain⟩ ]

/-- Registers of slot 31 of a Sector window. R96 -/
def sec31Rows : List RegRow :=
  [ ⟨"ORCH_ECC", 0, 1, 4, 0xFFFFFF00, 0, 0, 0, 0, 0, .plain⟩,
    ⟨"ORCH_UE_ADDR", 4, 1, 4, 0, 0x80000000, 0, 0, 0x3FFFFFFF, 0, .plain⟩ ]

/-- Registers of the interrupt router. R307 -/
def routerRows : List RegRow :=
  [ ⟨"IRQ_CFG", 0, 512, 8, 0x1F77, 0, 0, 0, 0, 0x1F00, .plain⟩,
    ⟨"IRQ_MOD", 4, 512, 8, 0xFFFFFF, 0, 0, 0, 0, 0, .plain⟩,
    ⟨"IRQ_STAT", 0x1000, 512, 4, 0, 1, 0, 0, 0xFF1F1E, 0x1F00, .plain⟩,
    ⟨"IRQ_T_CLAIM", 0x2000, 24, 16, 0, 0, 0, 0, 0x800701FF, 0, .plain⟩,
    ⟨"IRQ_T_EOI", 0x2004, 24, 16, 0, 0, 0, 0x1FF, 0, 0, .plain⟩,
    ⟨"IRQ_T_STATE", 0x2008, 24, 16, 0, 8, 0, 0, 0xFFFF0007, 0, .plain⟩,
    ⟨"IRQ_SELF_CLAIM", 0x3000, 1, 4, 0, 0, 0, 0, 0x800701FF, 0, .plain⟩,
    ⟨"IRQ_SELF_EOI", 0x3004, 1, 4, 0, 0, 0, 0x1FF, 0, 0, .plain⟩,
    ⟨"IRQ_SELF_STATE", 0x3008, 1, 4, 0, 8, 0, 0, 0xFFFF0007, 0, .plain⟩,
    ⟨"IRQ_SWSET", 0x3100, 4, 4, 0, 0, 0xFFFFFFFF, 0, 0, 0, .plain⟩,
    ⟨"IRQ_SWCLR", 0x3110, 4, 4, 0, 0xFFFFFFFF, 0, 0, 0, 0, .plain⟩ ]

/-- Registers of a mailbox. R317 -/
def mboxRows : List RegRow :=
  [ ⟨"MB_CLAIM", 0, 1, 4, 0, 0, 0, 0, 0x8000001F, 0, .plain⟩,
    ⟨"MB_DOORBELL", 4, 1, 4, 0, 0, 0, 0x70F, 0, 0, .plain⟩,
    ⟨"MB_ACK", 8, 1, 4, 0, 0, 0, 0xFFFF000F, 0, 0, .plain⟩,
    ⟨"MB_RELEASE", 0xC, 1, 4, 0, 0, 0, 3, 0, 0, .plain⟩,
    ⟨"MB_STATUS", 0x10, 1, 4, 0, 0, 0, 0, 0x71F0003, 0, .plain⟩,
    ⟨"MB_RESULT", 0x14, 1, 4, 0, 0, 0, 0, 0xFFFF000F, 0, .plain⟩,
    ⟨"MB_POSTED", 0x18, 1, 4, 0, 0, 0, 0, 0xFFFFFFFF, 0, .plain⟩,
    ⟨"MB_ERR", 0x1C, 1, 4, 0, 0xF, 0, 0, 0, 0, .plain⟩,
    ⟨"MB_MSG", 0x20, 8, 4, 0xFFFFFFFF, 0, 0, 0, 0, 0, .plain⟩,
    ⟨"MB_REPLY", 0x40, 8, 4, 0xFFFFFFFF, 0, 0, 0, 0, 0, .plain⟩ ]

/-- Registers of a Vine channel. R336, R337, R338 -/
def vchanRows : List RegRow :=
  [ ⟨"CHAN_CTRL", 0, 1, 4, 0x1FF0F71, 0, 0, 0, 0, 0x400000, .plain⟩,
    ⟨"CHAN_CMD", 4, 1, 4, 0, 0, 0, 3, 0, 0, .plain⟩,
    ⟨"CHAN_DESC_LO", 8, 1, 4, 0xFFFFFFE0, 0, 0, 0, 0, 0, .lo⟩,
    ⟨"CHAN_DESC_HI", 0xC, 1, 4, 0xFF, 0, 0, 0, 0, 0, .hi⟩,
    ⟨"CHAN_SREC_LO", 0x10, 1, 4, 0xFFFFFFE0, 0, 0, 0, 0, 0, .lo⟩,
    ⟨"CHAN_SREC_HI", 0x14, 1, 4, 0xFF, 0, 0, 0, 0, 0, .hi⟩,
    ⟨"CHAN_STATUS", 0x18, 1, 4, 0, 7, 0, 0, 0xFF0018, 0, .plain⟩,
    ⟨"CHAN_CUR", 0x1C, 1, 4, 0, 0, 0, 0, 0xFFFFFFE0, 0, .plain⟩,
    ⟨"CHAN_CUR_HI", 0x20, 1, 4, 0, 0, 0, 0, 0xFF, 0, .plain⟩,
    ⟨"CHAN_RESID", 0x24, 1, 4, 0, 0, 0, 0, 0xFFFFFFFF, 0, .plain⟩,
    ⟨"CHAN_COUNT", 0x28, 1, 4, 0xFFFFFFFF, 0, 0, 0, 0, 0, .plain⟩ ]

/-- Registers of a Vine group. R330, R331 -/
def vgrpRows : List RegRow :=
  [ ⟨"GRP_CTX_LO", 0, 1, 4, 0xFFFFFFC0, 0, 0, 0, 0, 0, .lo⟩,
    ⟨"GRP_CTX_HI", 4, 1, 4, 0xFF, 0, 0, 0, 0, 0, .hi⟩,
    ⟨"GRP_CTX_COUNT", 8, 1, 4, 0x7FFFF, 0, 0, 0, 0, 0, .plain⟩,
    ⟨"GRP_DOORBELL", 0xC, 1, 4, 0, 0, 0, 0xFFFFFFFF, 0, 0, .plain⟩,
    ⟨"GRP_SYNC", 0x10, 1, 4, 0, 0, 0, 0x3FFFF, 0, 0, .plain⟩,
    ⟨"GRP_STATUS", 0x14, 1, 4, 0, 3, 0, 0, 0x1FF000C, 0, .plain⟩,
    ⟨"GRP_BAD_RING", 0x18, 1, 4, 0, 0, 0, 0, 0x3FFFF, 0, .plain⟩ ]

/-- Registers of the queue manager. R341, R342, R343, R346, R347, R348 -/
def qmRows : List RegRow :=
  [ ⟨"QM_CTRL", 0, 1, 4, 7, 0, 0, 0, 0, 3, .plain⟩,
    ⟨"QM_STATUS", 4, 1, 4, 0, 0x2000000, 0, 0, 0x11F1F77, 0, .plain⟩,
    ⟨"QM_CAP", 8, 1, 4, 0, 0, 0, 0, 0x7FFFFFFF, 0, .plain⟩,
    ⟨"QM_EVENTS", 0xC, 1, 4, 0, 3, 0, 0, 0, 0, .plain⟩,
    ⟨"QM_ERR", 0x10, 2, 4, 0xFFFF0000, 0, 0, 0, 0xFFFF, 0, .plain⟩,
    ⟨"QM_WIN_BASE", 0x40, 5, 8, 0xBFFFFFFF, 0, 0, 0, 0, 0, .plain⟩,
    ⟨"QM_WIN_COUNT", 0x44, 5, 8, 0x7FFFFFFF, 0, 0, 0, 0, 0, .plain⟩,
    ⟨"QM_LDG_BASE", 0x80, 1, 4, 0x3FFFFFFF, 0, 0, 0, 0, 0, .plain⟩,
    ⟨"QM_LDG_BLOCKS", 0x84, 1, 4, 0x1FFFF, 0, 0, 0, 0, 0, .plain⟩,
    ⟨"QM_LDG_OLDEST", 0x88, 1, 4, 0, 0, 0, 0, 0xFFFFFFFF, 0, .plain⟩,
    ⟨"QM_LDG_NEXT", 0x8C, 1, 4, 0, 0, 0, 0, 0xFFFFFFFF, 0, .plain⟩ ]

/-- Registers of a Ledger bank. R345, R347 -/
def ledgerRows : List RegRow :=
  [ ⟨"LDG_DATA", 0, 64, 4, 0xFFFFFFFF, 0, 0, 0, 0, 0, .plain⟩,
    ⟨"LDG_SUBMIT", 0x100, 1, 4, 0, 0, 0, 0x1FF, 0, 0, .plain⟩,
    ⟨"LDG_STATUS", 0x104, 1, 4, 0x700, 0xA, 0, 0, 0x1F0015, 0, .plain⟩,
    ⟨"LDG_SUBMITTED", 0x108, 1, 4, 0, 0, 0, 0, 0xFFFFFFFF, 0, .plain⟩,
    ⟨"LDG_ACKED", 0x10C, 1, 4, 0, 0, 0, 0, 0xFFFFFFFF, 0, .plain⟩ ]

/-- Registers of a timer channel. R365, R366, R368, R369, R370, R371 -/
def timerRows : List RegRow :=
  [ ⟨"TC_CTRL", 0, 1, 4, 0xF37, 0, 0, 0, 0, 0, .plain⟩,
    ⟨"TC_LINK", 4, 1, 4, 0x731F, 0, 0, 0, 0, 0, .plain⟩,
    ⟨"TC_CMD", 8, 1, 4, 0, 0, 0, 3, 0, 0, .plain⟩,
    ⟨"TC_PHASE", 0xC, 1, 4, 0xFFFFFFFF, 0, 0, 0, 0, 0, .plain⟩,
    ⟨"TC_TOP", 0x10, 1, 4, 0xFFFFFFFF, 0, 0, 0, 0, 0, .plain⟩,
    ⟨"TC_COUNT", 0x14, 1, 4, 0, 0, 0, 0, 0xFFFFFFFF, 0, .plain⟩,
    ⟨"TC_CMP", 0x20, 4, 4, 0xFFFFFFFF, 0, 0, 0, 0, 0, .plain⟩,
    ⟨"TC_INTV", 0x30, 4, 4, 0xFFFFFFFF, 0, 0, 0, 0, 0, .plain⟩,
    ⟨"TC_CAPCFG", 0x40, 1, 4, 0xFFFF033F, 0, 0, 0, 0, 0, .plain⟩,
    ⟨"TC_CAP", 0x44, 1, 4, 0, 0, 0, 0, 0xFFFFFFFF, 0, .plain⟩,
    ⟨"TC_STATUS", 0x48, 1, 4, 0, 0x1FF, 0, 0, 0x80000200, 0, .plain⟩,
    ⟨"TC_IRQEN", 0x4C, 1, 4, 0x1FF, 0, 0, 0, 0, 0, .plain⟩ ]

/-- Registers of the Tally block. R372, R373, R374, R375 -/
def tallyRows : List RegRow :=
  [ ⟨"TALLY_LO", 0, 1, 4, 0, 0, 0, 0, 0xFFFFFFFF, 0, .plain⟩,
    ⟨"TALLY_HI", 4, 1, 4, 0, 0, 0, 0, 0xFFFFFFFF, 0, .plain⟩,
    ⟨"TALLY_SET_LO", 8, 1, 4, 0, 0, 0, 0xFFFFFFFF, 0, 0, .plain⟩,
    ⟨"TALLY_SET_HI", 0xC, 1, 4, 0, 0, 0, 0xFFFFFFFF, 0, 0, .plain⟩,
    ⟨"TALLY_STATUS", 0x10, 1, 4, 1, 0xE, 0, 0, 0x10, 0, .plain⟩,
    ⟨"TALLY_ERR", 0x14, 1, 4, 0, 0, 0, 0, 0xFFFFFFFF, 0, .plain⟩,
    ⟨"TALLY_CAL", 0x18, 1, 4, 0, 0, 0, 0, 0xFFFFFFFF, 0, .plain⟩,
    ⟨"TALLY_ALARM_LO", 0x20, 1, 4, 0xFFFFFFFF, 0, 0, 0, 0, 0, .plain⟩,
    ⟨"TALLY_ALARM_HI", 0x24, 1, 4, 0xFFFFFFFF, 0, 0, 0, 0, 0, .plain⟩,
    ⟨"TALLY_SKEW_LO", 0x30, 1, 4, 0, 0, 0, 0, 0xFFFFFFFF, 0, .plain⟩,
    ⟨"TALLY_SKEW_HI", 0x34, 1, 4, 0, 0, 0, 0, 0xFFFFFFFF, 0, .plain⟩ ]

/-- Registers of a USB port. R430 -/
def usbRows : List RegRow :=
  [ ⟨"USB_PORTSC", 0, 1, 4, 0x50, 0xE0000, 0, 0x28, 0xC085, 0xC000, .plain⟩,
    ⟨"USB_IRQEN", 4, 1, 4, 0xF0000, 0, 0, 0, 0, 0, .plain⟩,
    ⟨"USB_FRAME", 8, 1, 4, 0, 0, 0, 0, 0x3FFF, 0, .plain⟩ ]

/-- Registers of a USB pipe. R430 -/
def pipeRows : List RegRow :=
  [ ⟨"PIPE_BASE_LO", 0, 1, 4, 0xFFFFFFF0, 0, 0, 0, 0, 0, .lo⟩,
    ⟨"PIPE_BASE_HI", 4, 1, 4, 0xFF, 0, 0, 0, 0, 0, .hi⟩,
    ⟨"PIPE_CTRL", 8, 1, 4, 0x800F07FF, 0, 0, 0, 0, 0x40, .plain⟩,
    ⟨"PIPE_TAIL", 0xC, 1, 4, 0xFFFF, 0, 0, 0, 0, 0, .plain⟩,
    ⟨"PIPE_HEAD", 0x10, 1, 4, 0, 0, 0, 0, 0xFFFF, 0, .plain⟩,
    ⟨"PIPE_STATUS", 0x14, 1, 4, 0, 0x200, 0, 0, 0x1FF, 0, .plain⟩ ]

/-- Registers of an I2C controller. R432 -/
def i2cRows : List RegRow :=
  [ ⟨"I2C_CTRL", 0, 1, 4, 0x103, 0, 0, 0, 0, 0, .plain⟩,
    ⟨"I2C_CMD", 4, 1, 4, 0x607F001F, 0, 0, 0x80000000, 0, 0x40000000, .plain⟩,
    ⟨"I2C_DATA", 8, 1, 4, 0xFF, 0, 0, 0, 0, 0, .plain⟩,
    ⟨"I2C_STATUS", 0xC, 1, 4, 0, 7, 0, 0, 0x3FF8, 0, .plain⟩ ]

/-- Registers of the UART. R432 -/
def uartRows : List RegRow :=
  [ ⟨"UART_CTRL", 0, 1, 4, 0x7FFFFF, 0, 0, 0, 0, 0xA2C, .plain⟩,
    ⟨"UART_DATA", 4, 1, 4, 0xFF, 0, 0, 0, 0, 0, .plain⟩,
    ⟨"UART_STATUS", 8, 1, 4, 0, 0x1C0000, 0, 0, 0x303FF, 0x20000, .plain⟩,
    ⟨"UART_IRQEN", 0xC, 1, 4, 0x1F0000, 0, 0, 0, 0, 0, .plain⟩ ]

/-- Registers of the SPI flash controller. R432 -/
def spiRows : List RegRow :=
  [ ⟨"SPI_CMD", 0, 1, 4, 0xFFFFF, 0, 0, 0x80000000, 0, 0, .plain⟩,
    ⟨"SPI_ADDR", 4, 1, 4, 0xFFFFFFFF, 0, 0, 0, 0, 0, .plain⟩,
    ⟨"SPI_LEN", 8, 1, 4, 0x1FF, 0, 0, 0, 0, 0, .plain⟩,
    ⟨"SPI_STATUS", 0xC, 1, 4, 0, 1, 0, 0, 2, 0, .plain⟩,
    ⟨"SPI_BUF", 0x100, 64, 4, 0xFFFFFFFF, 0, 0, 0, 0, 0, .plain⟩ ]

/-- Registers of a Spoke bus block. R424 -/
def spkbusRows : List RegRow :=
  [ ⟨"SPK_OUT (broadcast)", 0, 8, 4, 0xFFFFFFFF, 0, 0, 0, 0, 0, .plain⟩,
    ⟨"SPK_CTRL", 0x80, 1, 4, 0xFF01, 0, 0, 0, 0, 0x100, .plain⟩,
    ⟨"SPK_BCAST", 0x84, 1, 4, 0, 0, 0, 0x3F, 0, 0, .plain⟩,
    ⟨"SPK_SKIPPED", 0x88, 1, 4, 0xFFFFFFFF, 0, 0, 0, 0, 0, .plain⟩ ]

/-- Registers of a Spoke drop. R424 -/
def spkdropRows : List RegRow :=
  [ ⟨"SPK_OUT", 0, 8, 4, 0xFFFFFFFF, 0, 0, 0, 0, 0, .plain⟩,
    ⟨"SPK_OUTLEN", 0x20, 1, 4, 0x3F, 0, 0, 0, 0, 0, .plain⟩,
    ⟨"SPK_CFG", 0x24, 1, 4, 0xFF01, 0, 0, 0, 0, 0, .plain⟩,
    ⟨"SPK_IN", 0x40, 8, 4, 0, 0, 0, 0, 0xFFFFFFFF, 0, .plain⟩,
    ⟨"SPK_INFO", 0x60, 1, 4, 0, 0, 0, 0, 0x3FFFFF, 0, .plain⟩,
    ⟨"SPK_ERR", 0x64, 1, 4, 0xFFFFFFFF, 0, 0, 0, 0, 0, .plain⟩ ]

/-- Registers of the host port registers of BAR0. R417 -/
def pehostRows : List RegRow :=
  [ ⟨"PE_STAGE_ADDR_LO", 0, 1, 4, 0xFFFFF000, 0, 0, 0, 0, 0, .plain⟩,
    ⟨"PE_STAGE_ADDR_HI", 4, 1, 4, 0xFFFFFFFF, 0, 0, 0, 0, 0, .plain⟩,
    ⟨"PE_STAGE_LEN", 8, 1, 4, 0x3FFFFFFF, 0, 0, 0, 0, 0, .plain⟩,
    ⟨"PE_STAGE_CTRL", 0xC, 1, 4, 0, 0, 0, 1, 2, 0, .plain⟩,
    ⟨"PE_HOST_STATUS", 0x10, 1, 4, 0, 0, 0, 0, 0xF, 0, .plain⟩ ]

end Regs

/-- The row that holds offset `o`, word aligned. -/
def findRow (rows : List RegRow) (o : Nat) : Option RegRow :=
  rows.find? fun r => r.off ≤ o && (o - r.off) % r.stride == 0 && (o - r.off) / r.stride < r.n

/-- The row of a word of a stage window by its offset (R18, R109, R123, R147, R169, R229). -/
def stageRow (o : Nat) : Option RegRow :=
  if o < 0x1000 then findRow Regs.identRows o
  else if o < 0x2000 then findRow Regs.fenceRows (o - 0x1000)
  else if o < 0x10000 then none
  else if o < 0x110000 then findRow Regs.layerRows (o % 0x10000)
  else if o < 0x190000 then findRow Regs.spriteRows (o % 0x10000)
  else if o < 0x1A0000 then findRow Regs.prismRows (o - 0x190000)
  else if o < 0x1B0000 then findRow Regs.chordRows (o - 0x1A0000)
  else if o < 0x1C0000 then findRow Regs.pressRows (o - 0x1B0000)
  else if o < 0x200000 then none
  else if o < 0x240000 then findRow Regs.voiceRows (o % 0x100)
  else if o < 0x240400 then findRow Regs.busRows (o % 0x40)
  else if o < 0x250000 then none
  else if o < 0x250400 then findRow Regs.fxRows (o % 0x80)
  else if o < 0x260000 then none
  else if o < 0x260080 then findRow Regs.outRows (o % 0x20)
  else if o < 0x260100 then none
  else if o < 0x260120 then findRow Regs.routeRows (o - 0x260100)
  else if o < 0x270000 then none
  else if o < 0x270100 then findRow Regs.sndRows (o - 0x270000)
  else none

/-- The row of a word of the management block or a Sector window's own slots, and of the shared
blocks, by device address (R19, R36, R307, R317, R321, R364, R372, R430-R432). The unit slots of a Sector
window hold the registers of units that no stage holds; stage windows are not here: they go to `stageRow`. -/
def deviceRow (a : Nat) : Option RegRow :=
  if a < 0x10000000 then none
  else if a < 0x11000000 then findRow Regs.mgmtRows (a - 0x10000000)
  else if a < 0x12000000 then
    let slot := (a % 0x400000) / 0x10000
    if slot = 0 then findRow Regs.sec0Rows (a % 0x10000)
    else if slot < 15 then findRow Regs.layerRows (a % 0x10000)
    else if slot < 20 then findRow Regs.spriteRows (a % 0x10000)
    else if slot < 22 then findRow Regs.prismRows (a % 0x10000)
    else if slot < 24 then findRow Regs.chordRows (a % 0x10000)
    else if slot = 30 then findRow Regs.pressRows (a % 0x10000)
    else if slot = 31 then findRow Regs.sec31Rows (a % 0x10000)
    else if slot = 34 ∨ slot = 35 then findRow Regs.voiceRows (a % 0x100)
    else none
  else if a < 0x13000000 then none
  else if a < 0x13010000 then findRow Regs.routerRows (a - 0x13000000)
  else if a < 0x13011800 then findRow Regs.mboxRows (a % 0x100)
  else if a < 0x13020000 then none
  else if a < 0x13024000 then findRow Regs.vchanRows (a % 0x100)
  else if a < 0x13024400 then findRow Regs.vgrpRows (a % 0x100)
  else if a < 0x1302C000 then none
  else if a < 0x1302C100 then findRow Regs.qmRows (a - 0x1302C000)
  else if a < 0x1302E000 then none
  else if a < 0x1302EA00 then findRow Regs.ledgerRows ((a - 0x1302E000) % 0x200)
  else if a < 0x13030000 then none
  else if a < 0x13032000 then findRow Regs.timerRows (a % 0x100)
  else if a < 0x13040000 then none
  else if a < 0x13040100 then findRow Regs.tallyRows (a - 0x13040000)
  else if a < 0x13050000 then none
  else if a < 0x13054000 then
    let o := a % 0x1000
    if o < 0x100 then findRow Regs.usbRows o
    else if o < 0x300 then findRow Regs.pipeRows (o % 0x20)
    else none
  else if a < 0x13060000 then none
  else if a < 0x13060200 then findRow Regs.i2cRows (a % 0x100)
  else if a < 0x13060300 then findRow Regs.uartRows (a - 0x13060200)
  else if a < 0x13060400 then none
  else if a < 0x13060600 then findRow Regs.spiRows (a - 0x13060400)
  else if a < 0x13070000 then none
  else if a < 0x13078000 then
    let o := a % 0x4000
    if o < 0x100 then findRow Regs.spkbusRows o
    else if o < 0x2000 then findRow Regs.spkdropRows (o % 0x100)
    else none
  else none

/-- The reset value of a row, 0 where there is none. -/
def RegRow.resetWord (r : Option RegRow) : Word :=
  match r with
  | none => 0
  | some row => BitVec.ofNat 32 row.reset

/-- What an unlisted word of a stage window reads as: its reset value (R9).
[log 1 DESIGN CHOICE] -/
def stageDefault (o : Nat) : Word := RegRow.resetWord (stageRow o)

/-- What an unlisted device register reads as: its reset value (R9).
[log 1 DESIGN CHOICE] -/
def deviceDefault (a : Nat) : Word := RegRow.resetWord (deviceRow a)

/-- The value a write leaves in a register under the access codes of R9, for the bits of `mask`. -/
def RegRow.write (r : RegRow) (old v mask : Word) : Word :=
  let rw := BitVec.ofNat 32 r.rw &&& mask
  let c := BitVec.ofNat 32 r.w1c &&& mask &&& v
  let s := BitVec.ofNat 32 r.w1s &&& mask &&& v
  (((old &&& ~~~rw) ||| (v &&& rw)) &&& ~~~c) ||| s

/-- The bits of a register that a read returns (R9: WO and reserved bits read 0). -/
def RegRow.readMask (r : RegRow) : Word :=
  BitVec.ofNat 32 (r.rw ||| r.w1c ||| r.w1s ||| r.ro)

end Sys2Proof.Machine
end

