-- ==== Sys2Proof/Syntax.lean ====
section
/-!
DEFINITION. The commands the VX-4410 block takes: one constructor per row of
spec/opcode_table.json, in the table's order, with the operands each row's rule names.
Indices are Nat; WellFormed.lean says which index values the spec gives a meaning.
-/

namespace Sys2Proof

/-- Who makes an access: the initiators of R12, R29, R218 and R308. Cores are P0-P19 (R16),
`warden 0` is WA and `warden 1` is WB; `host p` is the host behind PE p; `vine c` is channel VCc. -/
inductive Initiator where
  | pip (core : Nat)
  | chord (s : Nat)
  | reflex (s : Nat)
  | press (s : Nat)
  | vine (c : Nat)
  | warden (w : Nat)
  | host (p : Nat)
  | debug
  | loader
  deriving DecidableEq, Repr

/-- What every Pip instruction carries besides its own fields: the core that issues it (P0-P19),
bits 31:28 of its word (the guard, R257), and whether its fetch or its data access meets an
uncorrectable word (R96, R274). -/
structure Issue where
  core : Nat
  guard : BitVec 4
  fetchUe : Bool
  dataUe : Bool
  deriving DecidableEq, Repr

/-- A register number of a Pip (R252). -/
abbrev Reg := BitVec 5

/-- The commands, one per row of the opcode table.
[log 7 DESIGN CHOICE] -/
inductive Instr where
  -- power, reset and load
  | resetNRelease (straps : BitVec 3) (qiPins : BitVec 64)
  | rootPllLoss (xtalStopped : Bool)
  | aonSupplySwitch (io18Good : Bool)
  | peStageReady (p : Nat)
  | loadPass1End (image : List Byte)
  | lp5xTrained (mts : Nat) (rawGib : Nat)
  | loadPass2End (image : List Byte) (assets : List Byte)
  | synthLocked (p : Nat)
  | stageStart (s : Nat)
  -- Warden commands
  | health (w : Nat) (tj : BitVec 16)
  | loadStage (w : Nat)
  | stageStop (s : Nat)
  | unloadStage (w : Nat)
  | unloadStageEnd (s : Nat)
  | setMode (w : Nat)
  | shed (w : Nat)
  | repairStatus (w : Nat)
  | updateSlot (w : Nat) (image : List Byte)
  | ledgerStatus (w : Nat)
  | bindQuery (w : Nat)
  | badOpcode (w : Nat)
  -- mailboxes and router
  | mbClaim (m : Nat) (claimants : List Nat)
  | mbClaimLapse (m : Nat)
  | mbDoorbell (m : Nat) (t : Nat) (v : Word)
  | mbAck (m : Nat) (t : Nat) (v : Word)
  | mbRelease (m : Nat) (t : Nat)
  | mbReleaseForce (m : Nat) (i : Initiator)
  | irqSourceEvent (src : Nat)
  | moderationRelease (src : Nat)
  | irqClaim (t : Nat)
  | irqEoi (t : Nat) (src : Nat)
  | irqSwset (i : Initiator) (n : Nat) (v : Word)
  | irqSwclr (i : Initiator) (n : Nat) (v : Word)
  | pipInterruptEntry (core : Nat)
  | pipRetentionWake (core : Nat)
  -- Pip instructions
  | addi (x : Issue) (rd ra : Reg) (imm : BitVec 12)
  | andi (x : Issue) (rd ra : Reg) (imm : BitVec 12)
  | ori (x : Issue) (rd ra : Reg) (imm : BitVec 12)
  | xori (x : Issue) (rd ra : Reg) (imm : BitVec 12)
  | slli (x : Issue) (rd ra : Reg) (amt : BitVec 5)
  | srli (x : Issue) (rd ra : Reg) (amt : BitVec 5)
  | srai (x : Issue) (rd ra : Reg) (amt : BitVec 5)
  | roli (x : Issue) (rd ra : Reg) (amt : BitVec 5)
  | movl (x : Issue) (rd : Reg) (imm : BitVec 16)
  | movh (x : Issue) (rd : Reg) (imm : BitVec 16)
  | add (x : Issue) (rd ra rb : Reg)
  | sub (x : Issue) (rd ra rb : Reg)
  | and (x : Issue) (rd ra rb : Reg)
  | or (x : Issue) (rd ra rb : Reg)
  | xor (x : Issue) (rd ra rb : Reg)
  | andn (x : Issue) (rd ra rb : Reg)
  | orn (x : Issue) (rd ra rb : Reg)
  | xnor (x : Issue) (rd ra rb : Reg)
  | sll (x : Issue) (rd ra rb : Reg)
  | srl (x : Issue) (rd ra rb : Reg)
  | sra (x : Issue) (rd ra rb : Reg)
  | rol (x : Issue) (rd ra rb : Reg)
  | min (x : Issue) (rd ra rb : Reg)
  | max (x : Issue) (rd ra rb : Reg)
  | minu (x : Issue) (rd ra rb : Reg)
  | maxu (x : Issue) (rd ra rb : Reg)
  | adc (x : Issue) (rd ra rb : Reg)
  | sbc (x : Issue) (rd ra rb : Reg)
  | mul (x : Issue) (rd ra rb : Reg)
  | mulh (x : Issue) (rd ra rb : Reg)
  | mulhu (x : Issue) (rd ra rb : Reg)
  | mac (x : Issue) (rd ra rb : Reg)
  | div (x : Issue) (rd ra rb : Reg)
  | divu (x : Issue) (rd ra rb : Reg)
  | rem (x : Issue) (rd ra rb : Reg)
  | remu (x : Issue) (rd ra rb : Reg)
  | clz (x : Issue) (rd ra : Reg)
  | popc (x : Issue) (rd ra : Reg)
  | brev (x : Issue) (rd ra : Reg)
  | bswap (x : Issue) (rd ra : Reg)
  | sextB (x : Issue) (rd ra : Reg)
  | sextH (x : Issue) (rd ra : Reg)
  | cmp (x : Issue) (qd : BitVec 3) (ra rb : Reg) (qe : BitVec 3) (cc : BitVec 4)
  | cmpi (x : Issue) (qd : BitVec 3) (ra : Reg) (imm : BitVec 12) (cc : BitVec 3)
  | pand (x : Issue) (qd qa qb : BitVec 3)
  | por (x : Issue) (qd qa qb : BitVec 3)
  | pxor (x : Issue) (qd qa qb : BitVec 3)
  | pandn (x : Issue) (qd qa qb : BitVec 3)
  | pnot (x : Issue) (qd qa : BitVec 3)
  | ldw (x : Issue) (rd ra : Reg) (imm : BitVec 12)
  | ldh (x : Issue) (rd ra : Reg) (imm : BitVec 12)
  | ldhu (x : Issue) (rd ra : Reg) (imm : BitVec 12)
  | ldb (x : Issue) (rd ra : Reg) (imm : BitVec 12)
  | ldbu (x : Issue) (rd ra : Reg) (imm : BitVec 12)
  | stw (x : Issue) (rd ra : Reg) (imm : BitVec 12)
  | sth (x : Issue) (rd ra : Reg) (imm : BitVec 12)
  | stb (x : Issue) (rd ra : Reg) (imm : BitVec 12)
  | ldx (x : Issue) (rd ra rb : Reg) (scale : BitVec 2) (u : Bool) (size : BitVec 2)
  | stx (x : Issue) (rd ra rb : Reg) (scale : BitVec 2) (size : BitVec 2)
  | lda (x : Issue) (rd : Reg) (unit : BitVec 2) (upd : Bool) (u : Bool) (size : BitVec 2)
  | sta (x : Issue) (rd : Reg) (unit : BitVec 2) (upd : Bool) (size : BitVec 2)
  | astep (x : Issue) (unit : BitVec 2)
  | aswap (x : Issue) (rd ra rb : Reg)
  | aadd (x : Issue) (rd ra rb : Reg)
  | aor (x : Issue) (rd ra rb : Reg)
  | aand (x : Issue) (rd ra rb : Reg)
  | mfs (x : Issue) (rd : Reg) (sr : BitVec 12)
  | mts (x : Issue) (sr : BitVec 12) (ra : Reg)
  | br (x : Issue) (off : BitVec 22)
  | call (x : Issue) (off : BitVec 22)
  | jr (x : Issue) (ra : Reg)
  | jalr (x : Issue) (rd ra : Reg)
  | dbnz (x : Issue) (gn : Reg) (off : BitVec 17)
  | dblc (x : Issue) (off : BitVec 22)
  | bCc (x : Issue) (cond : BitVec 4) (off : BitVec 18)
  | rep (x : Issue) (form : BitVec 2) (n : Reg) (imm : BitVec 8) (succ : Word)
  | nop (x : Issue)
  | brk (x : Issue)
  | syscall (x : Issue)
  | rti (x : Issue)
  | wait (x : Issue)
  | waitWake (core : Nat)
  | isync (x : Issue)
  | fenceW (x : Issue)
  | fenceWDrainEnd (core : Nat)
  | cln (x : Issue) (ra : Reg)
  | clinv (x : Issue) (ra : Reg)
  | inv (x : Issue) (ra : Reg)
  | iinv (x : Issue) (ra : Reg)
  | undefinedInstruction (x : Issue) (word : Word)
  | pipLoadReturn (core : Nat) (ue ce : Bool) (evict : Option Nat)
  | writeBufferDrain (core : Nat) (ue : Bool)
  -- memory
  | scrubRead (word : Nat) (ce ue : Bool)
  -- beam, layers, sprites, Prism
  | lineSamplePoint (s : Nat) (ue : List Nat)
  | layerLineComposed (s l : Nat) (cycles : Nat)
  | spriteLineDrawn (s p : Nat)
  | segmentBoundary (s : Nat) (late : BitVec 24)
  | latchInstant (s : Nat)
  | frameBoundary (s : Nat)
  | holdEnd (s : Nat)
  | timCommit (s : Nat)
  | timRevert (s : Nat)
  | linkLoss (p : Nat)
  | linkTrainingEnd (p : Nat) (ok : Bool)
  | tmdsPllLock (p : Nat)
  | hpdChange (p : Nat) (level : Bool)
  | edidRead (p : Nat) (v : Word)
  | edidReadEnd (p : Nat) (data : Option (List Byte))
  | prismFlipArm (s k : Nat) (v : Word)
  | prismFlipCancel (s k : Nat) (v : Word)
  | fence (i : Initiator) (s f : Nat) (v : Word)
  | fenceAdd (i : Initiator) (s f : Nat) (v : Word)
  -- Chord
  | chordProgramStart (s : Nat) (ueWord : Option Nat)
  | chordEnd (s : Nat)
  | chordWait (s : Nat)
  | chordWaitDue (s : Nat)
  | chordWrite (s : Nat)
  | maskwrite (s : Nat)
  | writeClass0 (s : Nat)
  | skipIf (s : Nat)
  | loop (s : Nat)
  | fenceSignal (s : Nat)
  | chordIrq (s : Nat)
  | badOp (s : Nat)
  | qiFilterAccept (q : Nat) (level : Bool)
  | reflexDelivery (s : Nat)
  | qiCfgWrite (i : Initiator) (s q : Nat) (v : Word)
  -- Bramble
  | sampleStrobe (s : Nat)
  | blockBoundary (s : Nat) (late ue : List Nat)
  | voiceClassStep (s v : Nat)
  | voiceFeed (i : Initiator) (s v : Nat) (n : Word)
  -- Vine, store, Ledger
  | chanStart (i : Initiator) (c : Nat)
  | chanAbort (i : Initiator) (c : Nat)
  | grpDoorbell (i : Initiator) (g : Nat) (v : Word)
  | grpSync (i : Initiator) (g : Nat) (v : Word)
  | descriptorComplete (c : Nat) (asset : List Byte) (ue storeErr : Bool)
  | rootLinkUp (p : Nat) (lbaBytes blocks pairs : Nat)
  | nvmeCommandComplete (d : Nat) (idx : Nat) (status : BitVec 16)
  | ledgerScanEnd (d : Nat) (highest : Option Nat)
  | ldgSubmit (i : Initiator) (g : Nat) (len : Word)
  -- Press
  | pressStart (s : Nat)
  | pressAbort (s : Nat)
  | pressRowDone (s : Nat) (ue : Bool)
  | pressWm (s : Nat) (v : Word)
  | pressComplete (s : Nat)
  | pressBurstDeadEnd (s : Nat)
  -- timers and Tally
  | tcArm (i : Initiator) (k : Nat)
  | tcStop (i : Initiator) (k : Nat)
  | tcTick (k : Nat)
  | tcEnd (k : Nat)
  | tcLinkEvent (k : Nat)
  | tcCmpWrite (i : Initiator) (k j : Nat) (v : Word)
  | tcCapture (k : Nat) (level : Bool)
  | tcCapcfgWrite (i : Initiator) (k : Nat) (v : Word)
  | tallySet (i : Initiator) (lo : Word)
  -- faults, repair, Keeper
  | unitFaultDetect (sector kind unit detector : Nat)
  | secRepair (sector : Nat) (v : Word)
  | repairLoadComplete (sector : Nat) (ue : Bool)
  | shedPerPolicy (s kind lindex : Nat)
  | mirrorBufferDrain (sector : Nat)
  | pipCkptTake (core : Nat)
  | checkpointComplete (core : Nat)
  | keeperHb (w : Nat)
  | wardenLost (w : Nat)
  | faultPin (v : Word)
  -- power modes
  | wakeEvent (src detail : Nat)
  | deepWake (lprc : Nat)
  -- links
  | spokeReply (b : Nat) (frame : List Byte) (stopsValid : Bool)
  | spokeTimeout (b : Nat)
  | spkBcast (b : Nat) (v : Word)
  | usbPortReset (p : Nat)
  | usbPortResume (p : Nat)
  | usbPortEvent (p : Nat) (kind : BitVec 2) (level : Bool)
  | pipeRecordEnd (p i : Nat) (code : BitVec 8) (moved : Nat) (data : List Byte)
  | peLinkEvent (p : Nat) (st : BitVec 11) (aerUnc aerCor : Word)
  | i2cStart (n : Nat) (v : Word)
  | i2cTransferEnd (n : Nat) (nack arbLost : Bool) (data : List Byte)
  | uartReceive (b : Byte) (parityErr framing : Bool)
  | spiStart (v : Word)
  | spiCommandEnd (data : List Byte)
  | jtagDebugResponse (sig : List Byte)
  | fuseProgram (which : BitVec 2) (v : BitVec 256)
  | stageGo (i : Initiator) (s : Nat) (v : Word)
  | registerWrite (i : Initiator) (a : Nat) (v : Word)
  | lprcCalibration (cal : Word)
  | vddBatLow (low : Bool)
  | usbBusResetEnd (p : Nat) (speed : BitVec 2)
  | usbResumeEnd (p : Nat)
  | hostBar2Access (p off : Nat) (wr : Option Byte)
  | jtagDebugChallenge (nonce : BitVec 128)
  | jtagExtest (pins : BitVec 256)
  -- the commands without operands, of every group
  | powerGood
  | railEnRise
  | resetNAssert
  | powerLoss
  | brownOut
  | keeperFailure
  | monitoredRailFault
  | vddaDacFault
  | vddIo33Loss
  | vddBatLoss
  | pfwNAssert
  | pfwNRelease
  | fullLoadStart
  | assetStoreWaitEnd
  | hostReadyWaitEnd
  | sourceReadError
  | lp5xZeroFillEnd
  | updateSlotEnd
  | lpxPowerDown
  | lpxSelfRefresh
  | lpxPowerExit
  | tallyAlarm
  | entryStepComplete
  | wakeSequenceEnd
  | jtagServiceRequest
  | vddaDacReturn
  | vddIo33Return
  | uartTxEmpty
  | jtagBootRequest
  deriving DecidableEq, Repr

end Sys2Proof
end

