-- ==== Sys2Proof/Machine/State.lean ====
section
/-!
DEFINITION. The state of the block as plain data, its faults and refusals, and the state right
after the effective release of RESET_N. Each field names the rule that gives it, its file of
spec/ (by number) and its width; its reset value is its default. Registers that hold no live
unit state stand in the two register files (`Stage.regs` by stage-window offset, `State.regs` by
device address), whose unlisted entries read the reset value of RegMap.lean.
-/

namespace Sys2Proof.Machine

/-- A sparse table: keys strictly rising, no entry equal to what an unlisted key reads as. -/
abbrev Sparse (α : Type) := List (Nat × α)

/-- The device modes of R40. -/
inductive Mode where
  | off | boot | config | run | retune | degraded | orphan | attract | doze | sleep | deep | service
  deriving DecidableEq, Repr, Inhabited

/-- One entry of a stage's binding table (R20). -/
structure BindEntry where
  /-- BOUND. R20 (01); 1 bit -/
  bound : Bool := false
  /-- SHED. R20 (01); 1 bit -/
  shed : Bool := false
  /-- REPAIRED. R20 (01); 1 bit -/
  repaired : Bool := false
  /-- SECTOR of the physical unit. R20 (01); 2 bits -/
  sector : Nat := 0
  /-- UNIT, the physical index in the Sector. R20 (01); 5 bits -/
  unit : Nat := 0
  /-- COUNT, voices held (BIND_BRAMBLE only). R20 R21 (01); 9 bits -/
  count : Nat := 0
  deriving DecidableEq, Repr, Inhabited

/-- A raster timing: the fields of a PORT_TIMING record (R53, R109). -/
structure Timing where
  /-- PIXCLK_HZ. R53 (02); 32 bits -/
  pixclk : Nat := 0
  /-- HTOTAL. R53 (02); 16 bits -/
  htotal : Nat := 0
  /-- HACTIVE. R53 (02); 16 bits -/
  hactive : Nat := 0
  /-- HSYNC_START. R53 (02); 16 bits -/
  hss : Nat := 0
  /-- HSYNC_END. R53 (02); 16 bits -/
  hse : Nat := 0
  /-- VTOTAL. R53 (02); 16 bits -/
  vtotal : Nat := 0
  /-- VACTIVE. R53 (02); 16 bits -/
  vactive : Nat := 0
  /-- VSYNC_START. R53 (02); 16 bits -/
  vss : Nat := 0
  /-- VSYNC_END. R53 (02); 16 bits -/
  vse : Nat := 0
  /-- OUTPUTS: bit 0 DisplayPort, 1 HDMI, 2 analog. R53 (02); 3 bits -/
  outputs : Nat := 0
  /-- LANES. R53 (02); 3 bits -/
  lanes : Nat := 0
  /-- LINK_RATE. R53 (02); 3 bits -/
  rate : Nat := 0
  /-- BPC. R53 (02); 4 bits -/
  bpc : Nat := 0
  /-- INTERLACE. R53 (02); 1 bit -/
  interlace : Bool := false
  /-- HSYNC positive. R53 (02); 1 bit -/
  hpos : Bool := false
  /-- VSYNC positive. R53 (02); 1 bit -/
  vpos : Bool := false
  /-- analog sync. R101 (04); 2 bits -/
  sync : Nat := 0
  /-- LATE_LATCH. R111 (04); 1 bit -/
  late : Bool := false
  /-- MEM_COMPAT. R119 (04); 1 bit -/
  compat : Bool := false
  /-- COLOUR. R100 (04); 2 bits -/
  colour : Nat := 0
  /-- LATCH_LINE. R111 (04); 16 bits -/
  latchLine : Nat := 0xFFFF
  /-- LAT_TOL_NS. R89 (03); 32 bits -/
  latTol : Nat := 0
  deriving DecidableEq, Repr, Inhabited

/-- The output states of a port (R102). -/
inductive Link where
  | off | black | training | running
  deriving DecidableEq, Repr, Inhabited

/-- The timing generator and the port controller of a stage's beam port (R104, R109, R117). -/
structure Beam where
  /-- the timing in force. R109 (04) -/
  inForce : Timing := {}
  /-- the primary PORT_TIMING record. R110 (04) -/
  primary : Timing := {}
  /-- the fallback PORT_TIMING record, if any. R117 (04) -/
  fallback : Option Timing := none
  /-- 1 = the fallback has been tried. R117 (04); 1 bit -/
  fbTried : Bool := false
  /-- FALLBACK: the fallback timing is in force. R118 (04); 1 bit -/
  onFallback : Bool := false
  /-- a commit waiting for its latch instant (TIMING_STATUS.PENDING). R111 (04) -/
  pending : Option Timing := none
  /-- a timing committed at a latch, waiting for its frame boundary. R114 (04) -/
  waiting : Option Timing := none
  /-- a timing that the port controller itself applies at the next frame boundary, if none waits: the fallback's, or the
  primary one on return. R117 R118 (04) -/
  linkNext : Option Timing := none
  /-- RUN: raster running. R109 (04); 1 bit -/
  run : Bool := false
  /-- HOLD: raster held for a relock. R115 (04); 1 bit -/
  hold : Bool := false
  /-- LOCKED: pixel synthesizer locked. R109 (04); 1 bit -/
  locked : Bool := false
  /-- root tick of pixel 0 of the line being scanned. R104 R109 (04) -/
  lineAt : Nat := 0
  /-- the line being scanned. R7 R104 (04); 12 bits -/
  line : Nat := 0
  /-- the line whose pixel 0 comes next. R7 R104 (04); 13 bits -/
  nextLine : Nat := 0
  /-- FIELD. R106 (04); 1 bit -/
  field : Bool := false
  /-- the latch instant of this frame has passed. R111 (04); 1 bit -/
  latched : Bool := false
  /-- the class-2 state committed in this FAB cycle. R112 (04); 1 bit -/
  latchNow : Bool := false
  /-- BEAM_FRAME.COUNT. R109 (04); 32 bits -/
  frame : Word := 0
  /-- output state of DisplayPort or HDMI. R102 (04) -/
  digital : Link := .off
  /-- output state of the DACs. R102 (04) -/
  analog : Link := .off
  /-- LANES_NOW. R109 (04); 3 bits -/
  lanesNow : Nat := 0
  /-- RATE_NOW. R109 (04); 3 bits -/
  rateNow : Nat := 0
  /-- step of the link-loss procedure in progress: 0 none, 1 same lanes, 2 fewer lanes, 3 fallback, 4 gave up. R117 (04); 3 bits -/
  trainStep : Nat := 0
  /-- AUDIO_OFF: embedded audio cannot be carried. R121 (04); 1 bit -/
  audioOff : Bool := false
  /-- digital shows picture again from line 0 of the next frame. R114 (04); 1 bit -/
  showNext : Bool := false
  /-- HDMI relocks after a change of PIXCLK or OUTPUTS, and shows picture from line 0 of a frame. R114 (04); 1 bit -/
  fromLine0 : Bool := false
  /-- ports whose training or TMDS PLL has succeeded since the digital output started: PORT_A, PORT_B. R107 (04); 2 bits -/
  ready : BitVec 2 := 0
  deriving DecidableEq, Repr, Inhabited

/-- A composed layer pixel as a Facet hands it to the Prism (R125). -/
structure Pix where
  /-- not transparent. R125 (05); 1 bit -/
  on : Bool := false
  /-- index format. R125 (05); 1 bit -/
  isIdx : Bool := false
  /-- palette index. R125 R138 (05); 12 bits -/
  idx : Nat := 0
  /-- red. R125 R138 (05); 12 bits -/
  r : Nat := 0
  /-- green. R125 R138 (05); 12 bits -/
  g : Nat := 0
  /-- blue. R125 R138 (05); 12 bits -/
  b : Nat := 0
  /-- alpha. R125 R138 (05); 8 bits -/
  a : Nat := 0
  /-- BOOST of the pixel's tile. R125 R135 (05); 1 bit -/
  boost : Bool := false
  /-- counts as opaque for cover-stop. R141 (05); 1 bit -/
  cover : Bool := false
  deriving DecidableEq, Repr, Inhabited

/-- One pixel of a sprite plane's line buffer: its colour pixel and its shade mark (R154). -/
structure SprPix where
  /-- the colour pixel. R154 (06) -/
  pix : Pix := {}
  /-- ALPHA of the entry. R150 (06); 8 bits -/
  alpha : Nat := 0
  /-- PRI of the colour pixel. R154 (06); 6 bits -/
  pri : Nat := 0
  /-- BLEND of the colour pixel. R154 (06); 3 bits -/
  blend : Nat := 0
  /-- entry index of the colour pixel. R154 (06); 12 bits -/
  entry : Nat := 0
  /-- kind of the shade mark: 0 none, 1 shadow, 2 highlight. R154 (06); 2 bits -/
  shade : Nat := 0
  /-- PRI of the shade mark. R154 (06); 6 bits -/
  sPri : Nat := 0
  /-- entry index of the shade mark. R154 (06); 12 bits -/
  sEntry : Nat := 0
  deriving DecidableEq, Repr, Inhabited

/-- What a Drupe has to report of a line it drew (R161, R164). -/
structure SprRec where
  /-- sprite plane. R147 (06); 3 bits -/
  plane : Nat := 0
  /-- final R. R161 (06) -/
  cost : Nat := 0
  /-- hits drawn. R161 (06); 13 bits -/
  drawn : Nat := 0
  /-- hits dropped. R161 (06); 13 bits -/
  dropped : Nat := 0
  /-- the line overflowed. R161 R164 (06); 1 bit -/
  ovf : Bool := false
  deriving DecidableEq, Repr, Inhabited

/-- One line on its way through the line buffers: what was captured at its line-sample point
(R31, R127, R158, R181) and what the Facets and Drupes composed from it (R126, R154). -/
structure LineCtx where
  /-- the line composed. R126 (05); 12 bits -/
  y : Nat := 0
  /-- the class-1 state captured at the line-sample point. R127 R158 R181 (05, 06, 07) -/
  regs : Sparse Word := []
  /-- H_s(y) of each layer. R127 (05); 16 bits each -/
  hs : Sparse Nat := []
  /-- line buffer of each composed layer, position -64 first. R126 (05) -/
  layers : Sparse (List Pix) := []
  /-- line buffer of each composed sprite plane. R154 (06) -/
  sprites : Sparse (List SprPix) := []
  /-- LEFT, RIGHT of each window unit with SPAN = 1 for this line. R174 (07) -/
  spans : Sparse (Nat × Nat) := []
  /-- occluders chosen for the line, cover-stop. R186 (07) -/
  occl : List Nat := []
  /-- layer-segments stopped by cover-stop: layer, segment, half. R187 (07) -/
  stopped : List (Nat × Nat × Nat) := []
  /-- the conserved plane's candidates of this line, while STATE is 2. R189 (07); 64 bits each -/
  plane : List (BitVec 64) := []
  /-- records of the planes drawn on this line and not yet reported. R161 R164 (06) -/
  sprRecs : List SprRec := []
  deriving DecidableEq, Repr, Inhabited

/-- The captured half of a flip slot (R183). -/
structure FlipCap where
  /-- captured ADDR. R183 (07); 40 bits -/
  addr : Nat := 0
  /-- captured TARGET. R183 (07); 32 bits -/
  target : Word := 0
  /-- captured FENCE. R183 (07); 8 bits -/
  fence : Nat := 0
  /-- captured NOFENCE. R183 (07); 1 bit -/
  nofence : Bool := false
  deriving DecidableEq, Repr, Inhabited

/-- An output code triple as it leaves the Prism (R171, R198). -/
structure Rgb where
  /-- c0: red or Cr. R179 R198 (07); 10 bits -/
  c0 : Nat := 0
  /-- c1: green or Y. R179 R198 (07); 10 bits -/
  c1 : Nat := 0
  /-- c2: blue or Cb. R179 R198 (07); 10 bits -/
  c2 : Nat := 0
  deriving DecidableEq, Repr, Inhabited

/-- The running signature of one Rind region in one frame (R198). -/
structure RindRun where
  /-- CRC-32C so far, before the final XOR. R198 (07); 32 bits -/
  crc : Word := 0xFFFFFFFF
  /-- pixels fed in this frame. R198 (07) -/
  fed : Nat := 0
  /-- codes of the region mixed on this line, of the raster or of its left half in twin mode. R108 R198 (04, 07) -/
  cur : List Rgb := []
  /-- the same of the right half in twin mode. R108 R198 (04, 07) -/
  curR : List Rgb := []
  /-- the region has been mixed to its end and waits for the next segment boundary. R198 (07); 1 bit -/
  done : Bool := false
  /-- the region has been judged, or found not to be judged, in this frame. R198 (07); 1 bit -/
  judged : Bool := false
  deriving DecidableEq, Repr, Inhabited

/-- The Prism of a stage. -/
structure Prism where
  /-- the line of the next segment boundary. R35 R181 (01, 07); 12 bits -/
  mixLine : Nat := 0
  /-- the index of the next segment of that line. R34 (01) -/
  mixSeg : Nat := 0
  /-- the class-0 snapshot of the last segment boundary. R35 R181 (01, 07) -/
  segSnap : Sparse Word := []
  /-- H of each layer at the boundary of segment 0 of the line being mixed. R127 (05) -/
  hStart : Sparse Nat := []
  /-- the line being composed. R126 (05) -/
  comp : Option LineCtx := none
  /-- the line being mixed. R126 (05) -/
  mix : Option LineCtx := none
  /-- sources suppressed by underrun to the end of the frame. R120 (04); 24 bits -/
  suppressed : BitVec 24 := 0
  /-- sources blanked by a unit fault. R377 (16); 24 bits -/
  faulted : BitVec 24 := 0
  /-- the codes of the last mixed segment. R171 (07) -/
  out : List Rgb := []
  /-- ARMED of the flip slots. R183 (07); 24 bits -/
  armed : BitVec 24 := 0
  /-- captures of the flip slots. R183 (07) -/
  caps : Sparse FlipCap := []
  /-- CONS_STATUS.STATE. R191 (07); 2 bits -/
  consState : Nat := 0
  /-- a watch has fired since the last switch point. R191 (07); 1 bit -/
  consFired : Bool := false
  /-- the running signatures. R198 (07) -/
  rind : Sparse RindRun := []
  /-- regions whose blank takes effect at the next segment boundary. R199 (07); 8 bits -/
  blankNext : BitVec 8 := 0
  /-- BLANKED. R199 (07); 8 bits -/
  blanked : BitVec 8 := 0
  /-- blanked regions whose signature has matched since. R199 (07); 8 bits -/
  matched : BitVec 8 := 0
  /-- a freeze takes effect at the next segment boundary. R199 (07); 1 bit -/
  freezeNext : Bool := false
  /-- FROZEN. R199 (07); 1 bit -/
  frozen : Bool := false
  /-- sources rebound by repair and not yet shown again. R383 (16); 24 bits -/
  resuming : BitVec 24 := 0
  /-- the unit has failed: black from the next segment boundary. R377 (16); 1 bit -/
  dead : Bool := false
  deriving DecidableEq, Repr, Inhabited

/-- A write of a Chord on its way to its register (R207), or a fence signal on its way (R212). -/
structure ChordWrite where
  /-- the FAB cycle of arrival. R207 R212 (08) -/
  due : Nat := 0
  /-- stage-window offset, or the fence number. R205 (08); 22 bits -/
  off : Nat := 0
  /-- value. R205 (08); 32 bits -/
  val : Word := 0
  /-- bits written. R210 (08); 32 bits -/
  mask : Word := 0
  /-- 1 = a fence signal, with `mask` all ones for ADD. R212 (08); 1 bit -/
  isFence : Bool := false
  deriving DecidableEq, Repr, Inhabited

/-- Sixteen reflex entries, or fewer, fired in one FAB cycle and not yet delivered (R217). -/
structure ReflexGroup where
  /-- the FAB cycle of the edge. R217 (08) -/
  edge : Nat := 0
  /-- the FAB cycle of delivery. R217 (08) -/
  due : Nat := 0
  /-- the entries by ascending number, and their writes. R216 R217 (08) -/
  entries : List (Nat × List ChordWrite) := []
  deriving DecidableEq, Repr, Inhabited

/-- The Chord of a stage. -/
structure Chord where
  /-- the program store: 2048 instructions; words beyond the list read END. R202 (08); 64 bits each -/
  store : List Word64 := []
  /-- RUNNING. R206 (08); 1 bit -/
  running : Bool := false
  /-- a reload is in progress. R202 (08); 1 bit -/
  reloading : Bool := false
  /-- PC. R206 (08); 11 bits -/
  pc : Nat := 0
  /-- active loop counters and their counts. R211 (08); 4 counters -/
  ctrs : Sparse Nat := []
  /-- target line of the last WAIT of this program frame, or the latch line. R206 (08); 12 bits -/
  prevLine : Nat := 0
  /-- the WAIT in progress: LINE, PIXEL. R206 (08) -/
  waiting : Option (Nat × Nat) := none
  /-- the WAIT in progress is never due. R206 (08); 1 bit -/
  never : Bool := false
  /-- writes and fence signals on their way. R207 R212 (08) -/
  flight : List ChordWrite := []
  /-- stage-window offsets Chord writes reached in this FAB cycle. R218 (08) -/
  arrived : List Nat := []
  /-- registers that a flip or a reflex can meet, written by others in this FAB cycle, and what they held before. R146
  R168 R218 (05, 06, 08) -/
  others : List (Nat × Word) := []
  /-- registers flipped in this FAB cycle. R146 R168 (05, 06) -/
  flips : List Nat := []
  /-- the latch line this program frame began at. R203 R206 (08); 12 bits -/
  latch : Nat := 0
  /-- the field this program frame began in. R106 R203 (04, 08); 1 bit -/
  latchField : Bool := false
  /-- reflex writes fired and not yet delivered, a rank of 16 entries each. R217 (08) -/
  reflex : List ReflexGroup := []
  /-- CHORD_LOST.WORD. R218 (08); 20 bits -/
  lost : Nat := 0
  /-- CHORD_LEAD.ML. R201 (08); 8 bits -/
  lead : Nat := 0
  /-- stopped by a fault of the unit. R377 (16); 1 bit -/
  faulted : Bool := false
  /-- quick-input edges recorded while the unit is faulted. R383 (16) -/
  edges : List (Nat × Bool) := []
  deriving DecidableEq, Repr, Inhabited

/-- A gain as a ramp holds it: decibels, or mute (R242, R243). -/
structure Gain where
  /-- tenths of a decibel. R242 (09) -/
  db : Rat := 0
  /-- mute. R242 (09); 1 bit -/
  mute : Bool := false
  deriving DecidableEq, Repr, Inhabited

/-- A target that a cross-ramp is leaving (R243). -/
structure RampOut where
  /-- the old target bus, pair or destination. R243 (09) -/
  dst : Nat := 31
  /-- gain at the change. R243 (09) -/
  g0 : Gain := {}
  /-- samples of the ramp done. R243 (09) -/
  t : Nat := 0
  /-- ramp length in samples. R243 (09) -/
  len : Nat := 0
  deriving DecidableEq, Repr, Inhabited

/-- A bus-class value under way (R243). -/
structure Ramp where
  /-- start gain. R243 (09) -/
  g0 : Gain := {}
  /-- target gain. R243 (09) -/
  g1 : Gain := {}
  /-- samples of the ramp done. R243 (09) -/
  t : Nat := 0
  /-- ramp length in samples, 0 = at the target. R243 (09) -/
  len : Nat := 0
  /-- the target bus, pair or destination. R243 (09) -/
  dst : Nat := 31
  /-- the targets still ramping out. R243 (09) -/
  out : List RampOut := []
  deriving DecidableEq, Repr, Inhabited

/-- The stages of an envelope (R231). -/
inductive EnvStage where
  | idle | attack | decay | release
  deriving DecidableEq, Repr, Inhabited

/-- An envelope: its stage and level (R231). -/
structure Env where
  /-- the stage. R231 (09); 2 bits -/
  stage : EnvStage := .idle
  /-- amplitude in attack, 0 to 1 of full scale. R231 (09) -/
  amp : Rat := 0
  /-- level in decay and release, in dB. R231 (09) -/
  db : Rat := 0
  deriving DecidableEq, Repr, Inhabited

/-- The dynamic state of a voice (R230-R237, R244). -/
structure Voice where
  /-- GATE of the last block. R230 (09); 1 bit -/
  gate : Bool := false
  /-- phase. R230 (09); 32 bits -/
  phase : Word := 0
  /-- operator phases. R233 (09); 32 bits each -/
  opPhase : List Word := [0, 0, 0, 0]
  /-- operator 3's output of the previous sample, as a fraction of full scale. R233 (09) -/
  fb : Rat := 0
  /-- noise register. R232 (09); 18 bits -/
  lfsr : BitVec 18 := 0
  /-- pitch LFO phase, in cycles. R231 (09) -/
  lfoP : Rat := 0
  /-- amplitude LFO phase, in cycles. R231 (09) -/
  lfoA : Rat := 0
  /-- voice envelope. R231 (09) -/
  env : Env := {}
  /-- operator envelopes. R233 (09) -/
  opEnv : List Env := [{}, {}, {}, {}]
  /-- sample position, 32.16. R235 (09); 48 bits -/
  pos : Nat := 0
  /-- IMA ADPCM predictor. R235 (09); 16 bits -/
  pred : Int := 0
  /-- IMA ADPCM step index. R235 (09); 7 bits -/
  stepIdx : Nat := 0
  /-- sample the ADPCM state stands at. R235 (09) -/
  adpcmAt : Nat := 0
  /-- STREAM of the last block. R230 (09); 1 bit -/
  stream : Bool := false
  /-- FILL. R237 (09); 25 bits -/
  fill : Nat := 0
  /-- bytes consumed in stream mode. R237 (09); 32 bits -/
  consumed : Nat := 0
  /-- rung since FILL last rose above LOWAT. R237 (09); 1 bit -/
  rung : Bool := false
  /-- ENDED play: the generator outputs 0. R235 (09); 1 bit -/
  ended : Bool := false
  /-- VOICE_LEVEL in force. R244 (09); 32 bits -/
  level : Word := 0
  /-- PAN in force. R244 (09); 9 bits -/
  pan : Nat := 128
  /-- PENDING: voice-class changes wait for their step. R244 (09); 1 bit -/
  pend : Bool := false
  /-- samples since the boundary of the pending step. R244 (09) -/
  pendT : Nat := 0
  /-- STEP_TO. R244 (09); 1 bit -/
  stepTo : Bool := false
  /-- sign of the last sample after the envelope. R244 (09) -/
  lastS : Int := 0
  /-- the 16 samples of the block after the envelope. R224 R230 (09); 24 bits each -/
  blk : List Int := []
  /-- sample of the block at which the pending step is taken. R244 (09) -/
  stepAt : Option Nat := none
  /-- that step is taken at the timeout. R244 (09); 1 bit -/
  stepLate : Bool := false
  /-- SHORT of the last block. R232 (09); 1 bit -/
  short : Bool := false
  deriving DecidableEq, Repr, Inhabited

/-- The dynamic state of an effect unit (R239): what it holds and the memory it has written.
[log 123 DESIGN CHOICE] -/
structure Fx where
  /-- TYPE and buffer in force. R239 (09) -/
  cfg : List Word := []
  /-- delay: samples written since the change of TYPE or buffer, left and right, newest first. R239 (09) -/
  hist : List (Rat × Rat) := []
  /-- reverb and EQ: the lines of the filters, newest value first. R239 (09) -/
  filt : List (List Rat) := []
  /-- samples done since the change. R239 (09) -/
  n : Nat := 0
  deriving DecidableEq, Repr, Inhabited

/-- The limiter of an output pair (R240). -/
structure Limiter where
  /-- LOOK in force. R240 (09); 7 bits -/
  look : Nat := 0
  /-- samples waiting in the look-ahead. R240 (09) -/
  delay : List (Rat × Rat) := []
  /-- the gain of the last sample. R240 (09) -/
  g : Rat := 1
  deriving DecidableEq, Repr, Inhabited

/-- The sound of a stage. -/
structure Sound where
  /-- sound started. R225 (09); 1 bit -/
  started : Bool := false
  /-- MUTED. R247 (09); 1 bit -/
  muted : Bool := false
  /-- samples of a stop ramp done, if one runs. R247 (09) -/
  stopRamp : Option Nat := none
  /-- UNLOCKED. R227 (09); 1 bit -/
  unlocked : Bool := false
  /-- HALVED: held voices of ATTRACT. R250 (09); 1 bit -/
  halved : Bool := false
  /-- rate in force in mHz, exactly. R227 (09) -/
  rate : Rat := 48000000
  /-- LOAD_RATE in mHz, exactly. R227 (09) -/
  loadRate : Rat := 48000000
  /-- beam-locked accumulator: the value it would have at the last pixel of this line, were no strobe issued in the line.
  R223 (09) -/
  acc : Int := 0
  /-- root tick of the last strobe. R228 (09) -/
  lastAt : Nat := 0
  /-- strobes since sound start. R223 (09) -/
  strobe : Nat := 0
  /-- block boundaries since sound start; SND_BLOCK.COUNT is one less. R224 R251 (09) -/
  blocks : Nat := 0
  /-- the sound fields in force since the last block boundary. R224 R226 (09) -/
  snap : Sparse Word := []
  /-- voices. R230 (09) -/
  voices : Sparse Voice := []
  /-- the Bramble entries at the last block boundary. R249 (09) -/
  entries : List BindEntry := []
  /-- clusters whose voices a fault silences. R377 (16); 4 bits -/
  faulted : BitVec 4 := 0
  /-- bus gain, send and output-pair ramps and route ramps, by register offset. R243 (09) -/
  ramps : Sparse Ramp := []
  /-- effect units. R239 (09) -/
  fx : Sparse Fx := []
  /-- limiters of the output pairs. R240 (09) -/
  lim : Sparse Limiter := []
  /-- output samples mixed and not yet put out, 16 strobes: left and right of each destination slot. R224 (09) -/
  queue : List (List (Nat × Int × Int)) := []
  /-- the sample that left the mixer at the last strobe. R245 (09) -/
  out : List (Nat × Int × Int) := []
  /-- the samples that left it at the two strobes before. R246 (09) -/
  past : List (List (Nat × Int × Int)) := []
  /-- the sample that begins at the pins at the last strobe: left and right of each destination slot. R241 R246 (09) -/
  pins : List (Nat × Int × Int) := []
  /-- SND_FIRST.VOICE. R251 (09); 10 bits -/
  first : Nat := 0
  deriving DecidableEq, Repr, Inhabited

/-- A window of a Pip's window map (R38). -/
structure Window where
  /-- VALID. R38 (01); 1 bit -/
  valid : Bool := false
  /-- BASE. R38 (01); 40 bits -/
  base : Nat := 0
  /-- size in MiB. R38 (01); 9 bits -/
  mib : Nat := 0
  /-- read. R38 (01); 1 bit -/
  r : Bool := false
  /-- write. R38 (01); 1 bit -/
  w : Bool := false
  /-- execute. R38 (01); 1 bit -/
  x : Bool := false
  /-- cacheable. R38 (01); 1 bit -/
  c : Bool := false
  deriving DecidableEq, Repr, Inhabited

/-- One memory segment of a stage's partitions (R54). -/
structure Seg where
  /-- SEG index. R54 (02); 4 bits -/
  idx : Nat := 0
  /-- BASE. R54 (02); 40 bits -/
  base : Nat := 0
  /-- SIZE in bytes. R54 (02) -/
  size : Nat := 0
  deriving DecidableEq, Repr, Inhabited

/-- One shed step of a POLICY stage part (R52). -/
structure ShedStep where
  /-- ACTION. R52 (02); 8 bits -/
  action : Nat := 0
  /-- LINDEX. R52 (02); 8 bits -/
  lindex : Nat := 0
  /-- VOICES. R52 (02); 16 bits -/
  voices : Nat := 0
  /-- the step has been used. R52 (02); 1 bit -/
  used : Bool := false
  deriving DecidableEq, Repr, Inhabited

/-- PIP_CODE of a logical Pip (R60). -/
structure PipCode where
  /-- ENTRY. R60 (02); 32 bits -/
  entry : Word := 0
  /-- STACK. R60 (02); 32 bits -/
  stack : Word := 0
  /-- FMODE. R60 (02); 1 bit -/
  fmode : Bool := false
  deriving DecidableEq, Repr, Inhabited

/-- What a stage slot is doing (R71, R74, R102). -/
inductive StageRun where
  | empty | loaded | running | stopped
  deriving DecidableEq, Repr, Inhabited

/-- The Press of a stage: the operation in progress (R354-R362). -/
structure Press where
  /-- BUSY. R354 (14); 1 bit -/
  busy : Bool := false
  /-- the parameters captured at START. R354 (14) -/
  par : Sparse Word := []
  /-- rows completed. R358 (14); 14 bits -/
  rows : Nat := 0
  /-- DIRX. R360 (14); 1 bit -/
  dirx : Bool := false
  /-- DIRY. R360 (14); 1 bit -/
  diry : Bool := false
  /-- waiting out the dead time of a burst. R356 (14); 1 bit -/
  dead : Bool := false
  /-- the watermark has fired in this operation. R358 (14); 1 bit -/
  wmFired : Bool := false
  /-- the pattern read at START. R352 (14) -/
  pattern : List Byte := []
  /-- code of the last operation. R362 (14); 8 bits -/
  code : Nat := 0
  /-- stopped by a fault of the unit. R377 (16); 1 bit -/
  faulted : Bool := false
  deriving DecidableEq, Repr, Inhabited

/-- What has happened at a stage in the present FAB cycle; the next idle step begins a new cycle. -/
structure Cycle where
  /-- MEM_STATUS has captured an access in this cycle. R92 (03); 1 bit -/
  cap : Bool := false
  /-- sprite overflows recorded in this cycle: plane, hits dropped. R164 (06) -/
  spr : List (Nat × Nat) := []
  /-- planes whose OVF was cleared in this cycle. R164 (06) -/
  clr : List Nat := []
  /-- what the fences signalled in this cycle held before it. R182 (07) -/
  fence0 : List (Nat × Word) := []
  /-- the signals of this cycle, in the order they apply: rank of the sender, fence, add, value. R182 (07) -/
  fences : List (Nat × Nat × Bool × Word) := []
  /-- quick inputs whose counter has counted an edge in this cycle. R215 (08) -/
  qi : List Nat := []
  /-- quick-input edges of this cycle. R217 (08) -/
  edges : List (Nat × Bool) := []
  /-- reflex entries that ONESHOT has disarmed in this cycle. R217 (08) -/
  shot : List Nat := []
  /-- flip slots whose MISS bit was set in this cycle. R185 (07); 24 bits -/
  miss : BitVec 24 := 0
  deriving DecidableEq, Repr, Inhabited

/-- A stage.
[log 1 DESIGN CHOICE] -/
structure Stage where
  /-- the stage-window registers, by offset. R18 R109 R130 R163 R180 R206 R229 (01, 04-09, 14); 32 bits each -/
  regs : Sparse Word := []
  /-- staged high parts, keyed by the offset of their `_LO` register. R130 (05); 32 bits each -/
  hi : Sparse Word := []
  /-- the class-2 state in force since the last latch instant. R111 (04) -/
  latch : Sparse Word := []
  /-- what the slot is doing. R71 R74 (02) -/
  phase : StageRun := .empty
  /-- LOADED. R20 (01); 1 bit -/
  loaded : Bool := false
  /-- TWIN. R20 (01); 1 bit -/
  twin : Bool := false
  /-- PORT_A. R20 (01); 2 bits -/
  portA : Nat := 0
  /-- PORT_B. R20 (01); 2 bits -/
  portB : Nat := 0
  /-- the binding table: 0-15 layers, 16-23 sprites, 24 Prism, 25 Chord, 26 Press, 27-34 Pips, 35-38 Bramble. R20 (01) -/
  binds : Sparse BindEntry := []
  /-- BIND_GEN. R20 (01); 32 bits -/
  bindGen : Word := 0
  /-- binding index of the unit being rebound, if any (HELD). R23 (01) -/
  held : List Nat := []
  /-- accesses held by a rebind: offset, value, mask, initiator, in order. R23 (01) -/
  heldWrites : List (Nat × Word × Word × Initiator) := []
  /-- the timer channels held. R452 (02) -/
  timers : List Nat := []
  /-- the segments of the partitions. R54 (02) -/
  segs : List Seg := []
  /-- window maps of the logical Pips. R38 (01) -/
  windows : Sparse (List Window) := []
  /-- PIP_CODE of the logical Pips. R60 (02) -/
  pipCode : Sparse PipCode := []
  /-- ORCH_SLOTS per Sector. R82 (03); 6 bits each -/
  slots : List Nat := [0, 0, 0, 0]
  /-- Orchard bank positions held: Sector, cycle, bank. R82 (03) -/
  slotPos : List (Nat × Nat × Nat) := []
  /-- LP5X_WEIGHT. R88 (03); 8 bits -/
  lpxWeight : Nat := 0
  /-- QI_OWN. R57 (02); 64 bits -/
  qiOwn : BitVec 64 := 0
  /-- GO_OWN. R57 (02); 32 bits -/
  goOwn : BitVec 32 := 0
  /-- the shed list. R52 (02) -/
  shedList : List ShedStep := []
  /-- voices shed since the load. R249 R387 (09, 16); 11 bits -/
  shedVoices : Nat := 0
  /-- AUDIO_ROUTE: RATE. R223 (09); 2 bits -/
  rateCode : Nat := 0
  /-- LOCK_NUM. R223 (09); 16 bits -/
  lockNum : Nat := 0
  /-- LOCK_DEN. R223 (09); 16 bits -/
  lockDen : Nat := 0
  /-- destinations the AUDIO_ROUTE record names. R238 (09) -/
  dests : List Nat := []
  /-- Spoke drops claimed: bus, drop, POLLED. R57 (02) -/
  drops : List (Nat × Nat × Bool) := []
  /-- logical Pips restarted since, and registers of the beam block that live here. R109 (04) -/
  beam : Beam := {}
  /-- the Prism. R171 (07) -/
  prism : Prism := {}
  /-- the Chord. R205 (08) -/
  chord : Chord := {}
  /-- the sound. R222 (09) -/
  sound : Sound := {}
  /-- the Press. R354 (14) -/
  press : Press := {}
  /-- what has happened in this FAB cycle. R8 (00) -/
  cyc : Cycle := {}
  /-- a stop of mode entry is asked for at the next latch instant. R399 (17); 1 bit -/
  stopReq : Bool := false
  /-- a restart at the next latch instant is due. R400 R403 (17); 1 bit -/
  restart : Bool := false
  deriving DecidableEq, Repr, Inhabited

/-- An address unit of a Pip (R252, R255). -/
structure AddrUnit where
  /-- BASE. R255 (10); 32 bits -/
  base : Word := 0
  /-- INDEX. R255 (10); 32 bits -/
  index : Word := 0
  /-- STEP. R255 (10); 32 bits -/
  step : Word := 0
  /-- CFG. R255 (10); 32 bits -/
  cfg : Word := 0
  deriving DecidableEq, Repr, Inhabited

/-- A frame of the context stack (R289). -/
structure Frame where
  /-- EPC. R289 (11); 32 bits -/
  epc : Word := 0
  /-- ESTATUS as saved: STATUS bits and q1-q7 at 18:12. R290 (11); 32 bits -/
  estatus : Word := 0
  /-- the saved REPCNT. R289 (11); 32 bits -/
  repcnt : Word := 0
  deriving DecidableEq, Repr, Inhabited

/-- A data-cache line (R280). -/
structure CacheLine where
  /-- the 32 bytes. R280 (11) -/
  bytes : List Byte := []
  /-- one dirty bit per byte. R280 (11); 32 bits -/
  dirty : BitVec 32 := 0
  deriving DecidableEq, Repr, Inhabited

/-- A write-buffer entry: one aligned 32-byte word with a byte mask (R281). -/
structure WbEntry where
  /-- device address of the 32-byte word. R281 (11); 40 bits -/
  addr : Nat := 0
  /-- the bytes. R281 (11) -/
  bytes : List Byte := []
  /-- the byte mask. R281 (11); 32 bits -/
  mask : BitVec 32 := 0
  /-- an entry for a register range, never merged. R281 (11); 1 bit -/
  isReg : Bool := false
  deriving DecidableEq, Repr, Inhabited

/-- A load whose data has not returned (R276). -/
structure PendLoad where
  /-- Pip address. R276 (11); 32 bits -/
  va : Word := 0
  /-- device address. R276 (11); 40 bits -/
  pa : Nat := 0
  /-- destination register. R266 (10); 5 bits -/
  rd : Nat := 0
  /-- size in bytes. R266 (10) -/
  size : Nat := 4
  /-- sign-extend. R266 (10); 1 bit -/
  signed : Bool := false
  /-- a line fill of the data cache. R280 (11); 1 bit -/
  fill : Bool := false
  /-- address unit to step after the access. R268 (10) -/
  upd : Option Nat := none
  /-- the data of a store that waits for its line fill. R280 (11); 32 bits -/
  data : Option Word := none
  deriving DecidableEq, Repr, Inhabited

/-- What a core is doing (R294, R295, R296). -/
inductive CoreRun where
  | stopped | running | waiting | retention | halted
  deriving DecidableEq, Repr, Inhabited

/-- A Pip's checkpoint (R380). -/
structure Ckpt where
  /-- g0-g31. R380 (16); 32 bits each -/
  gpr : Vector Word 32 := Vector.replicate 32 0
  /-- q0-q7. R380 (16); 8 bits -/
  pred : BitVec 8 := 1
  /-- lc. R380 (16); 32 bits -/
  lc : Word := 0
  /-- address units. R380 (16) -/
  au : Vector AddrUnit 4 := Vector.replicate 4 {}
  /-- PC of the next instruction. R380 (16); 32 bits -/
  pc : Word := 0
  /-- STATUS. R380 (16); 32 bits -/
  status : Word := 1
  /-- REPCNT. R380 (16); 32 bits -/
  repcnt : Word := 0
  /-- the context stack. R380 (16) -/
  frames : List Frame := []
  /-- ECAUSE. R380 (16); 32 bits -/
  ecause : Word := 0
  /-- EADDR. R380 (16); 32 bits -/
  eaddr : Word := 0
  /-- VBASE. R380 (16); 32 bits -/
  vbase : Word := 0
  /-- the seed. R380 (16); 64 KiB -/
  seed : Sparse Byte := []
  deriving DecidableEq, Repr, Inhabited

/-- A core: a Pip, or a Warden for what R297 says it shares with a Pip.
[log 1 DESIGN CHOICE] -/
structure Core where
  /-- what the core is doing. R294 R296 (11) -/
  run : CoreRun := .stopped
  /-- g0-g31. R252 (10); 32 bits each -/
  gpr : Vector Word 32 := Vector.replicate 32 0
  /-- q0-q7, bit i is qi. R252 R255 (10); 8 bits -/
  pred : BitVec 8 := 1
  /-- lc. R252 (10); 32 bits -/
  lc : Word := 0
  /-- address units a0-a3. R252 (10) -/
  au : Vector AddrUnit 4 := Vector.replicate 4 {}
  /-- PC. R252 (10); 32 bits -/
  pc : Word := 0
  /-- STATUS. R255 (10); 32 bits; S = 1 -/
  status : Word := 1
  /-- REPCNT. R252 (10); 32 bits -/
  repcnt : Word := 0
  /-- a `rep` has been decoded and its first iteration has not run. R271 (10); 1 bit -/
  repNew : Bool := false
  /-- the context stack, top first, at most 8 frames. R289 (11) -/
  frames : List Frame := []
  /-- EPC while the stack is empty. R290 (11); 32 bits -/
  epc : Word := 0
  /-- ESTATUS while the stack is empty. R290 (11); 32 bits; S = 1 -/
  estatus : Word := 1
  /-- ECAUSE. R290 (11); 32 bits -/
  ecause : Word := 0
  /-- EADDR. R290 (11); 32 bits -/
  eaddr : Word := 0
  /-- VBASE. R290 (11); 32 bits -/
  vbase : Word := 0
  /-- CYCLE. R255 (10); 64 bits -/
  cycle : BitVec 64 := 0
  /-- the captured high half of CYCLE. R255 (10); 32 bits -/
  cycleHi : Word := 0
  /-- RETIRED. R255 (10); 32 bits -/
  retired : Word := 0
  /-- data-cache lines by device address of the line. R280 (11) -/
  dcache : Sparse CacheLine := []
  /-- Pip addresses of the instruction-cache lines held. R283 (11) -/
  icache : List Nat := []
  /-- Pip address of the line in the one-line fetch buffer of an uncached window. R283 (11) -/
  fetchBuf : Option Nat := none
  /-- the write buffer, oldest first, at most 8 entries. R281 (11) -/
  wbuf : List WbEntry := []
  /-- the load whose data has not returned. R276 (11) -/
  pend : Option PendLoad := none
  /-- `fence.w` holds issue until the drain ends. R284 (11); 1 bit -/
  fencing : Bool := false
  /-- a TAKE store has not retired. R380 (16); 1 bit -/
  taking : Bool := false
  /-- the address unit that the TAKE store steps when it retires. R268 R380 (10, 16) -/
  takeUnit : Option Nat := none
  /-- the CYCLE value from which a result still on its way can be used, by general register or, as 32, the flags N and Z.
  R276 (11) -/
  late : Sparse Nat := []
  /-- the seed scratchpad. R277 (11); 64 KiB -/
  seed : Sparse Byte := []
  /-- the checkpoint. R380 (16) -/
  ckpt : Ckpt := {}
  /-- stopped for a mode entry at an instruction boundary. R399 (17); 1 bit -/
  parked : Bool := false
  deriving DecidableEq, Repr, Inhabited

/-- The router's state of one source (R301-R305). -/
structure Irq where
  /-- PENDING. R301 (12); 1 bit -/
  pending : Bool := false
  /-- ACTIVE. R302 (12); 1 bit -/
  active : Bool := false
  /-- ACC_TGT. R302 (12); 5 bits -/
  accTgt : Nat := 31
  /-- E, events since the last acceptance. R305 (12) -/
  events : Nat := 0
  /-- t_a in PERI cycles. R305 (12) -/
  ta : Nat := 0
  /-- t_1 in PERI cycles. R305 (12) -/
  t1 : Nat := 0
  /-- the input as last sampled. R301 (12); 1 bit -/
  input : Bool := false
  /-- an event of a source that has no status bit, not yet accepted. R300 R418 (12, 18); 1 bit -/
  pulse : Bool := false
  deriving DecidableEq, Repr, Inhabited

/-- The states of a mailbox (R314). -/
inductive MbState where
  | idle | claimed | posted | done
  deriving DecidableEq, Repr, Inhabited

/-- A mailbox (R314-R317).
[log 29 DESIGN CHOICE] -/
structure Mailbox where
  /-- STATE. R314 (12); 2 bits -/
  state : MbState := .idle
  /-- SENDER. R314 (12); 5 bits -/
  sender : Nat := 0
  /-- priority of the acknowledgement source. R314 (12); 3 bits -/
  ackPri : Nat := 0
  /-- COUNT of the message words. R317 (12); 4 bits -/
  count : Nat := 1
  /-- MB_MSG0-7. R317 (12); 32 bits each -/
  msg : Vector Word 8 := Vector.replicate 8 0
  /-- MB_REPLY0-7. R317 (12); 32 bits each -/
  reply : Vector Word 8 := Vector.replicate 8 0
  /-- MB_RESULT. R317 (12); 32 bits -/
  result : Word := 0
  /-- MB_POSTED. R317 (12); 32 bits -/
  posted : Word := 0
  /-- MB_ERR: 3 LAPSED, 2 ABANDONED, 1 BAD_STATE, 0 WRONG_WRITER. R317 (12); 4 bits -/
  err : BitVec 4 := 0
  /-- a host claim has been refused since the mailbox last became IDLE. R315 (12); 1 bit -/
  hostRefused : Bool := false
  deriving DecidableEq, Repr, Inhabited

/-- A piece of a run at the drives that one command moves (R341, R342). -/
structure Piece where
  /-- the drive. R342 (13); 0-1 -/
  drive : Nat := 0
  /-- its first block, counted in the run. R341 (13) -/
  start : Nat := 0
  /-- its blocks. R341 (13) -/
  n : Nat := 0
  /-- its first LBA on the drive. R342 (13) -/
  lba : Nat := 0
  deriving DecidableEq, Repr, Inhabited

/-- A Vine channel (R327, R332-R338). -/
structure VChan where
  /-- RUN. R338 (13); 1 bit -/
  run : Bool := false
  /-- BUSY. R338 (13); 1 bit -/
  busy : Bool := false
  /-- address of the descriptor in progress or last stopped (CHAN_CUR). R338 (13); 40 bits -/
  cur : Nat := 0
  /-- CHAN_CUR_HI as captured by a read of CHAN_CUR. R338 (13); 8 bits -/
  curHi : Nat := 0
  /-- the ring entry in service: local ring number and entry index. R332 (13) -/
  ring : Option (Nat × Nat) := none
  /-- local ring number last served, for round robin. R332 (13) -/
  lastRing : Nat := 0
  /-- CODE of the last stop. R336 (13); 8 bits -/
  code : Nat := 0
  /-- CHAN_RESID. R337 (13); 32 bits -/
  resid : Word := 0
  /-- the descriptor in progress, as fetched. R323 (13); 4 words of 64 bits -/
  desc : List Word64 := []
  /-- the next descriptor of the list in service, while the channel is parked. R327 R399 (13, 17); 40 bits -/
  next : Option Nat := none
  /-- NVMe commands of the descriptor not yet issued. R341 (13) -/
  todo : List Piece := []
  /-- finish the descriptor and start no other (mode entry). R399 (17); 1 bit -/
  park : Bool := false
  deriving DecidableEq, Repr, Inhabited

/-- A ring context in the context cache (R329, R331). -/
structure RingCtx where
  /-- BASE. R329 (13); 40 bits -/
  base : Nat := 0
  /-- LOG2SIZE. R329 (13); 8 bits -/
  log2 : Nat := 0
  /-- CHANNEL. R329 (13); 8 bits -/
  chan : Nat := 0
  /-- ENABLE. R329 (13); 1 bit -/
  enable : Bool := false
  /-- TAIL. R329 (13); 32 bits -/
  tail : Word := 0
  /-- HEAD. R329 (13); 32 bits -/
  head : Word := 0
  /-- ERRORS. R329 (13); 32 bits -/
  errors : Word := 0
  /-- LAST_CODE. R329 (13); 8 bits -/
  lastCode : Nat := 0
  /-- when last used. R331 (13) -/
  used : Nat := 0
  /-- dropped once unpinned (GRP_SYNC). R331 (13); 1 bit -/
  sync : Bool := false
  deriving DecidableEq, Repr, Inhabited

/-- A command out at a drive (R344, R346, R349): the Ledger's; a channel's, by the first block of its run, its blocks and its
first LBA; a Flush; a Read of the load engine, by its blocks and first LBA (R343); or a command of a group whose channel has
stopped since (R338). -/
inductive NvmeCmd where
  | ledgerWrite (seq : Nat) (lba : Nat)
  | ledgerFlush (seq : Nat)
  | storeRead (c start n lba : Nat)
  | storeWrite (c start n lba : Nat)
  | storeTrim (c start n lba : Nat)
  | commitFlush (c : Nat)
  | loadRead (n lba : Nat)
  | stale (g : Nat) (write : Bool)
  | pfwFlush
  | modeFlush
  deriving DecidableEq, Repr

/-- A drive behind a root port (R340, R341). -/
structure Drive where
  /-- STATE: 0 absent, 1 starting, 2 ready, 3 failed, 4 unsupported, 5 Ledger scan. R348 (13); 3 bits -/
  state : Nat := 0
  /-- capacity in 4 KiB blocks. R342 (13) -/
  blocks : Nat := 0
  /-- LBA data size in bytes. R340 R342 (13) -/
  lbaBytes : Nat := 4096
  /-- PAIRS granted. R348 (13); 5 bits -/
  pairs : Nat := 0
  /-- commands out. R341 (13) -/
  out : List NvmeCmd := []
  deriving DecidableEq, Repr, Inhabited

/-- A Ledger record accepted and not yet acknowledged (R345). -/
structure LedgerRec where
  /-- SOURCE: group 0-4. R346 (13); 3 bits -/
  src : Nat := 0
  /-- the source's LDG_SUBMITTED value. R346 (13); 32 bits -/
  num : Word := 0
  /-- the data bytes, 1-256. R345 (13) -/
  data : List Byte := []
  deriving DecidableEq, Repr, Inhabited

/-- The queue manager and the Ledger (R340-R349). -/
structure Store where
  /-- drives of PE0 and PE1. R340 (13) -/
  drives : Vector Drive 2 := Vector.replicate 2 {}
  /-- STRIPE in force. R342 (13); 1 bit -/
  stripe : Bool := false
  /-- PFW_N asserted. R349 (13); 1 bit -/
  pfw : Bool := false
  /-- PFW_N has been asserted in this FAB cycle. R345 (13); 1 bit -/
  pfwNow : Bool := false
  /-- channels with commands to issue, first come first. R334 (13) -/
  line : List Nat := []
  /-- the Flush of R349 is still owed. R349 (13); 1 bit -/
  pfwFlushDue : Bool := false
  /-- the Flush of step 2 of DEEP entry is still owed. R399 (17); 1 bit -/
  modeFlushDue : Bool := false
  /-- the Ledger scan has been made since reset. R347 (13); 1 bit -/
  scanned : Bool := false
  /-- next SEQ. R346 (13); 64 bits -/
  nextSeq : Nat := 0
  /-- oldest SEQ held. R347 (13) -/
  oldest : Nat := 0
  /-- records accepted and not acknowledged, oldest first. R346 (13) -/
  recs : List LedgerRec := []
  /-- records carried by the block being written. R346 (13); 0-15 -/
  inBlock : Nat := 0
  /-- the 4 KiB block being written. R346 (13) -/
  block : List Byte := []
  /-- LDG_SUBMITTED of each bank. R345 (13); 32 bits each -/
  submitted : Vector Word 5 := Vector.replicate 5 0
  /-- LDG_ACKED of each bank. R347 (13); 32 bits each -/
  acked : Vector Word 5 := Vector.replicate 5 0
  /-- Ledger banks stopped by DEEP entry. R399 (17); 1 bit -/
  closed : Bool := false
  deriving DecidableEq, Repr, Inhabited

/-- What a tick has changed of a channel, so that a command of the same PERI cycle can win over it (R367). -/
structure TickUndo where
  /-- RUN before the tick. R367 (15); 1 bit -/
  run : Bool := false
  /-- COUNT before the tick. R367 (15); 32 bits -/
  count : Word := 0
  /-- eligible compares before the tick. R367 (15); 4 bits -/
  elig : BitVec 4 := 0
  /-- the compares before the tick. R367 (15); 32 bits each -/
  cmps : List Word := []
  /-- the TC_STATUS bits that the tick has set. R367 (15); 32 bits -/
  status : Word := 0
  deriving DecidableEq, Repr, Inhabited

/-- What has happened at a timer channel in one PERI cycle.
[log 140 DESIGN CHOICE] -/
structure TimerCycle where
  /-- the PERI cycle. R365 (15) -/
  peri : Nat := 0
  /-- the source has had an event: a tick is one cycle that has one. R365 (15); 1 bit -/
  tick : Bool := false
  /-- ARM, STOP or a re-arm by the master has acted. R367 (15); 1 bit -/
  cmd : Bool := false
  /-- the last of these was an ARM or a re-arm. R371 (15); 1 bit -/
  arm : Bool := false
  /-- an edge has passed the capture chain. R370 (15); 1 bit -/
  edge : Bool := false
  /-- compares written: which, its value and whether it was eligible before. R368 R369 (15) -/
  writes : List (Nat × Word × Bool) := []
  /-- what stood before the tick that has counted, if one has. R367 (15) -/
  undo : Option TickUndo := none
  deriving DecidableEq, Repr, Inhabited

/-- A timer channel (R366-R371). -/
structure Timer where
  /-- RUN. R366 (15); 1 bit -/
  run : Bool := false
  /-- COUNT. R366 (15); 32 bits -/
  count : Word := 0
  /-- TC_CAP. R370 (15); 32 bits -/
  cap : Word := 0
  /-- eligible compares. R368 (15); 4 bits -/
  elig : BitVec 4 := 0
  /-- accepted level of the capture filter. R370 (15); 1 bit -/
  level : Bool := false
  /-- ticks in a row at which the capture input differed from that level. R370 (15); 8 bits -/
  seen : Nat := 0
  /-- edges counted by the prescaler. R370 (15); 8 bits -/
  presc : Nat := 0
  /-- FAULT. R364 (15); 1 bit -/
  fault : Bool := false
  /-- master events that act on this channel in the cycle after: master, PERI cycle of the event. R371 (15) -/
  linked : List (Nat × Nat) := []
  /-- what has happened in a PERI cycle. R365 R367 R368 (15) -/
  cyc : TimerCycle := {}
  deriving DecidableEq, Repr, Inhabited

/-- The Tally (R372-R375).
[log 12 DESIGN CHOICE] -/
structure Tally where
  /-- the count. R372 (15); 64 bits; kept -/
  count : BitVec 64 := 0
  /-- high half captured by a read of TALLY_LO. R372 (15); 32 bits -/
  hiCap : Word := 0
  /-- staged TALLY_SET_HI, if a write has staged one. R130 R372 (05, 15); 32 bits -/
  setHi : Option Word := none
  /-- EST. R374 (15); 1 bit; kept -/
  est : Bool := false
  /-- LOST. R374 (15); 1 bit; kept -/
  lost : Bool := false
  /-- TALLY_ERR. R374 (15); 32 bits; kept -/
  err : Word := 0
  /-- TALLY_CAL. R374 (15); 32 bits; kept; nominal 0x02DC_6C00 -/
  cal : Word := 0x02DC6C00
  /-- ALARM. R373 (15); 1 bit -/
  alarm : Bool := false
  /-- TALLY_SKEW. R375 (15); 64 bits; kept -/
  skew : BitVec 64 := 0
  /-- high half captured by a read of TALLY_SKEW_LO. R375 (15); 32 bits -/
  skewCap : Word := 0
  /-- SKEW_EST. R375 (15); 1 bit -/
  skewEst : Bool := false
  /-- the Tally when the core clocks stopped. R375 (15); 64 bits -/
  stopAt : BitVec 64 := 0
  /-- the LPRC counter runs in place of the Tally. R374 (15); 1 bit -/
  lprc : Bool := false
  deriving DecidableEq, Repr, Inhabited

/-- The repair engine, mirror buffer and fault logic of a Sector (R377-R381, R457). -/
structure Sector where
  /-- SEC_FAULT. R377 (16); 32 bits -/
  fault : Word := 0
  /-- SEC_FAULT_TIME. R377 (16); 64 bits -/
  faultTime : BitVec 64 := 0
  /-- SEC_FAILED: bit k - 1 for slot k. R377 (16); 32 bits -/
  failed : Word := 0
  /-- the memory island has failed: the Orchard and the shadows are lost. R389 (16); 1 bit -/
  memFault : Bool := false
  /-- SEC_STALE. R379 (16); 32 bits -/
  stale : Word := 0
  /-- SEC_REPAIR: fields of the last command. R457 (16); 32 bits -/
  cmd : Word := 0
  /-- SEC_REPAIR.BUSY. R457 (16); 1 bit -/
  busy : Bool := false
  /-- SEC_REPAIR.ERR. R457 (16); 1 bit -/
  err : Bool := false
  /-- mirror buffer: slot and 64-byte word of each waiting entry. R379 (16); 1024 entries -/
  mirror : List (Nat × Nat) := []
  /-- repairs since reset. R319 (12); 32 bits -/
  repairs : Word := 0
  /-- sheds since reset. R319 (12); 32 bits -/
  sheds : Word := 0
  /-- last fault: KIND and UNIT. R319 (12) -/
  lastKind : Nat := 0
  /-- last fault: UNIT. R319 (12); 5 bits -/
  lastUnit : Nat := 0
  /-- Tally bits 31:0 at the last fault. R319 (12); 32 bits -/
  lastTime : Word := 0
  /-- a monitor fault found in DOZE or SLEEP, to be repaired at the wake. R395 (17); 1 bit -/
  atWake : Bool := false
  /-- index of the next 32-byte word that scrub reads. R95 (03); 20 bits -/
  scrub : Nat := 0
  deriving DecidableEq, Repr, Inhabited

/-- The Keeper's view of the Wardens (R390-R394). -/
structure Keeper where
  /-- WA_LOST, WB_LOST. R394 (16); 1 bit each -/
  lost : Vector Bool 2 := Vector.replicate 2 false
  /-- WB_ACTIVE (WA_ACTIVE is its opposite while a Warden is active). R394 (16); 1 bit -/
  activeB : Bool := false
  /-- WB released as standby. R71 (02); 1 bit -/
  wbReleased : Bool := false
  /-- PROMOTIONS. R394 (16); 8 bits -/
  promotions : Nat := 0
  /-- a heartbeat has come in the present window. R390 (16); 1 bit each -/
  beat : Vector Bool 2 := Vector.replicate 2 false
  /-- heartbeats are checked. R399 (17); 1 bit -/
  checking : Bool := true
  /-- FAULT_PIN bits other than ORPHAN. R394 (16); 12 bits -/
  faultPin : Word := 0
  /-- entries written into each journal, modulo 256. R458 (16); 8 bits each -/
  jnext : Vector Nat 2 := Vector.replicate 2 0
  deriving DecidableEq, Repr, Inhabited

/-- Power, supplies, reset and mode entry (R395-R411, R439-R443). -/
structure Power where
  /-- VDD_IO18 good. R440 (19); 1 bit -/
  io18 : Bool := true
  /-- RAIL_EN. R439 (19); 1 bit -/
  railEn : Bool := true
  /-- every monitored rail good. R440 (19); 1 bit -/
  rails : Bool := true
  /-- RESET_N asserted. R441 (19); 1 bit -/
  inReset : Bool := false
  /-- VDDA_DAC in range. R443 (19); 1 bit -/
  dac : Bool := true
  /-- VDD_IO33 present. R443 (19); 1 bit -/
  io33 : Bool := true
  /-- VDD_BAT present. R407 (17); 1 bit -/
  bat : Bool := true
  /-- PWR_AON.ON_BAT. R409 (17); 1 bit; kept -/
  onBat : Bool := false
  /-- PWR_AON.BAT_LOW. R409 (17); 1 bit; kept -/
  batLow : Bool := false
  /-- PWR_AON.LOWPOWER. R409 (17); 1 bit -/
  lowPower : Bool := false
  /-- XTAL running. R26 R399 (01, 17); 1 bit -/
  xtal : Bool := true
  /-- PWR_MODE.STEP. R409 (17); 3 bits -/
  step : Nat := 0
  /-- PWR_MODE.TARGET. R409 (17); 4 bits -/
  target : Mode := .off
  /-- PWR_MODE.LEFT. R409 (17); 4 bits -/
  left : Mode := .run
  /-- wake events pending during an entry: SOURCE, DETAIL. R400 R401 (17) -/
  wakes : List (Nat × Nat) := []
  /-- the Warden whose SET_MODE waits to be acknowledged. R396 (17) -/
  asker : Option Nat := none
  /-- PCIe is in L1 or L2 and USB suspended by the mode. R395 R399 (17); 1 bit -/
  linksLow : Bool := false
  /-- a unit or a stage has been shed since the device left M3 for ATTRACT, DOZE or SLEEP. R41 R42 (01); 1 bit -/
  shedAway : Bool := false
  /-- PWR_LAST_WAKE. R409 (17); 32 bits; kept -/
  lastWake : Word := 0
  /-- PWR_LAST_WAKE_T. R409 (17); 64 bits; kept -/
  lastWakeT : BitVec 64 := 0
  /-- PWR_LAST_WAKE_T_HI as captured. R409 (17); 32 bits -/
  lastWakeCap : Word := 0
  deriving DecidableEq, Repr, Inhabited

/-- The LP5X interface (R85-R90). -/
structure Lpx where
  /-- trained. R85 (03); 1 bit -/
  trained : Bool := false
  /-- data rate in MT/s. R85 (03) -/
  mts : Nat := 0
  /-- raw capacity in GiB: 8, 16 or 32. R86 (03) -/
  rawGib : Nat := 0
  /-- zero-filled since training. R87 (03); 1 bit -/
  filled : Bool := false
  /-- power state: 0 active, 1 power-down, 2 self-refresh, 3 self-refresh with deep-sleep, 4 off. R90 R399 (03, 17) -/
  state : Nat := 0
  /-- index of the next 32-byte word that scrub reads. R95 (03) -/
  scrub : Nat := 0
  deriving DecidableEq, Repr, Inhabited

/-- The image-load engine (R65-R77). -/
structure Load where
  /-- BUSY. R69 (02); 1 bit -/
  busy : Bool := false
  /-- CODE. R69 (02); 16 bits -/
  code : Nat := 0
  /-- SOURCE. R69 (02); 4 bits -/
  source : Nat := 0
  /-- STAGE of the last stage load, 15 for a full load. R69 (02); 4 bits -/
  stage : Nat := 15
  /-- PHASE. R69 (02); 4 bits -/
  phase : Nat := 0
  /-- sources still to be tried. R65 (02) -/
  sources : List Nat := []
  /-- waiting at the asset store's position. R453 (02); 1 bit -/
  waitAsset : Bool := false
  /-- waiting for READY at the host's turn. R453 (02); 1 bit -/
  waitHost : Bool := false
  /-- the final wait of R65. R65 (02); 1 bit -/
  finalWait : Bool := false
  /-- READY accepted on PE0, PE1. R453 (02); 1 bit each -/
  ready : Vector Bool 2 := Vector.replicate 2 false
  /-- offset, block or address of a stage load's source. R68 (02) -/
  addr : Nat := 0
  /-- largest length of a stage load. R68 (02) -/
  maxLen : Nat := 0
  /-- the image as read by pass 1. R70 (02) -/
  image : List Byte := []
  /-- an unload, not a load, is in progress. R75 (02); 1 bit -/
  unload : Bool := false
  /-- the Warden whose command waits to be acknowledged. R319 (12) -/
  asker : Option Nat := none
  /-- WA, WB works on a command whose message FORCE has released. R316 R318 (12); 1 bit each -/
  muted : Vector Bool 2 := Vector.replicate 2 false
  /-- the step of R71 or R74 reached. R71 R74 (02) -/
  step : Nat := 0
  /-- a JTAG boot request stands for this boot. R65 (02); 1 bit -/
  jtag : Bool := false
  /-- an UPDATE_SLOT is in progress: the Warden and the slot written. R67 (02) -/
  update : Option (Nat × Nat) := none
  /-- SPARES of the POLICY device part: Sector rows of FACET, DRUPE, PRISM, CHORD, PIP, PRESS, VOICES. R51 (02) -/
  spares : List (List Nat) := []
  /-- SHED_FAULT. R394 (16); 1 bit -/
  shedFault : Bool := false
  /-- runs of asset blocks that the present pass has still to read: first block, blocks. R343 (13) -/
  reads : List (Nat × Nat) := []
  /-- asset blocks read in the present pass. R343 (13) -/
  got : Nat := 0
  /-- a Read of the load engine has failed. R454 (02); 1 bit -/
  readErr : Bool := false
  /-- ports whose synthesizer has locked since the commit. R71 (02); 4 bits -/
  lockedPorts : BitVec 4 := 0
  /-- IMAGE_VERSION and BUILD of the last image, reported only. R49 (02); 32 bits each -/
  version : Word := 0
  deriving DecidableEq, Repr, Inhabited

/-- Fuses (R62, R64, R414, R428).
[log 48 DEDUCED] -/
structure Fuses where
  /-- SECURE. R62 (02); 1 bit -/
  secure : Bool := false
  /-- KEY_HASH, none while blank. R62 (02); 256 bits -/
  keyHash : Option (BitVec 256) := none
  /-- IMAGE_KEY, none while blank. R62 (02); 256 bits -/
  imageKey : Option (BitVec 256) := none
  /-- PCI_VENDOR. R414 (18); 16 bits -/
  pciVendor : BitVec 16 := 0
  /-- JEP106_ID. R428 (18); 11 bits -/
  jep106 : BitVec 11 := 0
  /-- the unique identity. R428 (18); 128 bits -/
  uid : BitVec 128 := 0
  deriving DecidableEq, Repr, Inhabited

/-- A PCIe port (R413-R417, R431). -/
structure PePort where
  /-- the RO half of PE_STATUS: 10 PERST, 9:8 PSTATE, 6:4 SPEED, 3:1 WIDTH, 0 LINK_UP. R431 (18); 11 bits -/
  status : BitVec 11 := 0x300
  /-- the link has trained since reset. R431 (18); 1 bit -/
  trained : Bool := false
  /-- the SUBSYS of the port in configuration space. R414 R431 (18); 32 bits -/
  subsys : Word := 0
  /-- PE_STAGE_ADDR. R417 (18); 64 bits -/
  stageAddr : BitVec 64 := 0
  /-- PE_STAGE_LEN. R417 (18); 30 bits -/
  stageLen : Nat := 0
  /-- MSI-X table, 8 entries of 4 words. R313 R415 (12, 18); 32 bits each -/
  msix : Sparse Word := []
  /-- MSI-X pending bits. R415 (18); 8 bits -/
  pba : BitVec 8 := 0
  /-- MSI-X vectors with a deliverable unclaimed source. R313 (12); 8 bits -/
  nonEmpty : BitVec 8 := 0
  /-- messages sent, by vector. R313 (12) -/
  sent : Sparse Nat := []
  deriving DecidableEq, Repr, Inhabited

/-- A USB port (R419, R430). -/
structure UsbPort where
  /-- CONNECT. R430 (18); 1 bit -/
  connect : Bool := false
  /-- ENABLED. R430 (18); 1 bit -/
  enabled : Bool := false
  /-- SPEED. R430 (18); 2 bits -/
  speed : Nat := 3
  /-- OC. R430 (18); 1 bit -/
  oc : Bool := false
  /-- a bus reset is in progress. R430 (18); 1 bit -/
  resetting : Bool := false
  /-- resume signalling is in progress. R430 (18); 1 bit -/
  resuming : Bool := false
  /-- USB_FRAME. R430 (18); 14 bits -/
  frame : BitVec 14 := 0
  deriving DecidableEq, Repr, Inhabited

/-- A USB pipe (R430). -/
structure Pipe where
  /-- PIPE_HEAD. R430 (18); 16 bits -/
  head : Nat := 0
  /-- HALTED. R430 (18); 1 bit -/
  halted : Bool := false
  /-- CODE. R430 (18); 8 bits -/
  code : Nat := 0
  deriving DecidableEq, Repr, Inhabited

/-- A Spoke bus (R420-R424). -/
structure Spoke where
  /-- the drop polled in the transaction in progress. R421 (18) -/
  busy : Option Nat := none
  /-- the drop polled last. R422 (18); 5 bits -/
  last : Nat := 0
  /-- SYNC_STAGE. R57 (02); 8 bits -/
  sync : Nat := 0xFF
  /-- WAKE. R57 (02); 2 bits -/
  wake : Nat := 0
  /-- the FAB cycle in which the POLL last sent begins. R422 R423 (18) -/
  began : Nat := 0
  /-- payload of the POLL last sent. R423 (18) -/
  polled : List Byte := []
  /-- the BCAST last sent: its payload. R424 (18) -/
  bcast : List Byte := []
  /-- a BCAST waiting for the end of a transaction. R424 (18) -/
  bcastWait : Option (List Byte) := none
  /-- the root tick at which the BCAST last sent ends. R420 R422 (18) -/
  bcastEnd : Nat := 0
  deriving DecidableEq, Repr, Inhabited

/-- An I2C controller or the UART: its FIFOs (R429, R432). -/
structure Fifo where
  /-- transmit FIFO, at most 16 bytes. R432 (18) -/
  tx : List Byte := []
  /-- receive FIFO, at most 16 bytes. R432 (18) -/
  rx : List Byte := []
  /-- BUSY. R432 (18); 1 bit -/
  busy : Bool := false
  deriving DecidableEq, Repr, Inhabited

/-- JTAG and debug (R428).
[log 11 DEDUCED, 46 DESIGN CHOICE] -/
structure Jtag where
  /-- debug unlocked since the release of RESET_N. R428 (18); 1 bit -/
  unlocked : Bool := false
  /-- the challenge standing: its nonce. R428 (18); 128 bits -/
  challenge : Option (BitVec 128) := none
  /-- failed responses. R428 (18); 2 bits -/
  fails : Nat := 0
  /-- pins driven by EXTEST. R428 (18) -/
  extest : Option (BitVec 256) := none
  /-- a boot request made in SERVICE. R65 (02); 1 bit -/
  bootReq : Bool := false
  deriving DecidableEq, Repr, Inhabited

/-- Why a step stops.
[log 6 DEDUCED] -/
inductive Fault where
  /-- An access by the Warden, the host or debug to an address that R36 leaves unassigned: the spec
  gives it no status (R37 leaves it to the initiator's chapter, which has none). Raised by
  REGISTER_WRITE. Safe: the model stops where the hardware goes on. -/
  | unassignedAddress
  deriving DecidableEq, Repr

/-- Why the model refuses a command. -/
inductive Refusal where
  /-- The command has no meaning in the model yet. Safe: nothing is claimed of it. -/
  | notModelled (mnemonic : String)
  deriving DecidableEq, Repr

/-- The state of the block.
[log 1 DESIGN CHOICE, 3 DESIGN CHOICE] -/
structure State where
  /-- the commands waiting, first in first out. The model's own -/
  pending : List Instr := []
  /-- count of free values drawn. The model's own -/
  nonce : Nat := 0
  /-- FAB cycles since reset. R26 (01) -/
  fab : Nat := 0
  /-- root PLL ticks since reset (2.4 GHz). R26 (01) -/
  root : Nat := 0
  /-- the device mode. R40 (01); 12 modes; M1 -/
  mode : Mode := .boot
  /-- Orchard, LP5X and boot-ROM bytes by device address. R36 (01); an unlisted byte reads 0 -/
  mem : Sparse Byte := []
  /-- symbol errors of the damaged 32-byte words of the Orchard and LP5X, by the address of the word. R93 (03); an unlisted
  word has none -/
  errs : Sparse Nat := []
  /-- the SPI flash by flash address. R66 (02); an unlisted byte reads 0xFF -/
  flash : Sparse Byte := []
  /-- management, Sector and shared registers by device address. R9 (00); 32 bits each -/
  regs : Sparse Word := []
  /-- staged high parts, keyed by the address of their `_LO` register. R130 (05); 32 bits each -/
  hi : Sparse Word := []
  /-- the stages S0-S3. R18 (01) -/
  stages : Vector Stage 4 := Vector.replicate 4 {}
  /-- the cores: P0-P19, then WA and WB. R16 R297 (01, 12) -/
  cores : Vector Core 22 := Vector.replicate 22 {}
  /-- the router's sources. R301 (12); 512 -/
  irqs : Sparse Irq := []
  /-- BAD_EOI of the targets. R303 (12); 24 bits -/
  badEoi : BitVec 24 := 0
  /-- the mailboxes. R314 (12) -/
  mbox : Vector Mailbox 24 := Vector.replicate 24 {}
  /-- the Vine channels. R321 (13); 64 -/
  chans : Sparse VChan := []
  /-- cached ring contexts of each stage, by local ring number. R331 (13) -/
  rings : Vector (Sparse RingCtx) 4 := Vector.replicate 4 []
  /-- GRP_BAD_RING of each stage group. R338 (13); 18 bits each -/
  badRing : Vector Nat 4 := Vector.replicate 4 0
  /-- the queue manager and the Ledger. R340 (13) -/
  store : Store := {}
  /-- the timer channels. R364 (15) -/
  timers : Vector Timer 32 := Vector.replicate 32 {}
  /-- the Tally. R372 (15) -/
  tally : Tally := {}
  /-- the Sectors. R376 (16) -/
  sectors : Vector Sector 4 := Vector.replicate 4 {}
  /-- faults found and not yet repaired or shed: Sector, KIND, UNIT, in order of detection. R381 (16) -/
  faults : List (Nat × Nat × Nat) := []
  /-- the Keeper. R390 (16) -/
  keeper : Keeper := {}
  /-- power and mode entry. R395 (17) -/
  power : Power := {}
  /-- the LP5X interface. R85 (03) -/
  lpx : Lpx := {}
  /-- the load engine. R70 (02) -/
  load : Load := {}
  /-- the fuses. R62 (02) -/
  fuses : Fuses := {}
  /-- LINK_STRAP. R412 (18); 3 bits -/
  straps : BitVec 3 := 0
  /-- levels at the quick-input pins after synchronisation. R214 (08); 64 bits -/
  qiPins : BitVec 64 := 0
  /-- filtered levels of the quick inputs. R214 (08); 64 bits -/
  qi : BitVec 64 := 0
  /-- the PERI cycle of the last change of a quick input's filtered level. R370 (15) -/
  qiAt : Sparse Nat := []
  /-- prescaler counts of the quick inputs. R215 (08); 8 bits each -/
  qiPresc : Sparse Nat := []
  /-- HPD pins. R109 (04); 4 bits -/
  hpd : BitVec 4 := 0
  /-- EDID reads in progress. R433 (18); 4 bits -/
  edidBusy : BitVec 4 := 0
  /-- the PCIe ports. R413 (18) -/
  pe : Vector PePort 2 := Vector.replicate 2 {}
  /-- the USB ports. R419 (18) -/
  usb : Vector UsbPort 4 := Vector.replicate 4 {}
  /-- the USB pipes, 16 per port. R430 (18); 64 -/
  pipes : Sparse Pipe := []
  /-- the Spoke buses. R420 (18) -/
  spoke : Vector Spoke 2 := Vector.replicate 2 {}
  /-- the I2C controllers. R432 (18) -/
  i2c : Vector Fifo 2 := Vector.replicate 2 {}
  /-- the UART. R432 (18) -/
  uart : Fifo := {}
  /-- SPI_STATUS.BUSY. R432 (18); 1 bit -/
  spiBusy : Bool := false
  /-- JTAG and debug. R428 (18) -/
  jtag : Jtag := {}
  /-- GO pins are driven. R426 (18); 1 bit -/
  goDriven : Bool := false
  /-- general outputs latched through DOZE and SLEEP. R426 (18); 32 bits -/
  goHeld : Option Word := none
  deriving DecidableEq, Repr, Inhabited

/-- The block right after the effective release of RESET_N (R441): every field at its default, WA
released (R71 step 1) and running its boot ROM.
[log 1 DESIGN CHOICE] -/
def State.reset : State :=
  { cores := (Vector.replicate 22 ({} : Core)).set 20 { run := .running } }

end Sys2Proof.Machine
end

