-- ==== Sys2Proof/Machine/Sparse.lean ====
section
/-!
DEFINITION. Sparse tables in one canonical form (keys strictly rising, no entry equal to what an
unlisted key reads as), and total reads and writes of the fixed vectors of State.
-/

namespace Sys2Proof.Machine

/-- What key `k` reads as; `d` gives the unlisted keys. -/
def sget {α : Type} (d : Nat → α) : Sparse α → Nat → α
  | [], k => d k
  | (j, w) :: r, k => if j = k then w else sget d r k

/-- The entry of key `k` put before the first larger key. -/
def sput {α : Type} : Sparse α → Nat → α → Sparse α
  | [], k, v => [(k, v)]
  | (j, w) :: r, k, v => if j < k then (j, w) :: sput r k v else (k, v) :: (j, w) :: r

/-- Key `k` written with `v`: its old entry goes, and a new one comes unless `v` is what an unlisted key reads as. -/
def sset {α : Type} [DecidableEq α] (d : Nat → α) (m : Sparse α) (k : Nat) (v : α) : Sparse α :=
  let r := m.filter fun e => e.1 != k
  if v = d k then r else sput r k v

/-- Every key of the table lies above `lo`. -/
def sabove {α : Type} (lo : Nat) (m : Sparse α) : Prop := ∀ e ∈ m, lo < e.1

/-- The canonical form. -/
def swf {α : Type} [DecidableEq α] (d : Nat → α) : Sparse α → Bool
  | [] => true
  | (k, v) :: r => decide (v ≠ d k) && (match r with | [] => true | (j, _) :: _ => decide (k < j)) && swf d r

/-- Element `i` of a vector; `d` stands for an index the vector does not have. -/
def vget {α : Type} {n : Nat} (d : α) (v : Vector α n) (i : Nat) : α := v[i]?.getD d

/-- Element `i` replaced; an index the vector does not have changes nothing. -/
def vset {α : Type} {n : Nat} (v : Vector α n) (i : Nat) (x : α) : Vector α n := v.setIfInBounds i x

end Sys2Proof.Machine
end

