-- ==== Sys2Proof/Machine/Ops.lean ====
section
/-!
DEFINITION. The shared operations over State: register files, fields of words, memory bytes,
free values, partitions, memory faults and access violations.
-/

namespace Sys2Proof.Machine

/-- What a step answers. -/
abbrev Res := Host.Outcome State Fault Refusal

/-- Field of `n` bits of `w` from bit `lo` (R6). -/
def fld (w : Word) (lo n : Nat) : Nat := w.toNat / 2 ^ lo % 2 ^ n

/-- Bit `i` of `w`. -/
def bit (w : Word) (i : Nat) : Bool := w.getLsbD i

/-- `w` with its field of `n` bits from bit `lo` set to `v`. -/
def setFld (w : Word) (lo n v : Nat) : Word :=
  let m := BitVec.ofNat 32 ((2 ^ n - 1) * 2 ^ lo)
  (w &&& ~~~m) ||| (BitVec.ofNat 32 (v * 2 ^ lo) &&& m)

/-- `w` with bit `i` set to `b`. -/
def setBit (w : Word) (i : Nat) (b : Bool) : Word := setFld w i 1 b.toNat

/-- A number as a word. -/
def wd (n : Nat) : Word := BitVec.ofNat 32 n

/-- The signed value of a field of `n` bits. -/
def sfld (w : Word) (lo n : Nat) : Int :=
  let v := fld w lo n
  if v < 2 ^ (n - 1) then v else (v : Int) - 2 ^ n

/-- Bit `i` of a set of `n` things. -/
def bset {n : Nat} (v : BitVec n) (i : Nat) (b : Bool) : BitVec n :=
  if b then v ||| BitVec.ofNat n (2 ^ i) else v &&& ~~~(BitVec.ofNat n (2 ^ i))

/-! ### Parts of the state -/

/-- Stage `i`. -/
def State.stage (s : State) (i : Nat) : Stage := vget {} s.stages i

/-- Stage `i` replaced. -/
def State.setStage (s : State) (i : Nat) (st : Stage) : State := { s with stages := vset s.stages i st }

/-- Stage `i` changed by `f`. -/
def State.modStage (s : State) (i : Nat) (f : Stage → Stage) : State := s.setStage i (f (s.stage i))

/-- Core `k` (R16, R297). -/
def State.core (s : State) (k : Nat) : Core := vget {} s.cores k

/-- Core `k` replaced. -/
def State.setCore (s : State) (k : Nat) (c : Core) : State := { s with cores := vset s.cores k c }

/-- Core `k` changed by `f`. -/
def State.modCore (s : State) (k : Nat) (f : Core → Core) : State := s.setCore k (f (s.core k))

/-- Source `n` of the router (R298). -/
def State.irq (s : State) (n : Nat) : Irq := sget (fun _ => ({} : Irq)) s.irqs n

/-- Source `n` replaced. -/
def State.setIrq (s : State) (n : Nat) (q : Irq) : State :=
  { s with irqs := sset (fun _ => ({} : Irq)) s.irqs n q }

/-- Mailbox `m` (R314). -/
def State.mb (s : State) (m : Nat) : Mailbox := vget {} s.mbox m

/-- Mailbox `m` replaced. -/
def State.setMb (s : State) (m : Nat) (b : Mailbox) : State := { s with mbox := vset s.mbox m b }

/-- Vine channel `c` (R321). -/
def State.chan (s : State) (c : Nat) : VChan := sget (fun _ => ({} : VChan)) s.chans c

/-- Vine channel `c` replaced. -/
def State.setChan (s : State) (c : Nat) (v : VChan) : State :=
  { s with chans := sset (fun _ => ({} : VChan)) s.chans c v }

/-- Timer channel `k` (R364). -/
def State.timer (s : State) (k : Nat) : Timer := vget {} s.timers k

/-- Timer channel `k` replaced. -/
def State.setTimer (s : State) (k : Nat) (t : Timer) : State := { s with timers := vset s.timers k t }

/-- Sector `n` (R376). -/
def State.sector (s : State) (n : Nat) : Sector := vget {} s.sectors n

/-- Sector `n` replaced. -/
def State.setSector (s : State) (n : Nat) (x : Sector) : State := { s with sectors := vset s.sectors n x }

/-! ### Registers -/

/-- The stored word of a stage-window register (R18). -/
def Stage.reg (st : Stage) (o : Nat) : Word := sget stageDefault st.regs o

/-- A stage-window register stored. -/
def Stage.setReg (st : Stage) (o : Nat) (v : Word) : Stage := { st with regs := sset stageDefault st.regs o v }

/-- A stage-window register changed by `f`. -/
def Stage.modReg (st : Stage) (o : Nat) (f : Word → Word) : Stage := st.setReg o (f (st.reg o))

/-- A bit of a stage-window register set: how the device sets a W1C status bit (R9). -/
def Stage.setRegBit (st : Stage) (o i : Nat) : Stage := st.modReg o (fun w => setBit w i true)

/-- The stored word of a management, Sector or shared register (R36). -/
def State.dreg (s : State) (a : Nat) : Word := sget deviceDefault s.regs a

/-- A management, Sector or shared register stored. -/
def State.setDreg (s : State) (a : Nat) (v : Word) : State := { s with regs := sset deviceDefault s.regs a v }

/-- A management, Sector or shared register changed by `f`. -/
def State.modDreg (s : State) (a : Nat) (f : Word → Word) : State := s.setDreg a (f (s.dreg a))

/-- A stored register of stage `i`. -/
def State.sreg (s : State) (i o : Nat) : Word := (s.stage i).reg o

/-- A register of stage `i` stored. -/
def State.setSreg (s : State) (i o : Nat) (v : Word) : State := s.modStage i (·.setReg o v)

/-- A count in a field, up by `k` and saturating at the field's top. -/
def satAdd (w : Word) (lo n k : Nat) : Word := setFld w lo n (min (fld w lo n + k) (2 ^ n - 1))

/-! ### Free values -/

/-- One free value drawn: its number, and the state that has drawn it.
[log 4 DESIGN CHOICE] -/
def State.draw (s : State) : Nat × State := (s.nonce, { s with nonce := s.nonce + 1 })

/-! ### Memory -/

/-- What an unlisted byte of memory reads as: the Orchard and LP5X are zero-filled (R80, R87).
[log 2 DESIGN CHOICE] -/
def memDefault (_ : Nat) : Byte := 0

/-- Memory is in its canonical form: addresses strictly rising, and no entry equal to what an unlisted address reads as. -/
def Memory.wf (m : Sparse Byte) : Bool := swf memDefault m

/-- The byte at device address `a` (R36).
[log 2 DESIGN CHOICE] -/
def State.byte (s : State) (a : Nat) : Byte := sget memDefault s.mem a

/-- The byte at device address `a` stored. -/
def State.setByte (s : State) (a : Nat) (b : Byte) : State := { s with mem := sset memDefault s.mem a b }

/-- `n` bytes from device address `a`. -/
def State.bytes (s : State) (a : Nat) : Nat → List Byte
  | 0 => []
  | n + 1 => s.byte a :: s.bytes (a + 1) n

/-- Bytes stored from device address `a` on. -/
def State.setBytes (s : State) (a : Nat) : List Byte → State
  | [] => s
  | b :: r => (s.setByte a b).setBytes (a + 1) r

/-- Little-endian value of bytes (R6). -/
def leNat : List Byte → Nat
  | [] => 0
  | b :: r => b.toNat + 256 * leNat r

/-- A value as `n` little-endian bytes (R6). -/
def leBytes (v : Nat) : Nat → List Byte
  | 0 => []
  | n + 1 => BitVec.ofNat 8 v :: leBytes (v / 256) n

/-- The little-endian value of `n` bytes at `a`. -/
def State.le (s : State) (a n : Nat) : Nat := leNat (s.bytes a n)

/-- `n` zero bytes stored from `a` on: the bytes become unlisted (R54, R75, R80).
[log 60 DEDUCED] -/
def State.zeroMem (s : State) (a n : Nat) : State :=
  { s with
    mem := s.mem.filter fun e => e.1 < a || a + n ≤ e.1
    errs := s.errs.filter fun e => e.1 < a || a + n ≤ e.1 }

/-- The address lies in the Orchard (R36). -/
def isOrchard (a : Nat) : Bool := decide (a < 0x8000000)

/-- The address lies in a shadow region (R36, R78). -/
def isShadow (a : Nat) : Bool := decide (a < 0x8000000) && decide (0x1F00000 ≤ a % 0x2000000)

/-- Usable LP5X bytes: eight ninths of the raw capacity in whole MiB (R86). -/
def lpxUsable (rawGib : Nat) : Nat := rawGib * 1024 * 8 / 9 * 0x100000

/-- The address lies in usable LP5X (R37, R86). -/
def State.isLpx (s : State) (a : Nat) : Bool :=
  decide (0x100000000 ≤ a) && decide (a < 0x100000000 + lpxUsable s.lpx.rawGib)

/-- The address is Orchard or usable LP5X memory. -/
def State.isMem (s : State) (a : Nat) : Bool := isOrchard a || s.isLpx a

/-- The range `a … a + n - 1` lies within the stage's segments (R54, R91). -/
def Stage.inSegs (st : Stage) (a n : Nat) : Bool :=
  st.segs.any fun g => decide (g.base ≤ a) && decide (a + n ≤ g.base + g.size)

/-- A device-side access blocked outside the stage's partitions (R91); of two blocked in one FAB cycle the one with the
lower INIT code is captured (R92). -/
def Stage.blockOut (st : Stage) (initiator lindex a : Nat) (write : Bool) : Stage :=
  let w := st.reg 0x200
  let first := !(bit w 0 || bit w 1)
  let take := first || (st.cyc.cap && decide (initiator < fld w 12 4))
  let w := if take then setFld (setFld w 12 4 initiator) 8 4 lindex else w
  let w := satAdd (setBit w (if write then 1 else 0) true) 16 16 1
  let st := st.setReg 0x200 w
  if take then
    { (st.setReg 0x204 (wd a)).setReg 0x208 (wd (a / 2 ^ 32 % 256)) with cyc := { st.cyc with cap := true } }
  else st

/-- A device-side access of stage `i` blocked outside its partitions (R91, R92). -/
def State.blockOut (s : State) (i initiator lindex a : Nat) (write : Bool) : State :=
  s.modStage i (·.blockOut initiator lindex a write)

/-- The error counter and the capture register of the memory of `a`, and the index of its 32-byte
word (R96).
[log 33 DEDUCED] -/
def eccPlace (a : Nat) : Nat × Nat :=
  if isOrchard a then (0x11000000 + a / 0x2000000 * 0x400000 + 0x1F0000, a % 0x2000000 / 32)
  else (0x10005000 + 0x10 * ((a - 0x100000000) / 256 % 4), (a - 0x100000000) / 32)

/-- A corrected error at `a` (R94): CE_COUNT saturates. -/
def State.corrected (s : State) (a : Nat) : State :=
  s.modDreg (eccPlace a).1 (satAdd · 16 16 1)

/-- An uncorrectable word read at `a` (R96): UE_COUNT saturates and the first address is captured. -/
def State.uncorrectable (s : State) (a : Nat) : State :=
  let (r, w) := eccPlace a
  let s := s.modDreg r (satAdd · 8 8 1)
  if bit (s.dreg (r + 4)) 31 then s else s.setDreg (r + 4) (wd (0x80000000 + w % 2 ^ 30))

/-- Symbol errors of the 32-byte word at `a` (R93). -/
def State.symbols (s : State) (a : Nat) : Nat := sget (fun _ => 0) s.errs (a / 32 * 32)

/-- The word at `a` left with `n` symbol errors. -/
def State.setSymbols (s : State) (a n : Nat) : State := { s with errs := sset (fun _ => 0) s.errs (a / 32 * 32) n }

/-- The word at `a` is found with at least `n` symbol errors: how a command brings errors in (R93).
[log 150 DESIGN CHOICE] -/
def State.upset (s : State) (a n : Nat) : State :=
  if s.isMem a && decide (s.symbols a < n) then s.setSymbols a n else s

/-- A read of the word at `a` (R93, R94, R96): whether it is reported uncorrectable, and what it leaves. One or two errors
are corrected and written back; of more, the read is reported, or miscorrected and the wrong data written back as good.
[log 150 DESIGN CHOICE] -/
def State.readWord (s : State) (fv a : Nat) : Bool × State :=
  let w := a / 32 * 32
  let n := s.symbols w
  if n = 0 then (false, s)
  else if n ≤ 2 then (false, (s.corrected w).setSymbols w 0)
  else if Config.miscorrects fv w then
    (false, ((s.setBytes w ((List.range 32).map fun j => Config.freeByte fv (w + j))).corrected w).setSymbols w 0)
  else (true, s.uncorrectable w)

/-- Byte `a` lies in one of the ranges. -/
def covers (rs : List (Nat × Nat)) (a : Nat) : Bool := rs.any fun p => decide (p.1 ≤ a) && decide (a < p.1 + p.2)

/-- The damaged words that the ranges touch.
[log 150 DESIGN CHOICE] -/
def State.damaged (s : State) (rs : List (Nat × Nat)) : List Nat :=
  (s.errs.map Prod.fst).filter fun w => rs.any fun p => decide (p.1 < w + 32) && decide (w < p.1 + p.2)

/-- The words `ws` read (R93): those reported uncorrectable, and what the reads leave. -/
def State.readWords (s : State) (fv : Nat) (ws : List Nat) : List Nat × State :=
  ws.foldl (fun q w => let (u, s) := q.2.readWord fv w; (if u then q.1 ++ [w] else q.1, s)) ([], s)

/-- The ranges read (R93): the words reported uncorrectable, and what the reads leave.
[log 150 DESIGN CHOICE] -/
def State.readRanges (s : State) (rs : List (Nat × Nat)) : List Nat × State :=
  match s.damaged rs with
  | [] => ([], s)
  | ws => let (fv, s) := s.draw; s.readWords fv ws

/-- The ranges about to be written (R79, R96): a word written whole is good again; a damaged word written in part is read
first, and those reported uncorrectable drop the write. -/
def State.openRanges (s : State) (rs : List (Nat × Nat)) (whole : Nat → Bool) : List Nat × State :=
  match s.damaged rs with
  | [] => ([], s)
  | ws =>
    let (fv, s) := s.draw
    let s := (ws.filter whole).foldl (fun s w => s.setSymbols w 0) s
    s.readWords fv (ws.filter fun w => !whole w)

/-- The word at `w` lies whole in one of the ranges. -/
def inOne (rs : List (Nat × Nat)) (w : Nat) : Bool := rs.any fun p => decide (p.1 ≤ w) && decide (w + 32 ≤ p.1 + p.2)

/-- Byte `a` lies in one of the words `ws`. -/
def inWords (ws : List Nat) (a : Nat) : Bool := ws.contains (a / 32 * 32)

/-- `n` bytes read at `a`: the bytes, and whether a word of them was reported uncorrectable (R93, R96). -/
def State.fetchBytes (s : State) (a n : Nat) : List Byte × Bool × State :=
  let (ws, s) := s.readRanges [(a, n)]
  (s.bytes a n, !ws.isEmpty, s)

/-- Bytes stored from `a` on, but for those in the words `ws`. -/
def State.putBytes (s : State) (ws : List Nat) (a : Nat) : List Byte → State
  | [] => s
  | b :: r => (if inWords ws a then s else s.setByte a b).putBytes ws (a + 1) r

/-- Bytes written at `a` (R79, R93, R96). -/
def State.storeBytes (s : State) (a : Nat) (bs : List Byte) : State :=
  match s.openRanges [(a, bs.length)] (inOne [(a, bs.length)]) with
  | ([], s) => s.setBytes a bs
  | (ws, s) => s.putBytes ws a bs

/-! ### Who an initiator is -/

/-- The binding index of logical Pip `n` (R20; the model's numbering of the binding registers). -/
def pipBind (n : Nat) : Nat := 27 + n

/-- A binding entry of a stage (R20).
[log 135 DESIGN CHOICE] -/
def Stage.bind (st : Stage) (b : Nat) : BindEntry := sget (fun _ => ({} : BindEntry)) st.binds b

/-- A binding entry written: `BIND_GEN` counts the change (R20). -/
def Stage.setBind (st : Stage) (b : Nat) (e : BindEntry) : Stage :=
  { st with binds := sset (fun _ => ({} : BindEntry)) st.binds b e, bindGen := st.bindGen + 1 }

/-- The numbers 0 … n - 1 for which `p` holds. -/
def upto (n : Nat) (p : Nat → Bool) : List Nat := (List.range n).filter p

/-- The logical Pip of a stage bound to physical Pip P`k` (R16, R20). -/
def Stage.pipAt (st : Stage) (k : Nat) : Option Nat :=
  (upto 8 fun n => let e := st.bind (pipBind n); e.bound && 5 * e.sector + e.unit == k).head?

/-- The stage and the logical number of physical Pip P`k`. -/
def State.pipOf (s : State) (k : Nat) : Option (Nat × Nat) :=
  if k < 20 then
    (List.range 4).findSome? fun i => ((s.stage i).pipAt k).map fun n => (i, n)
  else none

/-- The physical Pip of logical Pip `n` of stage `i`, if bound. -/
def State.pipPhys (s : State) (i n : Nat) : Option Nat :=
  let e := (s.stage i).bind (pipBind n)
  if e.bound then some (5 * e.sector + e.unit) else none

/-- The stage whose software or units make the access, if any (R12, R322). -/
def State.initStage (s : State) : Initiator → Option Nat
  | .pip k => (s.pipOf k).map Prod.fst
  | .chord i => some i
  | .reflex i => some i
  | .press i => some i
  | .vine c => if c < 56 then some (c / 14) else none
  | .warden _ => none
  | .host _ => none
  | .debug => none
  | .loader => none

/-- The initiator is stage software: a Pip, or a unit that writes for it (R12).
[log 113 DEDUCED] -/
def isSoft : Initiator → Bool
  | .pip _ | .chord _ | .reflex _ | .press _ | .vine _ => true
  | _ => false

/-- The rank of an initiator among the fence signals of one FAB cycle (R182). -/
def fenceRank : Initiator → Nat
  | .chord _ | .reflex _ => 1
  | .press _ => 2
  | .vine _ => 3
  | _ => 0

/-- The initiator has the Warden's rights (R12, R428). -/
def isWarden : Initiator → Bool
  | .warden _ | .debug => true
  | _ => false

/-- The debug instructions are open (R428).
[log 131 DEDUCED] -/
def State.debugOpen (s : State) : Bool := !s.fuses.secure || s.jtag.unlocked

/-- The initiator is a Warden, or debug while it is open (R12, R428).
[log 131 DEDUCED] -/
def State.wardenMay (s : State) : Initiator → Bool
  | .warden _ => true
  | .debug => s.debugOpen
  | _ => false

/-- The INIT code of `ACC_VIOL` (R456). -/
def State.initCode (s : State) : Initiator → Nat
  | .pip k => ((s.pipOf k).map Prod.snd).getD 0
  | .vine c => 8 + c % 14
  | _ => 0

/-- A write of stage software blocked under R12: counted, and captured while VALID is 0 (R456).
[log 37 DEDUCED] -/
def State.accViol (s : State) (i : Initiator) (a : Nat) : State :=
  if (s.initStage i).isNone then s
  else
  let s := s.modDreg 0x10000200 (satAdd · 16 8 1)
  let w := s.dreg 0x10000200
  if bit w 31 then s
  else
    let w := setFld (setFld (setBit w 31 true) 8 2 ((s.initStage i).getD 0)) 0 6 (s.initCode i)
    ((s.setDreg 0x10000200 w).setDreg 0x10000204 (wd a)).setDreg 0x10000208 (wd (a / 2 ^ 32 % 256))

/-- The active Warden's number: WA until WB is promoted (R394). -/
def State.activeWarden (s : State) : Nat := if s.keeper.activeB then 1 else 0

/-- Both Wardens are lost (R393). -/
def State.noWarden (s : State) : Bool := vget false s.keeper.lost 0 && vget false s.keeper.lost 1

/-- The time since reset in PERI cycles (R26, R305). -/
def State.peri (s : State) : Nat := s.root / 8

/-- Bits 31:0 of the Tally (R372). -/
def State.tallyLo (s : State) : Word := s.tally.count.truncate 32

/-- Bits 63:32 of the Tally (R372). -/
def State.tallyHi (s : State) : Word := (s.tally.count >>> 32).truncate 32

/-- Some unit of a loaded stage is shed, or some of its voices (R20 DEGRADED, R41, R387). -/
def Stage.degraded (st : Stage) : Bool := decide (0 < st.shedVoices) || st.binds.any fun e => e.2.shed

/-- Some stage has a shed unit (R41). -/
def State.anyShed (s : State) : Bool := (List.range 4).any fun i => (s.stage i).degraded

/-- Whether the units of the core domain run: the modes with all clocks (R40). -/
def Mode.stagesRun : Mode → Bool
  | .run | .retune | .degraded | .orphan | .attract => true
  | _ => false

/-- The device is in DOZE or SLEEP (R40). -/
def State.asleep (s : State) : Bool := s.mode = .doze || s.mode = .sleep

/-- FAB runs in a mode (R395). -/
def Mode.fabRuns : Mode → Bool
  | .doze | .sleep | .deep | .off => false
  | _ => true

/-- FAB runs (R395, R403). -/
def State.fabRuns (s : State) : Bool := s.mode.fabRuns || s.power.step == 6

/-- FAB runs at root/4: in ATTRACT, and through a wake that returns to it (R397, R403). -/
def State.slow (s : State) : Bool := s.mode = .attract || (s.asleep && s.power.left = .attract)

/-- The number Mn of a mode (R40). -/
def Mode.num : Mode → Nat
  | .off => 0 | .boot => 1 | .config => 2 | .run => 3 | .retune => 4 | .degraded => 5
  | .orphan => 6 | .attract => 7 | .doze => 8 | .sleep => 9 | .deep => 10 | .service => 11

/-- The mode of a number, if it is 0-11 (R40). -/
def Mode.ofNum : Nat → Option Mode
  | 0 => some .off | 1 => some .boot | 2 => some .config | 3 => some .run | 4 => some .retune
  | 5 => some .degraded | 6 => some .orphan | 7 => some .attract | 8 => some .doze
  | 9 => some .sleep | 10 => some .deep | 11 => some .service
  | _ => none

end Sys2Proof.Machine
end

