-- ==== Sys2Proof/Machine/Operands.lean ====
section
/-!
DEFINITION. The operand forms of a Pip instruction: general registers, predicates, guards, special
registers, address units, and the instruction word of each format (R252-R257), which UNDEF saves.
-/

namespace Sys2Proof.Machine

/-! ### Registers and predicates -/

/-- A general register; g0 reads 0 (R253). -/
def Core.g (c : Core) (r : Reg) : Word := if r = 0 then 0 else vget 0 c.gpr r.toNat

/-- A general register written; a write to g0 is discarded (R253). -/
def Core.setG (c : Core) (r : Reg) (v : Word) : Core :=
  if r = 0 then c else { c with gpr := vset c.gpr r.toNat v, late := c.late.filter fun e => e.1 != r.toNat }

/-- The result in general register `r` (32: the flags N and Z) can be used `n` cycles after the cycle of issue (R276). -/
def Core.delay (c : Core) (r n : Nat) : Core :=
  if r = 0 then c else { c with late := sset (fun _ => 0) c.late r (c.cycle.toNat + n) }

/-- Issue waits for the results that the registers `rs` still wait for (R275, R276). -/
def Core.await (c : Core) (rs : List Nat) : Core :=
  let t := (c.late.filter fun e => rs.contains e.1).foldl (fun n e => max n e.2) 0
  if c.cycle.toNat < t then { c with cycle := BitVec.ofNat 64 t } else c

/-- A predicate; q0 reads 1 (R253). -/
def Core.q (c : Core) (i : BitVec 3) : Bool := if i = 0 then true else c.pred.getLsbD i.toNat

/-- A predicate written; a write to q0 is discarded (R253). -/
def Core.setQ (c : Core) (i : BitVec 3) (b : Bool) : Core :=
  if i = 0 then c else { c with pred := bset c.pred i.toNat b }

/-- F-mode (R259). -/
def Core.fmode (c : Core) : Bool := bit c.status 2

/-- Supervisor state (R256). -/
def Core.super (c : Core) : Bool := bit c.status 0

/-- The carry flag (R255). -/
def Core.carry (c : Core) : Bool := bit c.status 29

/-- The guard field traps UNDEF: 0b0001 in P-mode, anything but 0b0000 in F-mode (R258, R259). -/
def Core.guardUndef (c : Core) (guard : BitVec 4) : Bool :=
  if c.fmode then guard ≠ 0 else guard = 1

/-- The guard is true (R258): q[bits 31:29] XOR bit 28. -/
def Core.guardTrue (c : Core) (guard : BitVec 4) : Bool :=
  (c.q (guard.extractLsb' 1 3)) ^^ guard.getLsbD 0

/-! ### Address units -/

/-- Reversal of the low `k` bits of `n` (R268). -/
def revBits (n : Nat) : Nat → Nat
  | 0 => 0
  | k + 1 => (n % 2) * 2 ^ k + revBits (n / 2) k

/-- The new INDEX of an address unit after a step (R268). -/
def AddrUnit.next (u : AddrUnit) : Word :=
  let len := fld u.cfg 0 16 + 1
  let k := fld u.cfg 16 4 + 1
  match fld u.cfg 20 2 with
  | 1 => BitVec.ofInt 32 (Int.emod (u.index.toNat + u.step.toInt) len)
  | 2 => wd (revBits (Int.emod (revBits (u.index.toNat % 2 ^ k) k + u.step.toInt) (2 ^ k)).toNat k)
  | _ => u.index + u.step

/-- Address unit `n` of a core. -/
def Core.unit (c : Core) (n : Nat) : AddrUnit := vget {} c.au n

/-- Address unit `n` stepped (R268). -/
def Core.stepUnit (c : Core) (n : Nat) : Core :=
  { c with au := vset c.au n { c.unit n with index := (c.unit n).next } }

/-! ### Instruction words -/

/-- Bits 31:22 of an instruction word: the guard and the major opcode (R257). -/
def encHead (guard : BitVec 4) (op : BitVec 6) : Word := (guard ++ op ++ (0 : BitVec 22) : BitVec 32)

/-- Format R (R257). -/
def encR (guard : BitVec 4) (op : BitVec 6) (rd ra rb : Reg) (fn : BitVec 7) : Word :=
  (guard ++ op ++ rd ++ ra ++ rb ++ fn : BitVec 32)

/-- Format I (R257). -/
def encI (guard : BitVec 4) (op : BitVec 6) (rd ra : Reg) (imm : BitVec 12) : Word :=
  (guard ++ op ++ rd ++ ra ++ imm : BitVec 32)

/-- Format W (R257). -/
def encW (guard : BitVec 4) (op : BitVec 6) (rd : Reg) (imm : BitVec 16) : Word :=
  (guard ++ op ++ rd ++ (0 : BitVec 1) ++ imm : BitVec 32)

/-- Format C with a register (R257, R265). -/
def encC (guard : BitVec 4) (op : BitVec 6) (top : BitVec 2) (qd : BitVec 3) (ra rb : Reg) (fn : BitVec 7) : Word :=
  (guard ++ op ++ top ++ qd ++ ra ++ rb ++ fn : BitVec 32)

/-- Format C with an immediate (R257, R265). -/
def encCI (guard : BitVec 4) (op : BitVec 6) (cc : BitVec 2) (qd : BitVec 3) (ra : Reg) (imm : BitVec 12) : Word :=
  (guard ++ op ++ cc ++ qd ++ ra ++ imm : BitVec 32)

/-- Format J (R257). -/
def encJ (guard : BitVec 4) (op : BitVec 6) (off : BitVec 22) : Word := (guard ++ op ++ off : BitVec 32)

/-- Format D (R257). -/
def encD (guard : BitVec 4) (op : BitVec 6) (gn : Reg) (off : BitVec 17) : Word :=
  (guard ++ op ++ gn ++ off : BitVec 32)

/-- Format F (R257). -/
def encF (guard : BitVec 4) (op : BitVec 6) (cond : BitVec 4) (off : BitVec 18) : Word :=
  (guard ++ op ++ cond ++ off : BitVec 32)

/-- The predicate group (R265). -/
def encP (guard : BitVec 4) (qd qa qb : BitVec 3) (fn : BitVec 7) : Word :=
  (guard ++ (0x0D : BitVec 6) ++ (0 : BitVec 2) ++ qd ++ (0 : BitVec 2) ++ qa ++ (0 : BitVec 2) ++ qb ++ fn : BitVec 32)

/-- The target of a branch: `off` words from the branch itself (R257). -/
def branchTarget (pc : Word) (off : Int) : Word := pc + BitVec.ofInt 32 (4 * off)

/-! ### Undefined encodings -/

/-- `mfs` may read the number (R255). -/
def srReadable (n : Nat) : Bool :=
  (n ≤ 2) || (8 ≤ n && n ≤ 12) || (0x10 ≤ n && n ≤ 0x1F) || (0x20 ≤ n && n ≤ 0x22) || n == 0x30

/-- `mts` may write the number (R255). -/
def srWritable (n : Nat) : Bool :=
  (n ≤ 2) || (8 ≤ n && n ≤ 12) || (0x10 ≤ n && n ≤ 0x1F)

/-- A read of the number is reserved to supervisor state (R255). -/
def srReadPriv (n : Nat) : Bool := 8 ≤ n && n ≤ 12

/-- A write of the number is reserved to supervisor state (R255). -/
def srWritePriv (n : Nat) : Bool := n == 0 || (8 ≤ n && n ≤ 12)

/-- SIZE and U of a load through `ldx` or `lda` are assigned (R266, R268). -/
def loadFormUndef (u : Bool) (size : BitVec 2) : Bool := size = 3 || (u && size = 2)

/-- The word is an undefined encoding in the mode given, pairs of `rep` apart (R273). -/
def undefWord (w : Word) (fmode : Bool) : Bool :=
  let guard := fld w 28 4
  let op := fld w 22 6
  let rd := fld w 17 5
  let ra := fld w 12 5
  let rb := fld w 7 5
  let fn := fld w 0 7
  (if fmode then guard != 0 else guard == 1) ||
  match op with
  | 0x00 => rd != 0 || rb != 0 || fn == 0 || decide (0x0B < fn) || (decide (fn < 8) && ra != 0)
  | 0x01 => decide (0x1F < fn) || (decide (0x1A ≤ fn) && rb != 0) || ((fn == 0x10 || fn == 0x11) && !fmode)
  | 0x03 | 0x04 | 0x05 | 0x06 => false
  | 0x07 => rb != 0
  | 0x08 | 0x09 => bit w 16
  | 0x0A => fld w 20 2 != 0 || decide (12 ≤ fld w 0 4)
  | 0x0B | 0x0C => false
  | 0x0D => fld w 20 2 != 0 || fld w 15 2 != 0 || fld w 10 2 != 0 || decide (4 < fn) || (fn == 4 && fld w 7 3 != 0)
  | 0x10 | 0x11 | 0x12 | 0x13 | 0x14 | 0x15 | 0x16 | 0x17 => false
  | 0x18 => fld w 5 2 != 0 || loadFormUndef (bit w 2) (BitVec.ofNat 2 (fld w 0 2))
  | 0x19 => fld w 5 2 != 0 || bit w 2 || fld w 0 2 == 3
  | 0x1A => fld w 14 3 != 0 || rb != 0 || fld w 5 2 != 0 ||
      loadFormUndef (bit w 2) (BitVec.ofNat 2 (fld w 0 2)) || (bit w 2 && bit w 3)
  | 0x1B => fn != 0 || rd != 0 || fld w 14 3 != 0 || rb != 0
  | 0x1C => decide (3 < fn)
  | 0x1E => ra != 0 || !srReadable (fld w 0 12)
  | 0x1F => rd != 0 || !srWritable (fld w 0 12)
  | 0x20 | 0x21 => false
  | 0x22 => rd != 0 || fld w 0 12 != 0
  | 0x23 => fld w 0 12 != 0
  | 0x24 => rd == 0
  | 0x25 => !fmode || fld w 18 4 == 15
  | 0x26 => false
  | 0x27 => fld w 10 2 == 3 || ra != 0 || fld w 8 2 != 0 || (fld w 10 2 != 0 && rd != 0) ||
      (fld w 10 2 != 1 && fld w 0 8 != 0)
  | _ => true

/-- The general registers that an instruction reads; 32 stands for the flags N and Z (R260-R271). -/
def sourceRegs (w : Word) : List Nat :=
  let rd := fld w 17 5
  let ra := fld w 12 5
  let rb := fld w 7 5
  match fld w 22 6 with
  | 0x00 => [ra]
  | 0x01 => [ra, rb] ++ (if fld w 0 7 = 0x15 then [rd] else [])
  | 0x03 | 0x04 | 0x05 | 0x06 | 0x07 => [ra]
  | 0x09 => [rd]
  | 0x0A => [ra, rb]
  | 0x0B | 0x0C => [ra]
  | 0x10 | 0x11 | 0x12 | 0x13 | 0x14 => [ra]
  | 0x15 | 0x16 | 0x17 => [rd, ra]
  | 0x18 => [ra, rb]
  | 0x19 => [rd, ra, rb]
  | 0x1A => if bit w 3 then [rd] else []
  | 0x1C => [ra, rb]
  | 0x1E => if fld w 0 12 = 0 then [32] else []
  | 0x1F => [ra]
  | 0x22 | 0x23 => [ra]
  | 0x24 => [rd]
  | 0x25 => if [0, 3, 4, 13, 14].contains (fld w 18 4) then [] else [32]
  | 0x27 => if fld w 10 2 = 0 then [rd] else []
  | _ => []

/-- The word may not succeed a `rep`: a branch, another `rep`, or a SYS instruction other than
`nop` (R272). -/
def repSuccessorBad (w : Word) : Bool :=
  let op := fld w 22 6
  (decide (0x20 ≤ op) && decide (op ≤ 0x27)) || (op == 0 && fld w 0 7 != 1)

end Sys2Proof.Machine
end

