-- ==== Sys2Proof/Decode.lean ====
section
/-!
DEFINITION. The command a word spells by the bits of spec/opcode_table.json: the table gives no row any bits, so no word spells
a command by it. The instruction words of a Pip have bits of their own (R257-R271), and `decodePip` gives the command that each
of them spells.
-/

namespace Sys2Proof

/-- The command that `nbits` bits `w` spell by the table: none.
[log 3 DESIGN CHOICE] -/
def decodeTableWord (_nbits _w : Nat) : Option Instr := none

namespace Machine

/-- Bits `lo + n - 1` to `lo` of an instruction word. -/
def bitsOf (w : Word) (lo n : Nat) : BitVec n := w.extractLsb' lo n

/-- The SYS group (R261). -/
def decodeSys (x : Issue) (w : Word) : Instr :=
  let ra := bitsOf w 12 5
  match fld w 0 7 with
  | 1 => .nop x
  | 2 => .brk x
  | 3 => .syscall x
  | 4 => .rti x
  | 5 => .wait x
  | 6 => .isync x
  | 7 => .fenceW x
  | 8 => .cln x ra
  | 9 => .clinv x ra
  | 10 => .inv x ra
  | _ => .iinv x ra

/-- The ALU group (R262). -/
def decodeAlu (x : Issue) (w : Word) : Instr :=
  let rd := bitsOf w 17 5
  let ra := bitsOf w 12 5
  let rb := bitsOf w 7 5
  match fld w 0 7 with
  | 0x00 => .add x rd ra rb
  | 0x01 => .sub x rd ra rb
  | 0x02 => .and x rd ra rb
  | 0x03 => .or x rd ra rb
  | 0x04 => .xor x rd ra rb
  | 0x05 => .andn x rd ra rb
  | 0x06 => .orn x rd ra rb
  | 0x07 => .xnor x rd ra rb
  | 0x08 => .sll x rd ra rb
  | 0x09 => .srl x rd ra rb
  | 0x0A => .sra x rd ra rb
  | 0x0B => .rol x rd ra rb
  | 0x0C => .min x rd ra rb
  | 0x0D => .max x rd ra rb
  | 0x0E => .minu x rd ra rb
  | 0x0F => .maxu x rd ra rb
  | 0x10 => .adc x rd ra rb
  | 0x11 => .sbc x rd ra rb
  | 0x12 => .mul x rd ra rb
  | 0x13 => .mulh x rd ra rb
  | 0x14 => .mulhu x rd ra rb
  | 0x15 => .mac x rd ra rb
  | 0x16 => .div x rd ra rb
  | 0x17 => .divu x rd ra rb
  | 0x18 => .rem x rd ra rb
  | 0x19 => .remu x rd ra rb
  | 0x1A => .clz x rd ra
  | 0x1B => .popc x rd ra
  | 0x1C => .brev x rd ra
  | 0x1D => .bswap x rd ra
  | 0x1E => .sextB x rd ra
  | _ => .sextH x rd ra

/-- The predicate group (R265). -/
def decodePred (x : Issue) (w : Word) : Instr :=
  let qd := bitsOf w 17 3
  let qa := bitsOf w 12 3
  let qb := bitsOf w 7 3
  match fld w 0 7 with
  | 0 => .pand x qd qa qb
  | 1 => .por x qd qa qb
  | 2 => .pxor x qd qa qb
  | 3 => .pandn x qd qa qb
  | _ => .pnot x qd qa

/-- Loads and stores, the address units and the atomic group (R260, R266-R268). -/
def decodeMem (x : Issue) (w : Word) : Instr :=
  let rd := bitsOf w 17 5
  let ra := bitsOf w 12 5
  let rb := bitsOf w 7 5
  let imm := bitsOf w 0 12
  let scale := bitsOf w 3 2
  let size := bitsOf w 0 2
  match fld w 22 6 with
  | 0x10 => .ldw x rd ra imm
  | 0x11 => .ldh x rd ra imm
  | 0x12 => .ldhu x rd ra imm
  | 0x13 => .ldb x rd ra imm
  | 0x14 => .ldbu x rd ra imm
  | 0x15 => .stw x rd ra imm
  | 0x16 => .sth x rd ra imm
  | 0x17 => .stb x rd ra imm
  | 0x18 => .ldx x rd ra rb scale (bit w 2) size
  | 0x19 => .stx x rd ra rb scale size
  | 0x1A => if bit w 3 then .sta x rd (bitsOf w 12 2) (bit w 4) size else .lda x rd (bitsOf w 12 2) (bit w 4) (bit w 2) size
  | 0x1B => .astep x (bitsOf w 12 2)
  | _ => match fld w 0 7 with
    | 0 => .aswap x rd ra rb
    | 1 => .aadd x rd ra rb
    | 2 => .aor x rd ra rb
    | _ => .aand x rd ra rb

/-- The kinds of shift by an immediate (R260). -/
def decodeShift (x : Issue) (w : Word) : Instr :=
  let rd := bitsOf w 17 5
  let ra := bitsOf w 12 5
  let amt := bitsOf w 0 5
  match fld w 5 2 with
  | 0 => .slli x rd ra amt
  | 1 => .srli x rd ra amt
  | 2 => .srai x rd ra amt
  | _ => .roli x rd ra amt

/-- The command that an instruction word of a Pip spells (R257, R260): by guard, major opcode and fields; a word that is an
undefined encoding in the mode of the core is that command (R273). `core` issues it, `fetchUe` and `dataUe` say whether its
fetch or its data access meets an uncorrectable word, and `succ` is the word after it, which a `rep` is decoded with (R272). -/
def decodePip (core : Nat) (fetchUe dataUe fmode : Bool) (w succ : Word) : Instr :=
  let x : Issue := { core, guard := bitsOf w 28 4, fetchUe, dataUe }
  let rd := bitsOf w 17 5
  let ra := bitsOf w 12 5
  let imm := bitsOf w 0 12
  let op := fld w 22 6
  if undefWord w fmode then .undefinedInstruction x w
  else match op with
  | 0x00 => decodeSys x w
  | 0x01 => decodeAlu x w
  | 0x03 => .addi x rd ra imm
  | 0x04 => .andi x rd ra imm
  | 0x05 => .ori x rd ra imm
  | 0x06 => .xori x rd ra imm
  | 0x07 => decodeShift x w
  | 0x08 => .movl x rd (bitsOf w 0 16)
  | 0x09 => .movh x rd (bitsOf w 0 16)
  | 0x0A => .cmp x (bitsOf w 17 3) ra (bitsOf w 7 5) (bitsOf w 4 3) (bitsOf w 0 4)
  | 0x0B => .cmpi x (bitsOf w 17 3) ra imm ((0 : BitVec 1) ++ bitsOf w 20 2 : BitVec 3)
  | 0x0C => .cmpi x (bitsOf w 17 3) ra imm ((1 : BitVec 1) ++ bitsOf w 20 2 : BitVec 3)
  | 0x0D => decodePred x w
  | 0x1E => .mfs x rd imm
  | 0x1F => .mts x imm ra
  | 0x20 => .br x (bitsOf w 0 22)
  | 0x21 => .call x (bitsOf w 0 22)
  | 0x22 => .jr x ra
  | 0x23 => .jalr x rd ra
  | 0x24 => .dbnz x rd (bitsOf w 0 17)
  | 0x25 => .bCc x (bitsOf w 18 4) (bitsOf w 0 18)
  | 0x26 => .dblc x (bitsOf w 0 22)
  | 0x27 => .rep x (bitsOf w 10 2) rd (bitsOf w 0 8) succ
  | _ => decodeMem x w

end Machine

end Sys2Proof
end

