-- ==== Sys2Proof/Machine/Router.lean ====
section
/-!
DEFINITION. The interrupt router (R297-R313): the level of each source, its target, acceptance, end
of interrupt, moderation and MSI-X.
-/

namespace Sys2Proof.Machine

/-! ### Registers of shared blocks used by the levels -/

/-- Register `o` of Vine channel `c` (R321). -/
def chanReg (c o : Nat) : Nat := 0x13020000 + 0x100 * c + o

/-- Register `o` of Ledger bank `g` (R321). -/
def ldgReg (g o : Nat) : Nat := 0x1302E000 + 0x200 * g + o

/-- Register `o` of timer channel `k` (R364). -/
def timerReg (k o : Nat) : Nat := 0x13030000 + 0x100 * k + o

/-- Register `o` of USB port `p` (R430). -/
def usbReg (p o : Nat) : Nat := 0x13050000 + 0x1000 * p + o

/-- Register `o` of pipe `i` of USB port `p` (R430). -/
def pipeReg (p i o : Nat) : Nat := usbReg p (0x100 + 0x20 * i + o)

/-- Register `o` of the queue manager (R321). -/
def qmReg (o : Nat) : Nat := 0x1302C000 + o

/-- Register `o` of PCIe port `p` in the management block (R431). -/
def peReg (p o : Nat) : Nat := 0x1000A100 + 0x40 * p + o

/-- Register `o` of Sector `n`, slot 0 (R19). -/
def secReg (n o : Nat) : Nat := 0x11000000 + 0x400000 * n + o

/-! ### The input of a source -/

/-- The line of the interrupt group that LINE of a channel or a bank selects (R322, R338): `own` is
the first line of its owner and `n` how many it has. -/
def lineOf (own n line : Nat) : Nat := own + min line (n - 1)

/-- The Vine line of channel `c` (R322). -/
def State.chanLine (s : State) (c : Nat) : Nat :=
  let l := fld (s.dreg (chanReg c 0)) 4 3
  if c < 56 then lineOf (c / 14 * 7) 7 l else if c < 60 then lineOf 28 2 l else lineOf 30 2 l

/-- The Vine line of Ledger bank `g` (R322). -/
def State.ldgLine (s : State) (g : Nat) : Nat :=
  let l := fld (s.dreg (ldgReg g 0x104)) 8 3
  if g < 4 then lineOf (7 * g) 7 l else lineOf 28 2 l

/-- Vine line `n` is high (R322). -/
def State.vineLine (s : State) (n : Nat) : Bool :=
  ((List.range 64).any fun c => s.chanLine c == n && fld (s.dreg (chanReg c 0x18)) 0 3 != 0) ||
  ((List.range 5).any fun g => s.ldgLine g == n && bit (s.dreg (ldgReg g 0x104)) 3)

/-- A Pip of the stage is halted (R296). -/
def State.anyHalted (s : State) (i : Nat) : Bool :=
  (List.range 8).any fun n =>
    match s.pipPhys i n with
    | some k => (s.core k).run = .halted
    | none => false

/-- The input of stage-logical source `o` of stage `i` (R299). -/
def State.stageInput (s : State) (i o : Nat) : Bool :=
  let st := s.stage i
  match o with
  | 0 => bit (st.reg 0x40C) 0
  | 1 => bit (st.reg 0x40C) 1
  | 2 => bit (st.reg 0x40C) 2
  | 3 => st.reg 0x440 &&& st.reg 0x444 != 0
  | 4 => bit (st.reg 0x1B0038) 0 || bit (st.reg 0x1B0038) 1
  | 5 => bit (st.reg 0x1B0038) 2
  | 6 => fld (st.reg 0x200) 0 2 != 0
  | 7 => bit (st.reg 4) 9
  | 16 => fld (st.reg 0x190800) 0 8 != 0
  | 17 => st.reg 0x1904A0 != 0
  | 18 => fld (st.reg 0x19060C) 2 2 != 0
  | 19 => st.reg 0x1A0010 &&& 0x7A != 0
  | 20 => bit (st.reg 0x1A001C) 0
  | 21 => bit (st.reg 0x1A001C) 1
  | 22 => bit (st.reg 0x1A001C) 2
  | 23 => bit (st.reg 0x1A001C) 3
  | 24 => bit (st.reg 0x270018) 0
  | 25 => bit (st.reg 0x270018) 1
  | 26 => fld (st.reg 0x270018) 2 5 != 0
  | 27 => s.anyHalted i
  | _ =>
    if 8 ≤ o && o ≤ 15 then bit (st.reg (0x110080 + (o - 8) * 0x10000)) 1
    else if 32 ≤ o && o < 64 then bit (s.dreg (0x13003100 + 4 * i)) (o - 32)
    else false

/-- Sources whose event has no status bit: the end of an image load, Keeper events, Spoke and JTAG
events (R300, R418).
[log 129 DEDUCED] -/
def pulseSource (n : Nat) : Bool :=
  n == 6 || n == 8 || (decide (489 ≤ n) && decide (n ≤ 493))

/-- The input of a source but for source 7 (R299, R300, R348, R411, R418). -/
def State.plainInput (s : State) (n : Nat) : Bool :=
  if pulseSource n then (s.irq n).pulse
  else if n < 4 then bit (s.sector n).fault 31
  else if n < 32 then
    match n with
    | 4 => (List.range 4).any fun k =>
        bit (s.dreg (0x11000000 + k * 0x400000 + 0x1F0004)) 31 || bit (s.dreg (0x10005004 + 0x10 * k)) 31
    | 5 => bit (s.dreg 0x10000200) 31
    | 9 => bit (s.dreg 0x10007024) 0
    | 10 => bit (s.dreg 0x10007024) 1
    | 11 => (List.range 4).any fun p => fld (s.dreg (0x1000B004 + 0x200 * p)) 0 2 != 0
    | _ => false
  else if n < 288 then s.stageInput ((n - 32) / 64) ((n - 32) % 64)
  else if n < 320 then
    fld (s.dreg (timerReg (n - 288) 0x48)) 0 9 &&& fld (s.dreg (timerReg (n - 288) 0x4C)) 0 9 != 0
  else if n < 344 then (s.mb (n - 320)).state = .posted
  else if n < 368 then (s.mb (n - 344)).state = .done
  else if n < 400 then s.vineLine (n - 368)
  else if n < 416 then
    match n with
    | 400 => s.tally.alarm
    | 401 => bit (s.dreg (ldgReg 4 0x104)) 3 || bit (s.dreg (qmReg 4)) 25
    | 402 => fld (s.dreg (qmReg 0xC)) 0 2 != 0
    | 403 => s.store.pfw
    | 404 => fld (s.dreg 0x1306000C) 0 3 != 0
    | 405 => fld (s.dreg 0x1306010C) 0 3 != 0
    | 406 => s.dreg 0x13060208 &&& s.dreg 0x1306020C &&& 0x1F0000 != 0
    | 407 => bit (s.dreg 0x1306040C) 0
    | _ => false
  else if n < 480 then s.qi.getLsbD (n - 416)
  else
    match n with
    | 480 => s.dreg (peReg 0 0xC) &&& 0x70000 != 0
    | 481 => bit (s.dreg (peReg 0 0xC)) 19
    | 482 => s.dreg (peReg 1 0xC) &&& 0x70000 != 0
    | 483 => bit (s.dreg (peReg 1 0xC)) 19
    | _ =>
      if 484 ≤ n && n < 488 then
        let p := n - 484
        s.dreg (usbReg p 0) &&& s.dreg (usbReg p 4) &&& 0xE0000 != 0 ||
          (bit (s.dreg (usbReg p 4)) 16 && (List.range 16).any fun i => bit (s.dreg (pipeReg p i 0x14)) 9)
      else false

/-! ### Configuration -/

/-- Sense mode; mailbox sources are level high (R301, R314). -/
def State.irqSense (s : State) (n : Nat) : Nat :=
  if 320 ≤ n && n < 368 then 0 else fld (s.dreg (0x13000000 + 8 * n)) 0 3

/-- A level source: SENSE 0, 1 and 5-7 (R301). -/
def State.irqLevel (s : State) (n : Nat) : Bool :=
  let k := s.irqSense n
  !(k == 2 || k == 3 || k == 4)

/-- Target; 24-31 name none. A doorbell targets its receiver and an acknowledgement its SENDER (R307,
R314).
[log 156 DEDUCED] -/
def State.irqTarget (s : State) (n : Nat) : Nat :=
  if 320 ≤ n && n < 344 then n - 320
  else if 344 ≤ n && n < 368 then (s.mb (n - 344)).sender
  else fld (s.dreg (0x13000000 + 8 * n)) 8 5

/-- Priority; an acknowledgement has the one its doorbell wrote (R307, R314). -/
def State.irqPri (s : State) (n : Nat) : Nat :=
  if 344 ≤ n && n < 368 then (s.mb (n - 344)).ackPri
  else fld (s.dreg (0x13000000 + 8 * n)) 4 3

/-- The port is an endpoint with its link up, in L0 or L1 (R307, R310). -/
def State.hostUp (s : State) (p : Nat) : Bool :=
  !s.straps.getLsbD (1 + p) && (vget {} s.pe p).status.getLsbD 0 &&
    (vget {} s.pe p).status.extractLsb' 8 2 != 2 && (vget {} s.pe p).status.extractLsb' 8 2 != 3

/-- The Pip is parked and its slot is in retention, as in DOZE from step 4 of the entry on (R395, R399). -/
def State.retained (s : State) (k : Nat) : Bool :=
  (s.core k).parked && (s.mode = .doze || (s.power.target = .doze && decide (4 ≤ s.power.step)))

/-- POWER of a target (R307): 0 running, 1 in `wait`, 2 retention, 3 off, 4 halted, 5 lost. -/
def State.targetPower (s : State) (t : Nat) : Nat :=
  let ofRun : CoreRun → Nat
    | .stopped => 3 | .running => 0 | .waiting => 1 | .retention => 2 | .halted => 4
  if t < 20 then
    if (s.pipOf t).isNone then 3
    else if (s.core t).parked && s.mode = .sleep then 3
    else if s.retained t then 2
    else ofRun (s.core t).run
  else if t < 22 then
    if vget false s.keeper.lost (t - 20) then 5
    else ofRun (s.core t).run
  else if t < 24 then (if s.hostUp (t - 22) then 0 else 3)
  else 3

/-- The target is powered (R310). -/
def State.powered (s : State) (t : Nat) : Bool :=
  let p := s.targetPower t
  p != 3 && p != 5

/-! ### Pending, held, deliverable -/

/-- A source pending at a target that is not powered is stranded (R310). -/
def State.strandedIf (s : State) (n : Nat) (pending : Bool) : Bool :=
  pending && decide (s.irqTarget n < 24) && !s.powered (s.irqTarget n)

/-- The asserted input of a level source (R301). -/
def State.levelHigh (s : State) (n : Nat) (input : Bool) : Bool := input != (s.irqSense n == 1)

/-- PENDING but for source 7: an edge source keeps it; a level source drops it with its input (R301). -/
def State.plainPending (s : State) (n : Nat) : Bool :=
  (s.irq n).pending && (!s.irqLevel n || s.levelHigh n (s.plainInput n))

/-- Source 7 is high while any source is stranded (R300). -/
def State.anyStranded (s : State) : Bool :=
  s.irqs.any fun e => e.1 != 7 && s.strandedIf e.1 (s.plainPending e.1)

/-- The input of a source before sense (R299, R300). -/
def State.sourceInput (s : State) (n : Nat) : Bool :=
  if n = 7 then s.anyStranded else s.plainInput n

/-- PENDING of a source (R301). -/
def State.isPending (s : State) (n : Nat) : Bool :=
  (s.irq n).pending && (!s.irqLevel n || s.levelHigh n (s.sourceInput n))

/-- STRANDED of a source (R310). -/
def State.isStranded (s : State) (n : Nat) : Bool := s.strandedIf n (s.isPending n)

/-- The target is a Pip in `wait` or retention, which bypasses moderation (R306). -/
def State.bypassed (s : State) (n : Nat) : Bool :=
  let t := s.irqTarget n
  decide (t < 20) && ((s.core t).run = .waiting || (s.core t).run = .retention || s.retained t)

/-- A pending source is held by moderation (R305, R306). -/
def State.isHeld (s : State) (n : Nat) : Bool :=
  let m := s.dreg (0x13000004 + 8 * n)
  let q := s.irq n
  let min := 300 * fld m 0 16
  let due := decide (q.ta + min ≤ s.peri) && (decide (fld m 16 8 ≤ q.events) || decide (q.t1 + min ≤ s.peri))
  !(decide (344 ≤ n) && decide (n < 368)) && min != 0 && !due && !s.bypassed n

/-- A source is deliverable (R304). -/
def State.deliverable (s : State) (n : Nat) : Bool :=
  s.isPending n && !(s.irq n).active && !s.isHeld n && s.powered (s.irqTarget n)

/-- The better of two sources: higher priority, then lower number (R291, R304). -/
def State.better (s : State) (a b : Nat) : Nat :=
  if s.irqPri a < s.irqPri b then b
  else if s.irqPri b < s.irqPri a then a
  else min a b

/-- The deliverable sources of a target. -/
def State.deliverables (s : State) (t : Nat) : List Nat :=
  (s.irqs.map Prod.fst).filter fun n => s.irqTarget n == t && s.deliverable n

/-- The source presented to a target (R304). -/
def State.presented (s : State) (t : Nat) : Option Nat :=
  match s.deliverables t with
  | [] => none
  | n :: r => some (r.foldl s.better n)

/-! ### Events -/

/-- One event counted (R305): the first since the last acceptance sets t1.
[log 39 DEDUCED] -/
def Irq.count (q : Irq) (now : Nat) : Irq :=
  { q with events := q.events + 1, t1 := if q.events = 0 then now else q.t1 }

/-- A source sampled at an edge of its input (R301): each assertion of a level source and each edge of the selected kind is
an event. PENDING that becomes 1 with no event since the last acceptance counts one (R305).
[log 39 DEDUCED] -/
def State.sampleIrq (s : State) (n : Nat) : State :=
  let q := s.irq n
  let now := s.sourceInput n
  let lvl := s.irqLevel n
  let event :=
    if lvl then s.levelHigh n now && !s.levelHigh n q.input
    else match s.irqSense n with
      | 2 => now && !q.input
      | 3 => !now && q.input
      | _ => now != q.input
  let q1 := if event then q.count s.peri else q
  let pend := if lvl then s.levelHigh n now && !q.active else q.pending || event
  let q2 := if pend && !q.pending && q1.events == 0 then q1.count s.peri else q1
  s.setIrq n { q2 with input := now, pending := pend }

/-- Acceptance of a source by a target (R302): the event of a source without a status bit ends with it. -/
def State.accept (s : State) (n t : Nat) : State :=
  let q := s.irq n
  s.setIrq n { q with
    pending := false, active := true, accTgt := t, events := 0, ta := s.peri, pulse := false, input := q.input && !pulseSource n }

/-- End of service of a source: a level source is re-sampled, and pending with no event counts one
(R303, R305). -/
def State.endService (s : State) (n : Nat) : State :=
  let q := { s.irq n with active := false, accTgt := 31 }
  let s := s.setIrq n q
  if s.irqLevel n then
    let now := s.sourceInput n
    let pend := s.levelHigh n now
    s.setIrq n { (if pend && q.events == 0 then q.count s.peri else q) with input := now, pending := pend }
  else s

/-- End of interrupt written by target `t` (R303). -/
def State.eoi (s : State) (t n : Nat) : State :=
  if (s.irq n).active && (s.irq n).accTgt == t then s.endService n
  else { s with badEoi := bset s.badEoi t true }

/-! ### Host targets -/

/-- MSI-X vector `p` sent by port `h`, or made pending while its entry is masked (R313, R415). -/
def PePort.send (e : PePort) (p : Nat) : PePort :=
  if bit (sget (fun k => if k % 4 = 3 then 1 else 0) e.msix (4 * p + 3)) 0 then { e with pba := bset e.pba p true }
  else { e with sent := sset (fun _ => 0) e.sent p (sget (fun _ => 0) e.sent p + 1) }

/-- The vectors of a host target brought up to date: `p` goes out when its set becomes non-empty, and
again after a claim (`claimed`) that leaves it non-empty (R313). -/
def State.hostSync (s : State) (h : Nat) (claimed : Option Nat) : State :=
  let ds := s.deliverables (22 + h)
  (List.range 8).foldl (fun s p =>
    let full := ds.any fun n => s.irqPri n == p
    let e := vget {} s.pe h
    let e' := if full && (!e.nonEmpty.getLsbD p || claimed == some p) then e.send p else e
    { s with pe := vset s.pe h { e' with nonEmpty := bset e'.nonEmpty p full } }) s

/-- Both host targets brought up to date. -/
def State.hostSyncAll (s : State) : State := (s.hostSync 0 none).hostSync 1 none

/-- What may make a source deliverable: a set that has become empty before it is seen empty, and a set that it fills sends
its vector (R313). -/
def State.hostStep (s : State) (f : State → State) : State := (f s.hostSyncAll).hostSyncAll

/-- An event of a source without a status bit (R300, R301, R418): each counts, and its input stays high until the source is
accepted or cleared.
[log 39 DEDUCED, 129 DEDUCED] -/
def State.pulse (s : State) (n : Nat) : State :=
  s.hostStep fun s =>
    let q := s.irq n
    let rises := s.irqSense n != 1 && s.irqSense n != 3
    let q := if rises then q.count s.peri else q
    s.setIrq n { q with pulse := true, input := true, pending := if s.irqLevel n then rises && !q.active else q.pending || rises }

/-! ### Commands -/

/-- An edge or assertion of a source (R301); a host target may then send its vector (R313). -/
def execIrqSourceEvent (src : Nat) (s : State) : Res := .next (s.hostStep fun s => s.sampleIrq src)

/-- MIN_INT of a held source expires (R305): the source is deliverable from the time on at which both conditions hold, and a
host target then sends its vector (R313). -/
def execModerationRelease (src : Nat) (s : State) : Res :=
  if s.isPending src && !s.isHeld src then .next s.hostSyncAll else .next s

/-- A read of a claim register by target `t` accepts what is presented (R302, R313). -/
def State.claim (s : State) (t : Nat) : State :=
  match s.presented t with
  | none => s
  | some n =>
    let p := s.irqPri n
    let s := s.accept n t
    if 22 ≤ t then s.hostSync (t - 22) (some p) else s

/-- A claim (R302). -/
def execIrqClaim (t : Nat) (s : State) : Res := .next (s.claim t)

/-- End of interrupt (R303). -/
def execIrqEoi (t src : Nat) (s : State) : Res := .next (s.hostStep fun s => s.eoi t src)

/-- What an initiator may write of a thing owned by stage `owner` (none: the Warden's): stage software
its own stage's, the Warden and debug everything (R12, R298, R308, R428). -/
def State.mayWrite (s : State) (i : Initiator) (owner : Option Nat) : Bool :=
  match i with
  | .warden _ | .loader => true
  | .debug => s.debugOpen
  | .host _ => false
  | _ => match s.initStage i, owner with
    | some a, some b => a == b
    | _, _ => false

/-- A write of a stage's software sources (R308, R312): `clear` is `IRQ_SWCLR`. -/
def State.swWrite (s : State) (i : Initiator) (n : Nat) (v : Word) (clear : Bool) : State :=
  if s.mayWrite i (some n) then
    (s.modDreg (0x13003100 + 4 * n) fun w => if clear then w &&& ~~~v else w ||| v)
  else s.accViol i (0x13003100 + (if clear then 0x10 else 0) + 4 * n)

/-- A write of `IRQ_SWSET` (R308, R312). -/
def execIrqSwset (i : Initiator) (n : Nat) (v : Word) (s : State) : Res := .next (s.swWrite i n v false)

/-- A write of `IRQ_SWCLR` (R308, R312). -/
def execIrqSwclr (i : Initiator) (n : Nat) (v : Word) (s : State) : Res := .next (s.swWrite i n v true)

end Sys2Proof.Machine
end

