-- ==== Sys2Proof/Machine/Beam.lean ====
section
/-!
DEFINITION. The timing generator and the port controller of a stage's beam port (R97-R118), and the
EDID reads of the Warden (R433).
-/

namespace Sys2Proof.Machine

/-! ### Timings -/

/-- DisplayPort payload bits per second of one lane at a LINK_RATE, times 132 (R53): 0.8 of the rate up
to 8.1 Gbit/s, 128/132 at 10 Gbit/s. -/
def laneBits132 (rate : Nat) : Nat :=
  match rate with
  | 0 => 1620000000 * 8 * 132 / 10
  | 1 => 2700000000 * 8 * 132 / 10
  | 2 => 5400000000 * 8 * 132 / 10
  | 3 => 8100000000 * 8 * 132 / 10
  | _ => 10000000000 * 128

/-- The DisplayPort link carries the timing on `lanes` lanes (R53). -/
def Timing.dpFits (t : Timing) (lanes : Nat) : Bool :=
  decide (t.pixclk * 3 * t.bpc * 132 ≤ lanes * laneBits132 t.rate)

/-- OUTPUTS enables DisplayPort (R53). -/
def Timing.dp (t : Timing) : Bool := t.outputs % 2 == 1

/-- OUTPUTS enables HDMI (R53). -/
def Timing.hdmi (t : Timing) : Bool := t.outputs / 2 % 2 == 1

/-- OUTPUTS enables analog RGB (R53). -/
def Timing.analog (t : Timing) : Bool := t.outputs / 4 % 2 == 1

/-- The checks of R53 on a timing. -/
def Timing.ok53 (t : Timing) (twin : Bool) : Bool :=
  decide (4000000 ≤ t.pixclk) && decide (t.pixclk ≤ 1200000000) &&
  decide (t.hactive ≤ if twin then 8192 else 4096) && decide (t.vtotal ≤ 4095) &&
  decide (t.hactive ≤ t.hss) && decide (t.hss < t.hse) && decide (t.hse ≤ t.htotal) &&
  decide (t.vactive ≤ t.vss) && decide (t.vss < t.vse) && decide (t.vse ≤ t.vtotal) &&
  !(t.dp && t.hdmi) && decide (t.outputs ≠ 0) && decide (t.outputs < 8) &&
  (if t.dp then t.lanes == 1 || t.lanes == 2 || t.lanes == 4 else t.lanes == 0) &&
  decide (t.rate ≤ 4) && (t.bpc == 8 || t.bpc == 10) && decide (t.sync ≤ 2) && decide (t.colour ≤ 1) &&
  (t.latchLine == 0xFFFF || (!t.late && decide (t.vactive ≤ t.latchLine) && decide (t.latchLine + 3 ≤ t.vtotal))) &&
  (!t.analog || decide (t.pixclk ≤ 330000000)) &&
  (!t.hdmi || decide (t.pixclk * t.bpc ≤ 8 * 600000000)) &&
  (!t.dp || t.dpFits t.lanes)

/-- The checks of R105 on a timing. -/
def Timing.ok105 (t : Timing) (twin : Bool) : Bool :=
  decide (t.vactive + (if t.interlace then 4 else 3) ≤ t.vtotal) &&
  (!t.interlace || t.latchLine == 0xFFFF || decide (t.latchLine + 4 ≤ t.vtotal)) &&
  (!twin || (t.htotal % 2 == 0 && t.hactive % 2 == 0 && t.hss % 2 == 0 && t.hse % 2 == 0 && decide (8000000 ≤ t.pixclk)))

/-- Lines of a field (R106). -/
def Timing.lines (t : Timing) (field : Bool) : Nat := if t.interlace && field then t.vtotal - 1 else t.vtotal

/-- The latch line of a field (R111). -/
def Timing.latchAt (t : Timing) (field : Bool) : Nat :=
  if t.late then t.lines field - 3
  else if t.latchLine = 0xFFFF then t.vactive else t.latchLine

/-- The HDMI repetition factor for the port's pixel clock (R99). -/
def Timing.repeatOf (t : Timing) (twin : Bool) : Nat :=
  let f := if twin then t.pixclk / 2 else t.pixclk
  if 25000000 ≤ f then 1 else if 25000000 ≤ 2 * f then 2 else if 25000000 ≤ 4 * f then 4 else 8

/-- SEG_PIX of a running raster (R34, R108). -/
def Timing.segPix (t : Timing) (twin : Bool) : Nat :=
  min 64 ((if twin then t.pixclk / 2 else t.pixclk) * 4 / 10000000)

/-- The HDMI character rate is above 340 MHz (R97, R114). -/
def Timing.fastHdmi (t : Timing) : Bool := decide (8 * 340000000 < t.pixclk * t.bpc)

/-- The mix lead ML (R201): 16 port pixels after the fixed stage; `attract` halves FAB (R28). -/
def Timing.mixLead (t : Timing) (twin attract : Bool) : Nat :=
  min 144 (104 + 16 * (if attract then 600000000 else 1200000000) * (if twin then 2 else 1) / t.pixclk)

/-! ### The staging copy -/

/-- The staging copy as a timing (R109). -/
def Stage.staged (st : Stage) : Timing :=
  let m := st.reg 0x424
  { pixclk := (st.reg 0x410).toNat
    htotal := fld (st.reg 0x414) 16 16, hactive := fld (st.reg 0x414) 0 16
    hse := fld (st.reg 0x418) 16 16, hss := fld (st.reg 0x418) 0 16
    vtotal := fld (st.reg 0x41C) 16 16, vactive := fld (st.reg 0x41C) 0 16
    vse := fld (st.reg 0x420) 16 16, vss := fld (st.reg 0x420) 0 16
    outputs := fld m 0 3, lanes := fld m 4 3, rate := fld m 8 3, bpc := fld m 12 4
    interlace := bit m 16, hpos := bit m 17, vpos := bit m 18, sync := fld m 19 2
    late := bit m 21, compat := bit m 22, colour := fld m 23 2
    latchLine := fld (st.reg 0x428) 0 16, latTol := (st.reg 0x42C).toNat }

/-- `TIM_MODE` of a timing (R109). -/
def Timing.modeWord (t : Timing) : Word :=
  wd (t.outputs + 0x10 * t.lanes + 0x100 * t.rate + 0x1000 * t.bpc + 0x10000 * t.interlace.toNat +
    0x20000 * t.hpos.toNat + 0x40000 * t.vpos.toNat + 0x80000 * t.sync + 0x200000 * t.late.toNat +
    0x400000 * t.compat.toNat + 0x800000 * t.colour)

/-- A timing written into the staging copy (R109). -/
def Stage.stageTiming (st : Stage) (t : Timing) : Stage :=
  let st := (st.setReg 0x410 (wd t.pixclk)).setReg 0x414 (wd (t.htotal * 0x10000 + t.hactive))
  let st := (st.setReg 0x418 (wd (t.hse * 0x10000 + t.hss))).setReg 0x41C (wd (t.vtotal * 0x10000 + t.vactive))
  let st := (st.setReg 0x420 (wd (t.vse * 0x10000 + t.vss))).setReg 0x424 t.modeWord
  (st.setReg 0x428 (wd t.latchLine)).setReg 0x42C (wd t.latTol)

/-- Sets `BEAM_EVENTS.TIMING` (R109). -/
def Stage.timingEvent (st : Stage) : Stage := st.setRegBit 0x40C 2

/-- The staging copy checked and committed, or refused (R110). -/
def Stage.commitTiming (st : Stage) : Stage :=
  let t := st.staged
  let p := st.beam.primary
  let ok := t.ok53 st.twin && t.ok105 st.twin &&
    (!t.dp || p.dp) && (!t.hdmi || p.hdmi) && (!t.analog || p.analog) && decide (t.lanes ≤ p.lanes)
  if ok then { st with beam := { st.beam with pending := some t } }
  else (st.setRegBit 0x434 1).timingEvent

/-- The timing in force copied into the staging copy (R109, R118). -/
def Stage.revertTiming (st : Stage) : Stage := st.stageTiming st.beam.inForce

/-- A write of `TIM_COMMIT`: COMMIT is ignored if REVERT is also 1 (R109). -/
def Stage.timCommit (st : Stage) (v : Word) : Stage :=
  if bit v 1 then st.revertTiming else if bit v 0 then st.commitTiming else st

/-- `TIM_COMMIT.COMMIT` (R110). -/
def execTimCommit (s : Nat) (st : State) : Res := .next (st.modStage s (·.timCommit 1))

/-- `TIM_COMMIT.REVERT` (R109). -/
def execTimRevert (s : Nat) (st : State) : Res := .next (st.modStage s (·.timCommit 2))

/-! ### Link state -/

/-- The digital output in state `d` at a step of R117, with no port of it up yet. -/
def Beam.setDigital (b : Beam) (d : Link) (step : Nat) : Beam :=
  { b with digital := d, trainStep := step, showNext := false, ready := 0 }

/-- The digital output enabled by a timing starts: DisplayPort trains, HDMI shows black until its PLL
locks (R102, R114). -/
def Beam.startDigital (b : Beam) (t : Timing) : Beam :=
  let b := b.setDigital (if t.dp then .training else if t.hdmi then .black else .off) 0
  { b with lanesNow := if t.dp then t.lanes else 0, rateNow := if t.dp then t.rate else 0, fromLine0 := false }

/-- Embedded audio cannot be carried over HDMI with a short blanking (R121). -/
def Timing.audioOff (t : Timing) (twin : Bool) : Bool :=
  t.hdmi && decide ((t.htotal - t.hactive) * t.repeatOf twin < 64)

/-- The timing that applies at the next frame boundary, if it is another: a committed one goes before the port
controller's own (R114, R117). -/
def Beam.nextTiming (b : Beam) : Option Timing := b.waiting.orElse fun _ => b.linkNext

/-- A waiting timing applied at the frame boundary (R114, R115, R118); a link lost meanwhile starts again from step 1 of
R117. With a committed timing or on the return to the primary one the fallback counts again as not tried, and the new
raster starts in field 0.
[log 142 DESIGN CHOICE, 143 DESIGN CHOICE] -/
def Beam.applyTiming (b : Beam) (t : Timing) (twin : Bool) : Beam :=
  let o := b.inForce
  let fb := b.waiting.isNone && !b.onFallback && b.linkNext.isSome
  let clk := decide (t.pixclk ≠ o.pixclk)
  let out := t.dp != o.dp || t.hdmi != o.hdmi
  let lost := b.trainStep != 0
  let link := t.dp && (decide (t.lanes ≠ o.lanes) || decide (t.rate ≠ o.rate) || decide (b.lanesNow ≠ t.lanes))
  let tmds := t.hdmi && (t.fastHdmi != o.fastHdmi || decide (t.repeatOf twin ≠ o.repeatOf twin))
  let b1 := if clk || out || lost || link || tmds then { b.startDigital t with fromLine0 := clk || out } else b
  let b2 := if lost && t.dp then { b1 with trainStep := 1 } else b1
  let an : Link := if !t.analog then .off else if clk then .black else .running
  { b2 with
    inForce := t, waiting := none, linkNext := none, onFallback := fb
    fbTried := fb, analog := an, hold := clk, locked := !clk, field := false
    audioOff := t.audioOff twin }

/-- Digital output shown again from line 0, and the DACs after a relock (R102, R114). -/
def Beam.showAt (b : Beam) : Beam :=
  { b with
    digital := if b.showNext then .running else b.digital
    analog := if b.analog = .black && !b.hold then .running else b.analog
    showNext := false }

/-- Every enabled output shows the raster (R109 LINK_UP). -/
def Beam.linkUp (b : Beam) : Bool :=
  let t := b.inForce
  b.run && !b.hold && (!(t.dp || t.hdmi) || b.digital = .running)

/-- A beam changed by `f`: a change of LINK_UP sets the TIMING event (R109). -/
def Stage.modBeam (st : Stage) (f : Beam → Beam) : Stage :=
  let b := f st.beam
  let st' := { st with beam := b }
  if st.beam.linkUp = b.linkUp then st' else st'.timingEvent

/-- The stage that drives beam port `p`, if any (R20, R107). -/
def State.portStage (s : State) (p : Nat) : Option Nat :=
  (List.range 4).find? fun i =>
    let st := s.stage i
    st.phase ≠ .empty && (st.portA == p || (st.twin && st.portB == p))

/-- The stage of a port changed by `f`. -/
def State.modPort (s : State) (p : Nat) (f : Stage → Stage) : State :=
  match s.portStage p with
  | none => s
  | some i => s.modStage i f

/-- A port's pixel synthesizer locks after a commit: its raster begins at pixel 0 of its latch line, an
interlaced one in field 1 (R116). -/
def Beam.start (b : Beam) (twin : Bool) (now : Nat) : Beam :=
  let t := b.inForce
  let f := t.interlace
  { b.startDigital t with
    locked := true, run := true, hold := false, field := f, line := t.latchAt f, nextLine := t.latchAt f, lineAt := now
    latched := false, analog := if t.analog then .running else .off, audioOff := t.audioOff twin }

/-- The mix set to begin at the next line of the beam (R181, R201). -/
def Stage.startMix (st : Stage) : Stage :=
  { st with prism := { st.prism with mixLine := st.beam.nextLine, mixSeg := 0 } }

/-- ML fixed for the timing in force (R201). -/
def Stage.fixLead (st : Stage) (attract : Bool) : Stage :=
  { st with chord := { st.chord with lead := st.beam.inForce.mixLead st.twin attract } }

/-- `SYNTH_LOCKED` (R71, R116, R403): of a loaded stage whose raster has not begun, or of one that restarts after a
wake. -/
def execSynthLocked (p : Nat) (s : State) : Res :=
  match s.portStage p with
  | none => .next s
  | some i =>
    let st := s.stage i
    if (st.phase = .loaded || st.restart) && !st.beam.run && st.portA == p then .next (s.modStage i fun st => (((st.modBeam (·.start st.twin s.root)).startMix).fixLead s.slow).timingEvent)
    else .next s

/-- The next lane count below `n` at which the timing still fits (R117 step 2). -/
def Timing.fewerLanes (t : Timing) (n : Nat) : Option Nat :=
  [2, 1].find? fun l => decide (l < n) && t.dpFits l

/-- The next step of the link-loss procedure (R117). While a committed timing waits, that one applies at the frame
boundary in place of the fallback. -/
def Beam.nextLinkStep (b : Beam) : Beam :=
  let t := b.inForce
  if b.trainStep = 0 then b.setDigital .training 1
  else
    match (if t.dp then t.fewerLanes b.lanesNow else none) with
    | some l => { b.setDigital .training 2 with lanesNow := l }
    | none =>
      match b.fallback with
      | some f =>
        if b.fbTried || b.onFallback then b.setDigital .training 4
        else { b.setDigital .training 3 with linkNext := some f, fbTried := true }
      | none => b.setDigital .training 4

/-- A link-loss step, with its event (R117). -/
def Stage.linkStep (st : Stage) : Stage := ((st.modBeam Beam.nextLinkStep).setRegBit 0x434 11).timingEvent

/-- `LINK_LOSS`: the sink reports loss, or a TMDS PLL fails to lock, which ends a training of R117 (R117). -/
def execLinkLoss (p : Nat) (s : State) : Res :=
  .next (s.modPort p fun st =>
    if st.beam.inForce.dp || st.beam.inForce.hdmi then
      (if st.beam.trainStep = 0 || (st.beam.inForce.hdmi && decide (st.beam.trainStep < 3)) then st.linkStep
       else (st.setRegBit 0x434 11).timingEvent)
    else st)

/-- A port of the stage is up; the digital output starts to show when every port of the stage is (R107). -/
def Beam.portUp (b : Beam) (twin second : Bool) (up : Beam → Beam) : Beam :=
  let b := { b with ready := bset b.ready (if second then 1 else 0) true }
  if b.ready.getLsbD 0 && (!twin || b.ready.getLsbD 1) then up b else b

/-- Port `p` of the stage is up: what the stage then shows (R107). -/
def Stage.portUp (st : Stage) (p : Nat) (up : Beam → Beam) : Stage :=
  st.modBeam (·.portUp st.twin (st.twin && st.portA != p) up)

/-- `LINK_TRAINING_END`: success shows the raster from line 0 of the next frame, once every port of the stage has trained;
failure takes the next step (R107, R114, R117). -/
def execLinkTrainingEnd (p : Nat) (ok : Bool) (s : State) : Res :=
  .next (s.modPort p fun st =>
    if st.beam.digital ≠ .training then st
    else if ok then st.portUp p fun b => { b with digital := .black, trainStep := 0, showNext := true }
    else if st.beam.trainStep = 3 then st
    else st.linkStep)

/-- `TMDS_PLL_LOCK`: the HDMI output shows the picture, after a change of PIXCLK or OUTPUTS from line 0 of a frame, once
every port of the stage has locked (R107, R114). -/
def execTmdsPllLock (p : Nat) (s : State) : Res :=
  .next (s.modPort p fun st =>
    if st.beam.inForce.hdmi && (st.beam.digital = .black || st.beam.digital = .training) then
      st.portUp p fun b =>
        if b.fromLine0 then { b with digital := .black, trainStep := 0, showNext := true, fromLine0 := false }
        else { b with digital := .running, trainStep := 0 }
    else st)

/-- What a rise of HPD starts: back from the fallback to the primary timing at the next frame boundary, unless a committed
timing applies there, and training with every lane of the timing (R117, R118).
[log 143 DESIGN CHOICE] -/
def Beam.hpdRise (b : Beam) : Beam :=
  let t := b.inForce
  let b := { b with fbTried := false, linkNext := if b.onFallback then some b.primary else none }
  if t.dp && (b.digital ≠ .running || b.lanesNow ≠ t.lanes) then
    { b.setDigital .training 1 with lanesNow := t.lanes }
  else if t.hdmi && b.digital = .training then b.setDigital .black 0
  else b

/-- What a fall of HPD does to a digital output: it waits to train until HPD rises.
[log 134 DESIGN CHOICE] -/
def Beam.hpdFall (b : Beam) : Beam :=
  if b.inForce.dp || b.inForce.hdmi then b.setDigital .training 4 else b

/-- `HPD_CHANGE` (R109, R117, R118). -/
def execHpdChange (p : Nat) (level : Bool) (s : State) : Res :=
  if s.hpd.getLsbD p = level then .next s
  else
    let s := { s with hpd := bset s.hpd p level }
    .next (s.modPort p fun st =>
      (if st.beam.run then st.modBeam (if level then Beam.hpdRise else Beam.hpdFall) else st).timingEvent)

/-! ### What the registers show -/

/-- The raster runs and is not held (R109 RUN). -/
def Beam.runs (b : Beam) : Bool := b.run && !b.hold

/-- `TIMING_STATUS` as it reads (R109). -/
def State.timingStatus (s : State) (i : Nat) : Word :=
  let st := s.stage i
  let b := st.beam
  let t := b.inForce
  let blank := b.digital = .black || b.digital = .training || b.analog = .black || st.prism.frozen ||
    st.prism.dead || st.phase = .stopped
  let hpdA := s.hpd.getLsbD st.portA
  let hpdB := if st.twin then s.hpd.getLsbD st.portB else hpdA
  (st.reg 0x434 &&& 0x802) |||
    wd ((b.pending.isSome || b.waiting.isSome).toNat + 4 * b.hold.toNat + 8 * b.locked.toNat + 0x10 * b.linkUp.toNat +
      0x20 * (b.run && blank).toNat + 0x40 * b.onFallback.toNat + 0x80 * (t.dp && decide (b.lanesNow < t.lanes)).toNat +
      0x100 * hpdA.toNat + 0x200 * hpdB.toNat + 0x400 * b.audioOff.toNat + 0x1000 * b.lanesNow +
      0x10000 * b.rateNow + 0x100000 * (if t.hdmi then t.repeatOf st.twin else 0))

/-- Beam-port pixels per line (R108). -/
def Timing.portTotal (t : Timing) (twin : Bool) : Nat := t.htotal / (if twin then 2 else 1)

/-- The pixel the beam stands at at root tick `now`: port pixels of the pixel clock in force, counted from pixel 0 of the
line (R104, R108).
[log 144 DEDUCED] -/
def Stage.pixelAt (st : Stage) (now : Nat) : Nat :=
  let t := st.beam.inForce
  min ((now - st.beam.lineAt) * t.pixclk / (2400000000 * (if st.twin then 2 else 1))) (t.portTotal st.twin - 1)

/-- `BEAM_POS` as it reads at root tick `now` (R109).
[log 144 DEDUCED] -/
def Stage.beamPos (st : Stage) (now : Nat) : Word :=
  let b := st.beam
  let t := b.inForce
  let x := st.pixelAt now
  if !b.runs then 0
  else wd (0x80000000 + 0x40000000 * (decide (t.hactive / (if st.twin then 2 else 1) ≤ x)).toNat +
    0x20000000 * (decide (t.vactive ≤ b.line)).toNat + 0x10000000 * b.field.toNat + 0x10000 * b.line + x)

/-! ### EDID -/

/-- Register `o` of the EDID block of port `p` (R433). -/
def edidReg (p o : Nat) : Nat := 0x1000B000 + 0x200 * p + o

/-- `EDID_READ`: a write of `EDID_CMD`; START is ignored while BUSY (R433). -/
def execEdidRead (p : Nat) (v : Word) (s : State) : Res :=
  let s := s.setDreg (edidReg p 0) (v &&& 0x100FF)
  .next (if bit v 31 && decide (p < 4) then { s with edidBusy := bset s.edidBusy p true } else s)

/-- Words of bytes, little-endian. -/
def wordsOf : List Byte → List Word
  | a :: b :: c :: d :: r => wd (leNat [a, b, c, d]) :: wordsOf r
  | _ => []

/-- Words stored in consecutive registers. -/
def State.setDregs (s : State) (a : Nat) : List Word → State
  | [] => s
  | w :: r => (s.setDreg a w).setDregs (a + 4) r

/-- `EDID_READ_END`: the block read, or NACK when the sink does not answer or HPD is low (R433). -/
def execEdidReadEnd (p : Nat) (data : Option (List Byte)) (s : State) : Res :=
  if !s.edidBusy.getLsbD p then .next s
  else
    let s := { s with edidBusy := bset s.edidBusy p false }
    match data with
    | some bs =>
      if s.hpd.getLsbD p then
        .next ((s.setDregs (edidReg p 0x100) (wordsOf (bs.take 128))).modDreg (edidReg p 4) (setBit · 0 true))
      else .next (s.modDreg (edidReg p 4) (setBit · 1 true))
    | none => .next (s.modDreg (edidReg p 4) (setBit · 1 true))

end Sys2Proof.Machine
end

