-- ==== Sys2Proof/Machine/Crc.lean ====
section
/-!
DEFINITION. CRC-32C with the parameters of R45: Castagnoli polynomial, reflected, initial value and
final XOR all ones. The check bytes of a memory word (R93).
-/

namespace Sys2Proof.Machine

/-- One bit of the reflected CRC. -/
def crcBit (c : Word) : Word := if c.getLsbD 0 then (c >>> 1) ^^^ 0x82F63B78 else c >>> 1

/-- One byte taken into the running CRC. -/
def crcByte (c : Word) (b : Byte) : Word := Nat.repeat crcBit 8 (c ^^^ b.zeroExtend 32)

/-- Bytes taken into the running CRC. -/
def crcBytes (c : Word) (bs : List Byte) : Word := bs.foldl crcByte c

/-- CRC-32C of a list of bytes (R45). -/
def crc32c (bs : List Byte) : Word := ~~~(crcBytes 0xFFFFFFFF bs)

/-- Multiplication by α in GF(2^8) with the polynomial 0x11D (R93). -/
def gfDouble (x : Byte) : Byte := if x.getLsbD 7 then (x <<< 1) ^^^ 0x1D else x <<< 1

/-- Multiplication in that field. -/
def gfMul (x y : Byte) : Byte :=
  (List.range 8).foldl (fun a i => (if y.getLsbD (7 - i) then gfDouble a ^^^ x else gfDouble a)) 0

/-- A list of symbols, highest power first, taken at α^`j`. -/
def gfEval (j : Nat) (bs : List Byte) : Byte := bs.foldl (fun a b => Nat.repeat gfDouble j a ^^^ b) 0

/-- One data byte taken into the remainder by the generator (x - α^0)(x - α^1)(x - α^2)(x - α^3), whose lower
coefficients are 0x0F, 0x36, 0x78, 0x40. -/
def rsStep (r : List Byte) (b : Byte) : List Byte :=
  let f := r.headD 0 ^^^ b
  (r.drop 1 ++ [0]).zipWith (fun x c => x ^^^ gfMul f c) [0x0F, 0x36, 0x78, 0x40]

/-- The four check bytes that follow the 32 data bytes of a word of Orchard or LP5X (R93). No address reaches them, so State
holds how many symbols of a word are wrong (`State.errs`), not the bytes. -/
def checkBytes (bs : List Byte) : List Byte := bs.foldl rsStep [0, 0, 0, 0]

/-- The word and its check bytes form a codeword: zero at each of the four roots (R93). -/
def isCodeword (bs : List Byte) : Bool := (List.range 4).all fun j => gfEval j bs == 0

end Sys2Proof.Machine
end

