-- ==== Sys2Proof/Machine/Facet.lean ====
section
/-!
DEFINITION. What a Facet composes for one line of a layer (R124-R142), and the cost it reports (R143).
-/

namespace Sys2Proof.Machine

/-! ### Source reads -/

/-- What a unit of a stage reads through its partitions while it makes one line, block or operation:
bytes by address, zeros outside (R91), and which 32-byte words it reports uncorrectable (R96): a damaged word is judged
once for all reads of the line, block or operation. -/
structure Source where
  /-- bytes of memory -/
  byte : Nat → Byte
  /-- a range lies within the stage's segments -/
  inSegs : Nat → Nat → Bool
  /-- addresses of the words that read as uncorrectable -/
  ue : List Nat
  /-- the number of the free value the words are judged by -/
  fv : Nat

/-- The source of stage `i`'s units (R91, R93). -/
def State.source (s : State) (i : Nat) : Source × State :=
  let (fv, s) := s.draw
  let bad := (s.errs.filter fun e => decide (2 < e.2)).map Prod.fst
  let wrong := bad.filter (Config.miscorrects fv)
  ({ byte := fun a => if inWords wrong a then Config.freeByte fv a else s.byte a
     inSegs := (s.stage i).inSegs, ue := bad.filter fun w => !wrong.contains w, fv := fv }, s)

/-- The bytes from `a` on, as stored. -/
def Source.rawBytes (r : Source) (a : Nat) : Nat → List Byte
  | 0 => []
  | n + 1 => r.byte a :: r.rawBytes (a + 1) n

/-- `n` bytes at `a` as the unit sees them: zeros outside the partitions (R91). -/
def Source.bytes (r : Source) (a n : Nat) : List Byte :=
  if r.inSegs a n then r.rawBytes a n else List.replicate n 0

/-- The little-endian value of `n` bytes at `a` as the unit sees it. -/
def Source.le (r : Source) (a n : Nat) : Nat := leNat (r.bytes a n)

/-- A read of `n` bytes at `a` meets an uncorrectable word (R96). -/
def Source.bad (r : Source) (a n : Nat) : Bool :=
  r.inSegs a n && ((List.range (n + 31)).any fun k => r.ue.contains ((a + k) / 32 * 32) && decide (k < n))

/-- Reads blocked outside the partitions, one for each aligned 64-byte access, in order (R79, R91).
[log 133 DEDUCED] -/
def Source.blocked (r : Source) (reads : List (Nat × Nat)) : List Nat :=
  ((reads.filter fun p => !r.inSegs p.1 p.2).map fun p => p.1 / 64 * 64).eraseDups

/-- Uncorrectable words met by the reads, each once (R96). -/
def Source.met (r : Source) (reads : List (Nat × Nat)) : List Nat :=
  r.ue.filter fun w => reads.any fun p => r.inSegs p.1 p.2 && decide (p.1 < w + 32) && decide (w < p.1 + p.2)

/-- The blocked reads and damaged words of one line or block recorded, and the correctable words corrected (R91, R94, R96).
[log 133 DEDUCED] -/
def State.recordReads (s : State) (i initiator lindex : Nat) (r : Source) (reads : List (Nat × Nat)) : State :=
  let s := (r.blocked reads).foldl (fun s a => s.blockOut i initiator lindex a false) s
  (s.readWords r.fv (s.damaged (reads.filter fun p => r.inSegs p.1 p.2))).2

/-! ### Pixels -/

/-- Bits of a pixel of a FORMAT (R136). -/
def formatBits (f : Nat) : Nat :=
  match f with
  | 0 => 1 | 1 => 2 | 2 => 4 | 3 => 8 | 4 => 16 | 5 => 16 | _ => 32

/-- A colour channel of `n` bits widened to 12 bits by repeating its bits (R138). -/
def widen (v n : Nat) : Nat :=
  match n with
  | 1 => v * 0xFFF
  | 4 => v * 0x111
  | 5 => v * 128 + v * 4 + v / 8
  | 6 => v * 64 + v
  | 8 => v * 16 + v / 16
  | _ => v

/-- A stored pixel converted (R138): `pal` is the bank of index formats. -/
def convertPixel (format v pal : Nat) (zeroOpaque keyEn : Bool) (key : Nat) : Pix :=
  if format ≤ 3 then
    { on := decide (v ≠ 0) || zeroOpaque, isIdx := true, idx := (pal * 16 + v) % 4096, a := 255 }
  else if format = 4 then
    { on := !(keyEn && v == key), r := widen (v / 2048 % 32) 5, g := widen (v / 32 % 64) 6, b := widen (v % 32) 5, a := 255 }
  else if format = 5 then
    { on := v / 32768 % 2 == 1, r := widen (v / 1024 % 32) 5, g := widen (v / 32 % 32) 5, b := widen (v % 32) 5, a := 255 }
  else
    { on := v / 16777216 % 256 != 0, r := widen (v / 65536 % 256) 8, g := widen (v / 256 % 256) 8
      b := widen (v % 256) 8, a := v / 16777216 % 256 }

/-- An unpredictable pixel (R11).
[log 132 DESIGN CHOICE, 147 DESIGN CHOICE] -/
def anyPix (fv x : Nat) : Pix :=
  let v := (Config.anyPixel fv x).toNat
  { on := v % 2 == 1, isIdx := v / 2 % 2 == 1, idx := v / 4 % 4096, r := v / 16384 % 4096, g := v / 67108864 % 4096
    b := v / 2 ^ 38 % 4096, a := v / 2 ^ 50 % 256, boost := v / 2 ^ 58 % 2 == 1, cover := v / 2 ^ 59 % 2 == 1 }

/-- Pixel `x` of a row of pixels of `b` bits at `a`: its value and the bytes read (R136, R137). -/
def Source.pixel (r : Source) (a x b : Nat) : Nat × (Nat × Nat) :=
  let at' := a + x * b / 8
  let n := if b < 8 then 1 else b / 8
  let v := r.le at' n
  (if b < 8 then v / 2 ^ (x * b % 8) % 2 ^ b else v, (at', n))

/-! ### A layer's settings -/

/-- The block of layer `l` (R123). -/
def layerBase (l : Nat) : Nat := 0x10000 + 0x10000 * l

/-- A 40-bit base from its `_LO` and `_HI` words (R130). -/
def base40 (lo hi : Word) : Nat := lo.toNat + 2 ^ 32 * fld hi 0 8

/-- What one line of a layer is composed from: the class-1 registers by offset in the block, H_s(y), the
line and the active width (R127). -/
structure LayerLine where
  /-- registers of the block -/
  r : Nat → Word
  /-- H_s(y) -/
  hs : Nat
  /-- the line -/
  y : Nat
  /-- HACTIVE -/
  w : Nat
  /-- free value of the line -/
  fv : Nat

/-- Tile size (R130). -/
def LayerLine.tile (c : LayerLine) : Nat :=
  match fld (c.r 0) 8 2 with
  | 0 => 8 | 1 => 16 | _ => 32

/-- FORMAT. -/
def LayerLine.format (c : LayerLine) : Nat := fld (c.r 0) 4 3

/-- MODE (R124). -/
def LayerLine.mode (c : LayerLine) : Nat := fld (c.r 0) 2 2

/-- Page size in entries from its code (R130). -/
def pageSize (code : Nat) : Nat := 32 * 2 ^ code

/-- Pages across. -/
def LayerLine.pagesX (c : LayerLine) : Nat := if fld (c.r 0) 10 2 % 2 = 1 then 2 else 1

/-- Pages down. -/
def LayerLine.pagesY (c : LayerLine) : Nat := if 2 ≤ fld (c.r 0) 10 2 then 2 else 1

/-- MAP_W in entries. -/
def LayerLine.mapW (c : LayerLine) : Nat := pageSize (fld (c.r 0) 12 2)

/-- MAP_H in entries. -/
def LayerLine.mapH (c : LayerLine) : Nat := pageSize (fld (c.r 0) 14 2)

/-- Width of the plane or of the bitmap (R133). -/
def LayerLine.srcW (c : LayerLine) : Nat :=
  if c.mode % 2 = 0 then c.pagesX * c.mapW * c.tile else fld (c.r 0x38) 0 16

/-- Height of the plane or of the bitmap (R133). -/
def LayerLine.srcH (c : LayerLine) : Nat :=
  if c.mode % 2 = 0 then c.pagesY * c.mapH * c.tile else fld (c.r 0x38) 16 16

/-- A base register pair of the block (R130). -/
def LayerLine.base (c : LayerLine) (o : Nat) : Nat := base40 (c.r o) (c.r (o + 4))

/-- Settings that make the layer's pixels unpredictable: FORMAT 7, or a bitmap of illegal size. -/
def LayerLine.unchecked (c : LayerLine) : Bool :=
  c.format == 7 ||
    (c.mode % 2 == 1 && (c.srcW == 0 || c.srcH == 0 || decide (16384 < c.srcW) || decide (16384 < c.srcH)))

/-- y0 of R131. -/
def LayerLine.y0 (c : LayerLine) : Nat := c.y - c.y % (fld (c.r 0xC) 4 4 + 1)

/-- xm of R131. -/
def LayerLine.xm (c : LayerLine) (x : Int) : Int := x - Int.emod x (fld (c.r 0xC) 0 4 + 1)

/-! ### The source of a position -/

/-- A source coordinate inside `n` texels under EDGE: 0 wrap, 1 clamp, 2 and 3 transparent (R133). -/
def edgeCoord (edge : Nat) (v : Int) (n : Nat) : Option Nat :=
  if 0 ≤ v ∧ v < n then some v.toNat
  else match edge with
    | 0 => some (Int.emod v n).toNat
    | 1 => some (if v < 0 then 0 else n - 1)
    | _ => none

/-- Plane pixel (u, v) of a tile map: its pixel and the reads it takes (R134-R138). -/
def LayerLine.tilePixel (c : LayerLine) (m : Source) (u v : Nat) : Pix × List (Nat × Nat) :=
  let t := c.tile
  let b := formatBits c.format
  let p := (v / (c.mapH * t)) * c.pagesX + u / (c.mapW * t)
  let ea := c.base 0x20 + p * c.mapW * c.mapH * 4 + ((v / t % c.mapH) * c.mapW + u / t % c.mapW) * 4
  let e := m.le ea 4
  let i := if e / 65536 % 2 = 1 then t - 1 - u % t else u % t
  let j := if e / 131072 % 2 = 1 then t - 1 - v % t else v % t
  let row := c.base 0x28 + e % 65536 * (t * t * b / 8) + j * (t * b / 8)
  let (px, rd) := m.pixel row i b
  let q := convertPixel c.format px (e / 2 ^ 20 % 256) (bit (c.r 0) 21) (bit (c.r 0) 22) (fld (c.r 0x10) 0 16)
  ({ q with boost := e / 2 ^ 18 % 2 == 1, cover := e / 2 ^ 19 % 2 == 1 && c.mode == 0 }, [(ea, 4), rd])

/-- Bitmap pixel (u, v) and the reads it takes (R137, R138). -/
def LayerLine.bitmapPixel (c : LayerLine) (m : Source) (u v : Nat) : Pix × List (Nat × Nat) :=
  let b := formatBits c.format
  let (px, rd) := m.pixel (c.base 0x30 + v * fld (c.r 0x3C) 0 24) u b
  let q := convertPixel c.format px (fld (c.r 0x14) 0 8) (bit (c.r 0) 21) (bit (c.r 0) 22) (fld (c.r 0x10) 0 16)
  ({ q with cover := bit (c.r 0) 23 && c.mode == 1 }, [rd])

/-- The source pixel at (u, v) of the layer under EDGE (R133, R139); tile mode always wraps. -/
def LayerLine.srcPixel (c : LayerLine) (m : Source) (u v : Int) : Pix × List (Nat × Nat) :=
  let edge := if c.mode = 0 then 0 else fld (c.r 0) 16 2
  match edgeCoord edge u c.srcW, edgeCoord edge v c.srcH with
  | some u, some v => if c.mode % 2 = 0 then c.tilePixel m u v else c.bitmapPixel m u v
  | _, _ => ({}, [])

/-- Signed value of a 16-bit half. -/
def s16 (n : Nat) : Int := (BitVec.ofNat 16 n).toInt

/-- The line-scroll entry of the line (R131, R132): DX, DY and the read. -/
def LayerLine.lscroll (c : LayerLine) (m : Source) : Int × Int × List (Nat × Nat) :=
  if bit (c.r 0) 18 then
    let a := c.base 0x40 + 4 * c.y0
    let v := m.le a 4
    (s16 v, s16 (v / 65536), [(a, 4)])
  else (0, 0, [])

/-- The column scroll at xm (R131, R132). -/
def LayerLine.colscroll (c : LayerLine) (xm : Int) : Int :=
  let mode := fld (c.r 0) 19 2
  if mode = 1 ∨ mode = 2 then
    let k := (max 0 ((xm + 64) / (if mode = 1 then 8 else 16))).toNat
    s16 (fld (c.r (0x1000 + 4 * (k / 2))) (16 * (k % 2)) 16)
  else 0

/-- The affine transform of the line: A, B, C, D, X0, Y0 and the read (R139). -/
def LayerLine.affine (c : LayerLine) (m : Source) : List Int × List (Nat × Nat) :=
  if bit (c.r 0) 25 then
    let a := c.base 0x48 + 32 * c.y0
    ((List.range 6).map fun k => (BitVec.ofNat 32 (m.le (a + 4 * k) 4)).toInt, [(a, 32)])
  else ((List.range 6).map fun k => (c.r (0x50 + 4 * k)).toInt, [])

/-- An exact affine coordinate reduced into range, and whether that changed it (R140). -/
def affReduce (n : Int) : Int × Bool :=
  let r := (BitVec.ofInt 32 n).toInt
  (r, decide (r ≠ n))

/-! ### The line -/

/-- What composing one line gave: the buffer from position −64 on, the reads made, AFF_WRAP, and whether
a table entry the whole line needs was uncorrectable. -/
structure Composed where
  /-- the line buffer -/
  pix : List Pix
  /-- reads: address, bytes -/
  reads : List (Nat × Nat)
  /-- AFF_WRAP -/
  wrap : Bool
  deriving DecidableEq, Repr

/-- One composed position (R131, R139): pixel, reads, AFF_WRAP. A pixel whose reads meet an
uncorrectable word is transparent (R96); the map entry's OPAQUE, or BMP_OPAQUE, still counts for cover-stop (R141).
[log 147 DESIGN CHOICE] -/
def LayerLine.position (c : LayerLine) (m : Source) (ls : Int × Int) (af : List Int) (x : Int) :
    Pix × List (Nat × Nat) × Bool :=
  let xm := c.xm x
  let (p, rd, wrap) :=
    if c.mode < 2 then
      let (p, rd) := c.srcPixel m (xm + c.hs + ls.1) (c.y0 + fld (c.r 8) 0 16 + ls.2 + c.colscroll xm)
      (p, rd, false)
    else
      let k := fun n => af.getD n 0
      let (u, w1) := affReduce (k 0 * xm + k 1 * c.y0 + k 4)
      let (v, w2) := affReduce (k 2 * xm + k 3 * c.y0 + k 5)
      let (p, rd) := c.srcPixel m (u / 65536) (v / 65536)
      (p, rd, w1 || w2)
  let lost := rd.any fun q => m.bad q.1 q.2
  let entry := c.mode % 2 == 0 && match rd with | q :: _ => m.bad q.1 q.2 | [] => false
  if c.unchecked then (anyPix c.fv (x + 64).toNat, [], wrap)
  else (if lost then { cover := p.cover && !entry } else p, rd, wrap)

/-- One line of a layer composed, positions −64 to HACTIVE + 63 (R126). -/
def LayerLine.compose (c : LayerLine) (m : Source) : Composed :=
  let (dx, dy, r1) := if c.mode < 2 then c.lscroll m else (0, 0, [])
  let (af, r2) := if c.mode < 2 then ([], []) else c.affine m
  let ps := (List.range (c.w + 128)).map fun (k : Nat) => c.position m (dx, dy) af ((k : Int) - 64)
  let lost := (r1 ++ r2).any fun q => m.bad q.1 q.2
  { pix := ps.map fun p => if lost then {} else p.1
    reads := r1 ++ r2 ++ (ps.map fun p => p.2.1).flatten
    wrap := ps.any fun p => p.2.2 }

/-! ### Cost -/

/-- `LAYER_COST` after a line of `cycles` FAB cycles: LAST, and PEAK if it is higher (R143). -/
def layerCost (old : Word) (cycles : Nat) : Word :=
  let c := min cycles 0xFFFF
  setFld (setFld old 0 16 c) 16 16 (max (fld old 16 16) c)

end Sys2Proof.Machine
end

