-- ==== Sys2Proof/Machine/Drupe.lean ====
section
/-!
DEFINITION. What a Drupe draws for one line of a sprite plane (R147-R168), the shares of the list and
the records of cost and overflow.
-/

namespace Sys2Proof.Machine

/-- The block of sprite plane `p` (R147). -/
def spriteBase (p : Nat) : Nat := 0x110000 + 0x10000 * p

/-- Smallest whole number not below `a / b`. -/
def ceilDiv (a b : Nat) : Nat := (a + (b - 1)) / b

/-! ### Shares -/

/-- SPLIT of a plane, with 3 taken as 0 (R156).
[log 117 DESIGN CHOICE] -/
def splitOf (ctrl : Word) : Nat := if fld ctrl 2 2 = 3 then 0 else fld ctrl 2 2

/-- The planes that share the list automatically, in ascending order (R156). -/
def Stage.autoPlanes (st : Stage) (ctrl : Nat → Word) : List Nat :=
  upto 8 fun p => (st.bind (16 + p)).bound && !(st.bind (16 + p)).shed && splitOf (ctrl p) != 2

/-- `SPR_RANK` of plane `p` as a latch instant computes it (R156, R157). -/
def Stage.rankWord (st : Stage) (ctrl : Nat → Word) (p : Nat) : Word :=
  let ps := st.autoPlanes ctrl
  if ps.contains p then wd (0x10 * (ps.length - 1) + (ps.takeWhile (· != p)).length) else 0

/-- The share of a plane, ascending, from its SPLIT, N, `SPR_SHARE` and `SPR_RANK` (R156). -/
def shareOf (split n : Nat) (share rank : Word) : List Nat :=
  let n := min n 4096
  let k := fld rank 4 3 + 1
  let r := fld rank 0 3
  match split with
  | 1 => upto n fun i => i % k == r
  | 2 => (List.range (fld share 16 13)).filterMap fun d =>
      let i := fld share 0 12 + d
      if i ≤ 4095 then some i else none
  | _ => upto n fun i => decide (r * n / k ≤ i) && decide (i < (r + 1) * n / k)

/-! ### The list entry -/

/-- An entry of the sprite list (R149). -/
structure SprEntry where
  /-- index -/
  idx : Nat
  /-- X -/
  x : Int
  /-- Y -/
  y : Int
  /-- SW -/
  sw : Nat
  /-- SH -/
  sh : Nat
  /-- FORMAT -/
  format : Nat
  /-- HFLIP -/
  hflip : Bool
  /-- VFLIP -/
  vflip : Bool
  /-- ROT -/
  rot : Bool
  /-- VIS -/
  vis : Bool
  /-- device address of source row 0 -/
  addr : Nat
  /-- ALPHA -/
  alpha : Nat
  /-- bytes from one row to the next -/
  pitch : Nat
  /-- XSCALE -/
  xs : Nat
  /-- YSCALE -/
  ys : Nat
  /-- M00 -/
  m00 : Int
  /-- M01 -/
  m01 : Int
  /-- M10 -/
  m10 : Int
  /-- M11 -/
  m11 : Int
  /-- PAL -/
  pal : Nat
  /-- PRI -/
  pri : Nat
  /-- BLEND -/
  blend : Nat
  /-- SHADE -/
  shade : Nat
  deriving DecidableEq, Repr

/-- Entry `i` of the list at `base` (R149): all zeros when the list lies outside the Orchard (R148), and
not visible when its word is uncorrectable (R96). -/
def readEntry (m : Source) (base i : Nat) : SprEntry :=
  let a := base + 32 * i
  let far := !isOrchard base
  let w := fun k => if far then 0 else m.le (a + 4 * k) 4
  let f := fun k lo n => w k / 2 ^ lo % 2 ^ n
  { idx := i, x := s16 (f 0 0 16), y := s16 (f 0 16 16), sw := f 1 0 9 + 1, sh := f 1 16 9 + 1
    format := f 1 9 3, hflip := f 1 12 1 == 1, vflip := f 1 13 1 == 1, rot := f 1 14 1 == 1
    vis := f 1 15 1 == 1 && (far || !m.bad a 32)
    addr := f 3 0 8 * 2 ^ 32 + f 2 6 26 * 64, alpha := f 3 8 8, pitch := f 3 16 16 * 64
    xs := f 4 0 16, ys := f 4 16 16, m00 := s16 (f 5 0 16), m01 := s16 (f 5 16 16), m10 := s16 (f 6 0 16)
    m11 := s16 (f 6 16 16), pal := f 7 0 8, pri := f 7 8 6
    blend := if f 7 14 3 < 6 then f 7 14 3 else 0
    shade := if f 7 17 2 < 3 then f 7 17 2 else 0 }

/-- DW of R151. -/
def SprEntry.dw (e : SprEntry) : Nat := ceilDiv (e.sw * e.xs) 256

/-- DH of R151. -/
def SprEntry.dh (e : SprEntry) : Nat := ceilDiv (e.sh * e.ys) 256

/-- Width of the box (R151, R152). -/
def SprEntry.boxW (e : SprEntry) : Nat := if e.rot then 2 * e.dw else e.dw

/-- Height of the box (R151, R152). -/
def SprEntry.boxH (e : SprEntry) : Nat := if e.rot then 2 * e.dh else e.dh

/-- First visible stage pixel of the box. -/
def SprEntry.left (e : SprEntry) : Int := max 0 e.x

/-- One past the last visible stage pixel of the box in a raster of width `w`. -/
def SprEntry.right (e : SprEntry) (w : Nat) : Int := min w (e.x + e.boxW)

/-- Wv of R153. -/
def SprEntry.wv (e : SprEntry) (w : Nat) : Nat := (e.right w - e.left).toNat

/-- A hit on line `y` (R153). -/
def SprEntry.hit (e : SprEntry) (y w : Nat) : Bool :=
  e.vis && e.xs != 0 && e.ys != 0 && decide (e.y ≤ y) && decide ((y : Int) < e.y + e.boxH) && decide (0 < e.wv w)

/-- The source data lies in LP5X. -/
def SprEntry.inLpx (e : SprEntry) : Bool := decide (0x100000000 ≤ e.addr) && decide (e.addr < 0x900000000)

/-- Cost c of a hit (R160); `attract` halves the LP5X factor. -/
def SprEntry.cost (e : SprEntry) (w : Nat) (attract : Bool) : Nat :=
  let b := formatBits e.format
  let wv := e.wv w
  let f :=
    if e.rot then min (ceilDiv (wv * (e.m00.natAbs * b + e.m10.natAbs * 512)) (512 * 4096) + 2) (wv + 2)
    else
      let c0 := (e.left - e.x).toNat
      let sv := (c0 + wv - 1) * 256 / e.xs - c0 * 256 / e.xs + 1
      ceilDiv (sv * b) 512 + 1
  let f := if e.inLpx then ceilDiv (f * (if attract then 120 else 240)) 32 else f
  4 + max (ceilDiv wv 8) f

/-- The source pixel of stage pixel `x` on line `y`, if the box maps it inside the source (R151, R152). -/
def SprEntry.texel (e : SprEntry) (x y : Int) : Option (Nat × Nat) :=
  if e.rot then
    let rx := x - (e.x + e.dw)
    let ry := y - (e.y + e.dh)
    let u := (e.m00 * rx + e.m01 * ry) / 4096 + e.sw / 2
    let v := (e.m10 * rx + e.m11 * ry) / 4096 + e.sh / 2
    let u := if e.hflip then e.sw - 1 - u else u
    let v := if e.vflip then e.sh - 1 - v else v
    if 0 ≤ u ∧ u < e.sw ∧ 0 ≤ v ∧ v < e.sh then some (u.toNat, v.toNat) else none
  else
    let s := (x - e.x).toNat * 256 / e.xs
    let r := (y - e.y).toNat * 256 / e.ys
    some (if e.hflip then e.sw - 1 - s else s, if e.vflip then e.sh - 1 - r else r)

/-! ### One line -/

/-- What one line of a plane is drawn from (R158). -/
structure SprLine where
  /-- registers of the block -/
  r : Nat → Word
  /-- the share -/
  share : List Nat
  /-- the line -/
  y : Nat
  /-- HACTIVE -/
  w : Nat
  /-- BD of R160 -/
  budget : Int
  /-- W of R143 -/
  lat : Nat
  /-- ATTRACT -/
  attract : Bool
  /-- free value of the line -/
  fv : Nat

/-- The base of the list. -/
def SprLine.list (c : SprLine) : Nat := base40 (c.r 8) (c.r 0xC)

/-- The pixel an entry gives at stage pixel `x`, and its read (R150). -/
def SprLine.entryPixel (c : SprLine) (m : Source) (e : SprEntry) (x : Nat) : Pix × List (Nat × Nat) :=
  if (x : Int) < e.left ∨ e.right c.w ≤ x then ({}, [])
  else if e.format = 7 then (anyPix c.fv (4096 * x + e.idx), [])
  else
    match e.texel x c.y with
    | none => ({}, [])
    | some (s, r) =>
      let (v, rd) := m.pixel (e.addr + r * e.pitch) s (formatBits e.format)
      let p := convertPixel e.format v e.pal false (bit (c.r 0) 4) (fld (c.r 4) 0 16)
      let p := if p.isIdx then p else { p with a := p.a * (e.alpha + 1) / 256 }
      (if m.bad rd.1 rd.2 then {} else p, [rd])

/-- One entry drawn over what the line buffer holds at a pixel (R154). -/
def SprPix.over (q : SprPix) (e : SprEntry) (p : Pix) : SprPix :=
  if !p.on then q
  else if e.shade = 0 then
    if !q.pix.on || decide (q.pri < e.pri) then
      { q with pix := p, alpha := e.alpha, pri := e.pri, blend := e.blend, entry := e.idx }
    else q
  else if q.shade = 0 ∨ q.sPri < e.pri then { q with shade := e.shade, sPri := e.pri, sEntry := e.idx }
  else q

/-- How examining the share stands (R161). -/
structure Exam where
  /-- entries examined -/
  j : Nat
  /-- some hit so far has its data in LP5X -/
  lpx : Bool
  /-- sum of the costs of the hits drawn -/
  sum : Nat
  /-- the hits drawn, last first -/
  drawn : List SprEntry
  /-- hits dropped -/
  dropped : Nat
  /-- the line overflowed -/
  ovf : Bool
  /-- R as it ends -/
  cost : Nat

/-- One entry examined (R161). After an overflow, later hits only count as dropped. -/
def SprLine.examine (c : SprLine) (m : Source) (x : Exam) (i : Nat) : Exam :=
  let e := readEntry m c.list i
  let hit := e.hit c.y c.w
  if x.ovf then { x with dropped := x.dropped + hit.toNat }
  else
    let lpx := x.lpx || (hit && e.inLpx)
    let r := (x.j + 2) / 2 + (if lpx then c.lat else 0) + x.sum
    let k := e.cost c.w c.attract
    let hm := fld (c.r 0x18) 0 13
    let full := decide (c.budget < r) ||
      (hit && (decide (c.budget < (r + k : Nat)) || (hm != 0 && x.drawn.length == hm)))
    if full then { x with j := x.j + 1, lpx := lpx, dropped := x.dropped + hit.toNat, ovf := true, cost := r }
    else if hit then
      { x with j := x.j + 1, lpx := lpx, sum := x.sum + k, drawn := e :: x.drawn
               cost := (x.j + 2) / 2 + (if lpx then c.lat else 0) + x.sum + k }
    else { x with j := x.j + 1, lpx := lpx, cost := r }

/-- What drawing one line gave. -/
structure Drawn where
  /-- the line buffer, stage pixel 0 first -/
  pix : List SprPix
  /-- reads: address, bytes -/
  reads : List (Nat × Nat)
  /-- final R -/
  cost : Nat
  /-- hits drawn -/
  drawn : Nat
  /-- hits dropped -/
  dropped : Nat
  /-- the line overflowed -/
  ovf : Bool
  /-- the list lay outside the Orchard -/
  far : Bool
  deriving DecidableEq, Repr

/-- One line of a plane drawn (R154, R158, R161). -/
def SprLine.draw (c : SprLine) (m : Source) : Drawn :=
  let x := c.share.foldl (c.examine m) ⟨0, false, 0, [], 0, false, 0⟩
  let es := x.drawn.reverse
  let px := (List.range c.w).map fun (k : Nat) =>
    es.foldl (fun (q : SprPix × List (Nat × Nat)) e =>
      let (p, rd) := c.entryPixel m e k
      (q.1.over e p, q.2 ++ rd)) ({}, [])
  let far := !isOrchard c.list
  let lr := if far then [] else (c.share.take x.j).map fun i => (c.list + 32 * i, 32)
  { pix := px.map Prod.fst
    reads := lr ++ (px.map Prod.snd).flatten
    cost := x.cost, drawn := es.length, dropped := x.dropped, ovf := x.ovf, far := far }

/-! ### Records -/

/-- The records of a drawn line `y` (R163, R164): cost, hits drawn and dropped, overflow. -/
def Stage.recordSprite (st : Stage) (p y cost drawn dropped : Nat) (ovf : Bool) : Stage :=
  let b := spriteBase p
  let st := st.modReg (b + 0x84) fun w => layerCost w cost
  let st := st.setReg (b + 0x8C) (setFld (setFld 0 16 13 dropped) 0 13 drawn)
  if ovf then
    let w := st.reg (b + 0x80)
    let w := if bit w 1 || st.cyc.clr.contains p then w else setFld w 16 12 y
    let st := st.setReg (b + 0x80) (setBit w 1 true)
    let st := { st with cyc := { st.cyc with spr := st.cyc.spr ++ [(p, dropped)] } }
    st.modReg (b + 0x88) fun w => satAdd (satAdd w 16 16 1) 0 16 dropped
  else st

/-- What a write of `SPR_STATUS` or `SPR_OVF_CNT` of plane `p` leaves, from the stage it left as an ordinary one: an
overflow of the same FAB cycle stands, and is added to the counts written (R164). -/
def Stage.sprWritten (st : Stage) (was : Word) (p q : Nat) : Stage :=
  let b := spriteBase p
  let new := st.cyc.spr.filter fun e => e.1 == p
  if q = 0x80 then
    if !new.isEmpty then st.setRegBit (b + 0x80) 1
    else if bit was 1 && !bit (st.reg (b + 0x80)) 1 then { st with cyc := { st.cyc with clr := p :: st.cyc.clr } }
    else st
  else if q = 0x88 then new.foldl (fun st e => st.modReg (b + 0x88) fun w => satAdd (satAdd w 16 16 1) 0 16 e.2) st
  else st

/-- The record of plane `p` a line context still holds. -/
def LineCtx.record (c : LineCtx) (p : Nat) : Option SprRec := c.sprRecs.find? fun r => r.plane == p

/-- The line context with the record of plane `p` taken. -/
def LineCtx.recorded (c : LineCtx) (p : Nat) : LineCtx := { c with sprRecs := c.sprRecs.filter fun r => r.plane != p }

/-- A Drupe finishes its modelled line: its record is taken from the older line that still holds one
(R161, R164). -/
def Stage.spriteDone (x : Stage) (p : Nat) : Stage :=
  let of := fun (c : Option LineCtx) => c.bind fun c => (c.record p).map fun r => (c, r)
  match of x.prism.mix with
  | some (c, r) =>
    let x := x.recordSprite p c.y r.cost r.drawn r.dropped r.ovf
    { x with prism := { x.prism with mix := some (c.recorded p) } }
  | none =>
    match of x.prism.comp with
    | some (c, r) =>
      let x := x.recordSprite p c.y r.cost r.drawn r.dropped r.ovf
      { x with prism := { x.prism with comp := some (c.recorded p) } }
    | none => x

/-- `SPRITE_LINE_DRAWN` (R161, R164). -/
def execSpriteLineDrawn (s p : Nat) (st : State) : Res := .next (st.modStage s (·.spriteDone p))

/-- `LAYER_LINE_COMPOSED` (R143): the measured cost of a line the layer composed.
[log 141 DESIGN CHOICE] -/
def execLayerLineComposed (s l cycles : Nat) (st : State) : Res :=
  let p := (st.stage s).prism
  let has := fun (c : Option LineCtx) => match c with
    | some c => c.layers.any fun e => e.1 == l
    | none => false
  if has p.comp || has p.mix then .next (st.modStage s fun x => x.modReg (layerBase l + 0x84) fun w => layerCost w cycles)
  else .next st

end Sys2Proof.Machine
end

