-- ==== Sys2Proof/Machine/Prism.lean ====
section
/-!
DEFINITION. The Prism of a stage (R169-R200): windows, candidates, the mix of a pixel, cover-stop,
Conserve, fences, flips and the guarded regions.
-/

namespace Sys2Proof.Machine

/-- The Prism block (R169). -/
def prismBase : Nat := 0x190000

/-! ### What governs a segment -/

/-- What the pixels of a segment are mixed from: the line's class-1 snapshot, the segment's class-0
snapshot and the stage (R181). -/
structure Mix where
  /-- class-1 registers of the line -/
  r1 : Nat → Word
  /-- class-0 registers of the segment -/
  r0 : Nat → Word
  /-- the line -/
  c : LineCtx
  /-- layers that may give a candidate -/
  layers : List Nat
  /-- sprite planes that may give a candidate -/
  planes : List Nat
  /-- layers whose candidates the conserved plane may give -/
  conserved : List Nat
  /-- HACTIVE -/
  w : Nat
  /-- bits per code -/
  bpc : Nat

/-- Register `o` of the Prism block in the line's snapshot. -/
def Mix.p1 (m : Mix) (o : Nat) : Word := m.r1 (prismBase + o)

/-- Register `o` of the Prism block in the segment's snapshot. -/
def Mix.p0 (m : Mix) (o : Nat) : Word := m.r0 (prismBase + o)

/-! ### Windows -/

/-- A pixel of the line lies inside window unit `k` (R174). -/
def Mix.inside (m : Mix) (k x : Nat) : Bool :=
  let lr := m.p0 (0x204 + 16 * k)
  let tb := m.p0 (0x208 + 16 * k)
  let (l, r) :=
    if bit (m.p1 (0x200 + 16 * k)) 0 then sget (fun _ => (0, 0)) m.c.spans k
    else (fld lr 0 13, fld lr 16 13)
  decide (fld tb 0 12 ≤ m.c.y) && decide (m.c.y ≤ fld tb 16 12) && decide (l ≤ x) && decide (x ≤ r)

/-- The window result for a selection, an inversion and WOP (R175). -/
def Mix.window (m : Mix) (sel inv op x : Nat) : Bool :=
  let vs := (upto 4 fun k => sel / 2 ^ k % 2 == 1).map fun k => m.inside k x != (inv / 2 ^ k % 2 == 1)
  if vs.isEmpty then true
  else match op with
    | 0 => vs.all id
    | 1 => vs.any id
    | 2 => vs.foldl (· != ·) false
    | _ => !(vs.foldl (· != ·) false)

/-- Source `k` is shown at pixel `x` by its window (R175). -/
def Mix.shown (m : Mix) (k x : Nat) : Bool :=
  let w := m.p1 (0x100 + 8 * k)
  !bit w 26 || m.window (fld w 16 4) (fld w 20 4) (fld w 24 2) x

/-- The `PRISM_MATHWIN` result at pixel `x` (R175). -/
def Mix.mathWin (m : Mix) (x : Nat) : Bool :=
  let w := m.p1 0xC
  m.window (fld w 0 4) (fld w 4 4) (fld w 8 2) x

/-! ### Candidates -/

/-- A candidate, or a shade mark standing as a sprite pixel (R172, R173, R177). -/
structure Cand where
  /-- effective priority -/
  pri : Nat
  /-- a sprite pixel -/
  spr : Bool
  /-- layer index, or entry index -/
  idx : Nat
  /-- sprite plane -/
  plane : Nat
  /-- the pixel -/
  pix : Pix
  /-- ALPHA of the entry -/
  scale : Nat
  /-- BLEND -/
  blend : Nat
  /-- FA -/
  fa : Nat
  /-- MATHWIN -/
  mathwin : Bool

/-- The order of R173. -/
def Cand.before (a b : Cand) : Bool :=
  decide (b.pri < a.pri) || (a.pri == b.pri &&
    if a.spr && b.spr then decide (a.idx < b.idx) || (a.idx == b.idx && decide (a.plane < b.plane))
    else if a.spr || b.spr then a.spr
    else decide (a.idx < b.idx))

/-- The two in front so far, with one more candidate (R173). -/
def frontTwo (q : Option Cand × Option Cand) (c : Cand) : Option Cand × Option Cand :=
  match q with
  | (none, _) => (some c, none)
  | (some a, b) =>
    if c.before a then (some c, some a)
    else match b with
      | none => (some a, some c)
      | some b => if c.before b then (some a, some c) else (some a, some b)

/-- BLEND with 6 and 7 taken as 0 (R173). -/
def blendOf (v : Nat) : Nat := if v < 6 then v else 0

/-- The late shift d of layer `l` (R129). -/
def Mix.shift (m : Mix) (l : Nat) : Int :=
  if fld (m.r1 (layerBase l)) 2 2 < 2 then
    s16 ((fld (m.r0 (layerBase l + 4)) 0 16 + 0x10000 - sget (fun _ => 0) m.c.hs l) % 0x10000)
  else 0

/-- The buffer position layer `l` is read from at pixel `x`, if it has one (R129). -/
def Mix.readPos (m : Mix) (l x : Nat) : Option Nat :=
  let p := (x : Int) + m.shift l + 64
  if 0 ≤ p ∧ p < m.w + 128 then some p.toNat else none

/-- The candidate of layer `l` at pixel `x` (R172, R173). -/
def Mix.layerCand (m : Mix) (x l : Nat) : Option Cand :=
  match m.readPos l x with
  | none => none
  | some p =>
    let q := (sget (fun _ => []) m.c.layers l).getD p {}
    let w := m.p1 (0x100 + 8 * l)
    if q.on && m.shown l x then
      some ⟨min 63 (fld w 0 6 + (if q.boost then fld w 6 6 else 0)), false, l, 0, q, 255, blendOf (fld w 12 3),
        fld (m.p0 (0x104 + 8 * l)) 0 8, bit w 27⟩
    else none

/-- The candidate of sprite plane `p` at pixel `x` (R172, R173). -/
def Mix.planeCand (m : Mix) (x p : Nat) : Option Cand :=
  let q := (sget (fun _ => []) m.c.sprites p).getD x {}
  let k := 16 + p
  if q.pix.on && m.shown k x then
    some ⟨q.pri, true, q.entry, p, q.pix, q.alpha, q.blend, fld (m.p0 (0x104 + 8 * k)) 0 8,
      bit (m.p1 (0x100 + 8 * k)) 27⟩
  else none

/-- The shade mark of sprite plane `p` at pixel `x`, with its kind (R177). -/
def Mix.markAt (m : Mix) (x p : Nat) : Option (Cand × Nat) :=
  let q := (sget (fun _ => []) m.c.sprites p).getD x {}
  if q.shade != 0 && m.shown (16 + p) x then some (⟨q.sPri, true, q.sEntry, p, {}, 255, 0, 0, false⟩, q.shade)
  else none

/-- An entry of the conserved plane (R189). -/
def planeEntry (c : Option Cand) : Nat :=
  match c with
  | none => 2 ^ 55
  | some c =>
    c.idx % 16 * 2 ^ 50 + c.pri * 2 ^ 44 + c.pix.a * 2 ^ 36 +
      (if c.pix.isIdx then 2 ^ 54 + c.pix.idx else c.pix.r * 2 ^ 24 + c.pix.g * 2 ^ 12 + c.pix.b)

/-- The candidate the conserved plane gives at pixel `x` (R189). -/
def Mix.consCand (m : Mix) (x : Nat) : Option Cand :=
  let v := (m.c.plane.getD x (BitVec.ofNat 64 (2 ^ 55))).toNat
  let l := v / 2 ^ 50 % 16
  if v / 2 ^ 55 % 2 = 1 ∨ !m.conserved.contains l then none
  else
    let isIdx := v / 2 ^ 54 % 2 == 1
    some ⟨v / 2 ^ 44 % 64, false, l, 0,
      { on := true, isIdx := isIdx, idx := if isIdx then v % 4096 else 0, a := v / 2 ^ 36 % 256
        r := if isIdx then 0 else v / 2 ^ 24 % 4096, g := if isIdx then 0 else v / 2 ^ 12 % 4096
        b := if isIdx then 0 else v % 4096 }, 255, 0, 255, false⟩

/-- The candidates at pixel `x` but for the backdrop (R172). -/
def Mix.cands (m : Mix) (x : Nat) : List Cand :=
  m.layers.filterMap (m.layerCand x) ++ (if m.conserved.isEmpty then [] else (m.consCand x).toList) ++
    m.planes.filterMap (m.planeCand x)

/-! ### Colour -/

/-- A colour of 12 bits per channel. -/
abbrev Rgb12 := Nat × Nat × Nat

/-- The palette entry `i` of the segment: colour and alpha (R178). -/
def Mix.palette (m : Mix) (i : Nat) : Rgb12 × Nat :=
  let w := m.p0 (0x4000 + 4 * (i % 4096))
  ((widen (fld w 16 8) 8, widen (fld w 8 8) 8, widen (fld w 0 8) 8), fld w 24 8)

/-- Colour and alpha of a candidate (R150, R178). -/
def Mix.colour (m : Mix) (c : Cand) : Rgb12 × Nat :=
  if c.pix.isIdx then
    let (q, a) := m.palette c.pix.idx
    (q, if c.spr then a * (c.scale + 1) / 256 else a)
  else ((c.pix.r, c.pix.g, c.pix.b), c.pix.a)

/-- The backdrop (R172). -/
def Mix.backdrop (m : Mix) : Rgb12 := (m.palette (fld (m.p1 4) 0 12)).1

/-- One channel of colour math (R176). -/
def mathChannel (blend a p s : Nat) : Nat :=
  match blend with
  | 1 => (p * a + s * (255 - a) + 127) / 255
  | 2 => min 4095 (s + (p * a + 127) / 255)
  | 3 => s - (p * a + 127) / 255
  | 4 => (p + s) / 2
  | 5 => (p * s + 2047) / 4095
  | _ => p

/-- A function applied to each channel. -/
def mapRgb (f : Nat → Nat) (c : Rgb12) : Rgb12 := (f c.1, f c.2.1, f c.2.2)

/-- One channel under a shade mark: 1 shadow, 2 highlight (R177). -/
def shadeChannel (kind c : Nat) : Nat := if kind = 1 then c / 2 else min 4095 (c / 2 + 2048)

/-- The colour of pixel `x` after colour math and shade (R173-R177). -/
def Mix.blended (m : Mix) (x : Nat) : Rgb12 :=
  let (p, s) := (m.cands x).foldl frontTwo (none, none)
  let out : Rgb12 := match p with
    | none => m.backdrop
    | some p =>
      let (c, alpha) := m.colour p
      let b := match s with | some s => (m.colour s).1 | none => m.backdrop
      let a := alpha * (p.fa + 1) / 256
      if p.blend != 0 && (!p.mathwin || m.mathWin x) then
        (mathChannel p.blend a c.1 b.1, mathChannel p.blend a c.2.1 b.2.1, mathChannel p.blend a c.2.2 b.2.2)
      else c
  let mark := (m.planes.filterMap (m.markAt x)).foldl (fun (q : Option (Cand × Nat)) k =>
    match q with
    | none => some k
    | some j => if k.1.before j.1 then some k else some j) none
  match mark with
  | none => out
  | some (k, kind) =>
    match p with
    | some p => if k.before p then mapRgb (shadeChannel kind) out else out
    | none => mapRgb (shadeChannel kind) out

/-- Row `i` of the colour matrix in use applied (R179). -/
def Mix.matrixRow (m : Mix) (i : Nat) (c : Rgb12) : Nat :=
  let o := 0x500 + 0x20 * fld (m.p0 0) 1 1 + 8 * i
  let a := m.p0 o
  let b := m.p0 (o + 4)
  let v := (sfld a 0 16 * c.1 + sfld a 16 16 * c.2.1 + sfld b 0 16 * c.2.2 + 4096 * sfld b 16 16 + 8192) / 16384
  (max 0 (min 4095 v)).toNat

/-- The dither table T of R180. -/
def ditherT (y x : Nat) : Nat := [0, 8, 2, 10, 12, 4, 14, 6, 3, 11, 1, 9, 15, 7, 13, 5].getD (4 * (y % 4) + x % 4) 0

/-- The code of a 12-bit channel (R180). -/
def Mix.code (m : Mix) (x v : Nat) : Nat :=
  let top := 2 ^ m.bpc - 1
  let d := match fld (m.p1 0) 4 2 with
    | 0 => 0
    | 1 => 2047
    | _ => ditherT m.c.y x * 256 + 128
  min top ((v * top + d) / 4095)

/-- The codes of pixel `x` (R171). -/
def Mix.pixel (m : Mix) (x : Nat) : Rgb :=
  let c := m.blended x
  let c := if bit (m.p1 0) 0 then (m.matrixRow 0 c, m.matrixRow 1 c, m.matrixRow 2 c) else c
  ⟨m.code x c.1, m.code x c.2.1, m.code x c.2.2⟩

/-- Black (R102). -/
def blackCode (t : Timing) : Rgb :=
  if t.colour = 0 then ⟨0, 0, 0⟩
  else if t.bpc = 10 then ⟨512, 64, 512⟩ else ⟨128, 16, 128⟩

/-! ### Which sources show -/

/-- Source `k` is bound and not shed. -/
def Stage.srcBound (st : Stage) (k : Nat) : Bool := (st.bind k).bound && !(st.bind k).shed

/-- The `CTRL` register of source `k`: of its layer or of its sprite plane (R170). -/
def srcCtrl (k : Nat) : Nat := if k < 16 then layerBase k else spriteBase (k - 16)

/-- The class-2 state in force (R111). -/
def Stage.latched (st : Stage) (o : Nat) : Word := sget stageDefault st.latch o

/-- The layers Conserve marks, if it is enabled (R190). -/
def Stage.marked (st : Stage) : List Nat :=
  let w := st.latched (prismBase + 0x600)
  if bit w 0 then upto 16 fun l => bit w (16 + l) else []

/-- The layers LAYERS marks, whatever EN is: those the watches look at (R190, R192).
[log 112 DEDUCED] -/
def Stage.watched (st : Stage) : List Nat := upto 16 fun l => bit (st.latched (prismBase + 0x600)) (16 + l)

/-- The marked set is eligible (R190). -/
def Stage.eligible (st : Stage) (t : Timing) : Bool :=
  let ls := st.marked
  !ls.isEmpty && decide (ls.length ≤ 4) && !t.interlace &&
    ls.all fun l =>
      let w := st.reg (prismBase + 0x100 + 8 * l)
      st.srcBound l && blendOf (fld w 12 3) == 0 && !bit w 26

/-- The layers the plane stands for (R191). -/
def Stage.conserved (st : Stage) : List Nat := if st.prism.consState = 2 then st.marked else []

/-- Nothing is composed or mixed: the stage is stopped or frozen, or its Prism has failed (R102, R199,
R377). -/
def Stage.dark (st : Stage) : Bool :=
  st.phase = .empty || st.phase = .stopped || st.prism.frozen || st.prism.dead

/-- Source `k` may give candidates in a segment with the class-0 snapshot `r0` (R172). -/
def Stage.srcLive (st : Stage) (r0 : Nat → Word) (k : Nat) : Bool :=
  st.srcBound k && !st.prism.suppressed.getLsbD k && !st.prism.faulted.getLsbD k && !st.prism.resuming.getLsbD k &&
    bit (r0 (srcCtrl k)) 0

/-! ### Geometry of the mix -/

/-- The timing the mixed line belongs to: line 0 is mixed before the frame boundary that applies a
waiting timing (R181, R201). -/
def Stage.mixTiming (st : Stage) : Timing :=
  let b := st.beam
  if st.prism.mixLine = 0 && b.nextLine == b.inForce.lines b.field then b.nextTiming.getD b.inForce else b.inForce

/-- Halves of the raster: two in twin mode. -/
def Stage.halves (st : Stage) : Nat := if st.twin then 2 else 1

/-- Port pixels of segment `k`, first and one past the last, within `n` (R34, R108). -/
def segRange (seg k n : Nat) : Nat × Nat := (min n (k * seg), min n ((k + 1) * seg))

/-- The active stage pixels of segment `k` (R108). -/
def Stage.segPixels (st : Stage) (t : Timing) (k : Nat) : List Nat :=
  let h := st.halves
  let (a, b) := segRange (t.segPix st.twin) k (t.hactive / h)
  ((List.range h).map fun j => (List.range (b - a)).map fun d => j * (t.hactive / h) + a + d).flatten

/-- Segments of a line (R34). -/
def Stage.segCount (st : Stage) (t : Timing) : Nat := ceilDiv (t.htotal / st.halves) (t.segPix st.twin)

/-! ### Cover-stop -/

/-- The occluders of a line (R186): up to four, highest PRI first, ties to the lower index.
[log 71 DEDUCED] -/
def Stage.occluders (st : Stage) (t : Timing) (composing : List Nat) : List Nat :=
  if !bit (st.reg prismBase) 8 then []
  else
    let pri := fun l => fld (st.reg (prismBase + 0x100 + 8 * l)) 0 6
    let ok := composing.filter fun l =>
      let c := st.reg (layerBase l)
      let w := st.reg (prismBase + 0x100 + 8 * l)
      bit c 24 && bit c 0 && !st.prism.suppressed.getLsbD l && blendOf (fld w 12 3) == 0 && !bit w 26 &&
        !st.conserved.contains l && decide (t.lines false ≠ 0)
    let sorted := ok.foldl (fun (q : List Nat) l => (q.takeWhile fun j => decide (pri l ≤ pri j)) ++ [l] ++
      q.dropWhile fun j => decide (pri l ≤ pri j)) []
    sorted.take 4

/-- A layer's buffer counts as opaque from stage pixel `a` to `b`, both with the guard of 64 (R141). -/
def opaqueRange (r1 : Nat → Word) (buf : List Pix) (l a b : Nat) : Bool :=
  let c := r1 (layerBase l)
  bit c 24 && decide (fld c 2 2 < 2) && ((buf.drop a).take (b - a + 129)).all Pix.cover

/-- The layer-segments stopped on a line (R187): layer, segment, half. `known` says where the occluder's
summary came in time.
[log 71 DEDUCED, 115 DESIGN CHOICE] -/
def Stage.stoppedOf (st : Stage) (t : Timing) (r1 : Nat → Word) (layers : Sparse (List Pix)) (occl : List Nat)
    (known : Nat → Nat → Bool) : List (Nat × Nat × Nat) :=
  let h := st.halves
  let n := t.hactive / h
  let pri := fun l => fld (r1 (prismBase + 0x100 + 8 * l)) 0 6
  let ceil := fun l => min 63 (pri l + fld (r1 (prismBase + 0x100 + 8 * l)) 6 6)
  (layers.map Prod.fst).flatMap fun l =>
    (List.range (ceilDiv n (t.segPix st.twin))).flatMap fun k =>
      (List.range h).filterMap fun j =>
        let (a, b) := segRange (t.segPix st.twin) k n
        let hit := occl.any fun o =>
          o != l && (decide (ceil l < pri o) || (pri o == ceil l && decide (o < l))) &&
            opaqueRange r1 (sget (fun _ => []) layers o) o (j * n + a) (j * n + b - 1)
        if hit && known l (2 * k + j) then some (l, k, j) else none

/-- The buffer of layer `l` with the positions cover-stop left uncomposed transparent (R142). -/
def Stage.uncompose (st : Stage) (t : Timing) (stopped : List (Nat × Nat × Nat)) (l : Nat) (buf : List Pix) : List Pix :=
  if !(stopped.any fun q => q.1 == l) then buf
  else
    let h := st.halves
    let n := t.hactive / h
    let keep := (List.range (ceilDiv n (t.segPix st.twin))).flatMap fun k =>
      (List.range h).filterMap fun j =>
        let (a, b) := segRange (t.segPix st.twin) k n
        if stopped.contains (l, k, j) then none else some (j * n + a, j * n + b + 127)
    buf.mapIdx fun p q => if keep.any fun r => decide (r.1 ≤ p) && decide (p ≤ r.2) then q else {}

/-! ### Underrun -/

/-- Source `k` underruns (R120): it is suppressed to the end of the frame, flagged and counted. -/
def Stage.underrun (st : Stage) (k : Nat) : Stage :=
  let st := { st with prism := { st.prism with suppressed := bset st.prism.suppressed k true } }
  (st.setRegBit 0x440 k).modReg (0x460 + 4 * (k / 2)) fun w => satAdd w (16 * (k % 2)) 16 1

/-- Sources whose pixels the segment needs (R120): enabled, on the line, and not stopped by cover-stop. -/
def Stage.needed (st : Stage) (r0 : Nat → Word) (c : LineCtx) (seg : Nat) (k : Nat) : Bool :=
  if k < 16 then
    st.srcLive r0 k && (c.layers.any fun e => e.1 == k) &&
      !((List.range st.halves).all fun j => c.stopped.contains (k, seg, j))
  else st.srcLive r0 k && c.sprites.any fun e => e.1 == k - 16

/-- The underruns of a boundary whose late sources are `late` (R120, R194). -/
def Stage.underruns (st : Stage) (r0 : Nat → Word) (c : LineCtx) (seg : Nat) (late : BitVec 24) : Stage :=
  let cons := st.conserved.filter fun l => st.srcBound l && !st.prism.suppressed.getLsbD l
  let planeLate := cons.any fun l => late.getLsbD l
  let ks := upto 24 fun k => (late.getLsbD k && st.needed r0 c seg k) || (planeLate && cons.contains k)
  ks.foldl Stage.underrun st

/-- Sources shown again after a repair: every pixel of the segment is in the buffer (R383).
[log 73 DEDUCED] -/
def Stage.resume (st : Stage) (late : BitVec 24) : Stage :=
  { st with prism := { st.prism with resuming := st.prism.resuming &&& late } }

/-! ### Rind -/

/-- Register `o` of region `r` in force (R196). -/
def Stage.rindReg (st : Stage) (r o : Nat) : Word := st.latched (prismBase + 0x700 + 32 * r + o)

/-- The region is enabled. -/
def Stage.rindOn (st : Stage) (r : Nat) : Bool := bit (st.rindReg r 0) 0

/-- A pixel lies in region `r` (R196). -/
def Stage.inRind (st : Stage) (r x y : Nat) : Bool :=
  let lr := st.rindReg r 4
  let tb := st.rindReg r 8
  decide (fld lr 0 13 ≤ x) && decide (x ≤ fld lr 16 13) && decide (fld tb 0 12 ≤ y) && decide (y ≤ fld tb 16 12)

/-- The four bytes a pixel feeds (R198). -/
def Rgb.bytes (c : Rgb) : List Byte := leBytes (c.c0 + 1024 * c.c1 + 1048576 * c.c2) 4

/-- The running signature of region `r`. -/
def Prism.run (p : Prism) (r : Nat) : RindRun := sget (fun _ => ({} : RindRun)) p.rind r

/-- The running signature replaced. -/
def Prism.setRun (p : Prism) (r : Nat) (q : RindRun) : Prism := { p with rind := sset (fun _ => ({} : RindRun)) p.rind r q }

/-- The codes of one mixed segment fed to region `r` (R198): `xs` its stage pixels, `left` how many belong to
the left half. -/
def Stage.feedRind (st : Stage) (y : Nat) (xs : List Nat) (codes : List Rgb) (half r : Nat) : Stage :=
  if !st.rindOn r then st
  else
    let lr := st.rindReg r 4
    let tb := st.rindReg r 8
    let q := st.prism.run r
    let ps := (xs.zip codes).filter fun e => st.inRind r e.1 y
    let cur := q.cur ++ (ps.filter fun e => decide (e.1 < half)).map Prod.snd
    let curR := q.curR ++ (ps.filter fun e => decide (half ≤ e.1)).map Prod.snd
    let width := fld lr 16 13 + 1 - fld lr 0 13
    let full := cur.length + curR.length == width
    let q := if full && width != 0 then
        { q with crc := crcBytes q.crc ((cur ++ curR).flatMap Rgb.bytes), fed := q.fed + width, cur := [], curR := [] }
      else { q with cur := cur, curR := curR }
    let last := y == fld tb 16 12 && (if width = 0 then xs.contains (fld lr 16 13) else full)
    let total := width * (fld tb 16 12 + 1 - fld tb 0 12)
    let q := if last && !q.judged && q.fed == total then { q with done := true } else q
    { st with prism := st.prism.setRun r q }

/-- A frame begins for Rind: nothing fed, nothing judged. -/
def Prism.rindFrame (p : Prism) : Prism := { p with rind := [] }

/-- Region `r` judged where its signature is complete (R198, R199). Answers whether FAULT_N is asked for. -/
def Stage.judgeRind (st : Stage) (r : Nat) : Stage × Bool :=
  let q := st.prism.run r
  if !q.done || q.judged then (st, false)
  else
    let sig := ~~~q.crc
    let b := prismBase + 0x700 + 32 * r
    let p := st.prism.setRun r { q with judged := true }
    let st := ({ st with prism := p }).setReg (b + 0x14) sig
    if sig = st.reg (b + 0x10) then
      let p := st.prism
      ({ st with prism := { p with matched := if p.blanked.getLsbD r then bset p.matched r true else p.matched } }, false)
    else
      let st := st.setRegBit (prismBase + 0x800) r
      let p := st.prism
      match fld (st.rindReg r 0) 4 2 with
      | 1 => ({ st with prism := { p with blankNext := bset p.blankNext r true, matched := bset p.matched r false } }, false)
      | 2 => ({ st with prism := { p with freezeNext := true } }, false)
      | 3 => (st, true)
      | _ => (st, false)

/-- At the end of the active lines, every enabled region not judged in the frame is marked (R198).
[log 117 DESIGN CHOICE] -/
def Stage.sweepRind (st : Stage) : Stage :=
  (List.range 8).foldl (fun st r =>
    let q := st.prism.run r
    if st.rindOn r && !q.judged then
      let st := st.setRegBit (prismBase + 0x800) (18 + r)
      { st with prism := st.prism.setRun r { q with judged := true, done := false } }
    else st) st

/-! ### Conserve -/

/-- A watch fires (R192).
[log 112 DEDUCED] -/
def Stage.fireWatch (st : Stage) : Stage :=
  let st := { st with prism := { st.prism with consFired := true } }
  st.modReg (prismBase + 0x60C) fun w => satAdd (setBit w 2 true) 16 16 1

/-- A write to a register of the stage window reaches something a watch covers (R192). -/
def Stage.watchesReg (st : Stage) (o : Nat) : Bool :=
  st.watched.any fun l =>
    (decide (layerBase l ≤ o) && decide (o < layerBase l + 0x10000)) ||
    (decide (prismBase + 0x100 + 8 * l ≤ o) && decide (o < prismBase + 0x108 + 8 * l)) ||
    (decide (prismBase + 0x300 + 16 * l ≤ o) && decide (o < prismBase + 0x310 + 16 * l))

/-- Ranges of memory the watches cover: base and bytes (R192). -/
def Stage.watchRanges (st : Stage) : List (Nat × Nat) :=
  let layer := fun l =>
    let b := layerBase l
    let c : LayerLine := { r := fun o => st.reg (b + o), hs := 0, y := 0, w := 0, fv := 0 }
    if c.mode % 2 = 0 then (c.base 0x20, c.pagesX * c.pagesY * c.mapW * c.mapH * 4)
    else (c.base 0x30, c.srcH * fld (c.r 0x3C) 0 24)
  let own := (List.range 4).map fun k =>
    let b := prismBase + 0x620 + 16 * k
    (base40 (st.reg b) (st.reg (b + 4)), (st.reg (b + 8)).toNat)
  (st.watched.map layer ++ own).filter fun r => r.2 != 0

/-- A write of `n` bytes at `a` reaches memory a watch covers (R192). -/
def Stage.watchesMem (st : Stage) (a n : Nat) : Bool :=
  st.watchRanges.any fun r => decide (a < r.1 + r.2) && decide (r.1 < a + n)

/-- A stage register write that reached its register (R192).
[log 112 DEDUCED] -/
def Stage.watchReg (st : Stage) (o : Nat) : Stage := if st.watchesReg o then st.fireWatch else st

/-- A memory write of the stage that reached memory (R192). -/
def State.watchMem (s : State) (i a n : Nat) : State :=
  s.modStage i fun st => if st.watchesMem a n then st.fireWatch else st

/-- The switch point (R191). -/
def Stage.consSwitch (st : Stage) (t : Timing) : Stage :=
  let p := st.prism
  let on := bit (st.latched (prismBase + 0x600)) 0
  let next :=
    if !on then 0
    else if !st.eligible t then 3
    else match p.consState with
      | 1 => if p.consFired then 1 else 2
      | 2 => if p.consFired then 1 else 2
      | _ => 1
  { st with prism := { p with consState := next, consFired := false } }

/-- The base of the plane (R189). -/
def Stage.consBase (st : Stage) : Nat :=
  base40 (st.latched (prismBase + 0x604)) (st.latched (prismBase + 0x608))

/-- Plane entries written for one segment of a flattening frame (R189): outside the partitions they are
dropped and recorded (R91); a plane in the Orchard is unpredictable (R11).
[log 116 DESIGN CHOICE] -/
def State.writePlane (s : State) (i y w : Nat) (es : List (Nat × Nat)) : State :=
  let base := (s.stage i).consBase
  let at' := fun x => base + 8 * (y * w + x)
  let (fv, s) := if isOrchard base then s.draw else (0, s)
  let ok := es.filter fun e => (s.stage i).inSegs (at' e.1) 8
  let bad := ((es.filter fun e => !(s.stage i).inSegs (at' e.1) 8).map fun e => at' e.1 / 64 * 64).eraseDups
  let rs := ok.map fun e => (at' e.1, 8)
  let (drop, s) := s.openRanges rs fun w => (List.range 32).all fun j => covers rs (w + j)
  let s := ok.foldl (fun s e =>
    s.putBytes drop (at' e.1) (leBytes (if isOrchard base then (Config.anyPixel fv e.1).toNat else e.2) 8)) s
  bad.foldl (fun s a => s.blockOut i 2 0 a true) s

/-- One line of the plane as read (R189, R195): the entries, the reads, and whether one met an
uncorrectable word.
[log 116 DESIGN CHOICE] -/
def Stage.readPlane (st : Stage) (m : Source) (fv y w : Nat) : List (BitVec 64) × List (Nat × Nat) × Bool :=
  let base := st.consBase
  let rd := (List.range w).map fun x => (base + 8 * (y * w + x), 8)
  let ue := rd.any fun q => m.bad (q.1 / 32 * 32) 32
  (rd.mapIdx fun x q =>
    if m.bad (q.1 / 32 * 32) 32 then BitVec.ofNat 64 (2 ^ 55)
    else if isOrchard base then Config.anyPixel fv x
    else BitVec.ofNat 64 (m.le q.1 8), rd, ue)

/-! ### Fences -/

/-- Fence `f` (R182). -/
def fenceReg (f : Nat) : Nat := 0x1000 + 4 * f

/-- One fence signal applied to a value (R182). -/
def fenceStep (w : Word) (add : Bool) (v : Word) : Word := if add then w + v else v

/-- A fence set or added to (R182): the signals of one FAB cycle apply in the order of their senders' ranks. -/
def Stage.signalFence (st : Stage) (rank f : Nat) (add : Bool) (v : Word) : Stage :=
  let c := st.cyc
  let first := ((c.fence0.find? fun e => e.1 == f).map Prod.snd).getD (st.reg (fenceReg f))
  let all := (c.fences.filter fun e => decide (e.1 ≤ rank)) ++ [(rank, f, add, v)] ++ c.fences.filter fun e => decide (rank < e.1)
  let now := (all.filter fun e => e.2.1 == f).foldl (fun w e => fenceStep w e.2.2.1 e.2.2.2) first
  let st := { st with cyc := { c with
    fences := all, fence0 := if c.fence0.any fun e => e.1 == f then c.fence0 else (f, first) :: c.fence0 } }
  st.setReg (fenceReg f) now

/-- A fence is reached for a target (R182). -/
def Stage.fenceReached (st : Stage) (f : Nat) (target : Word) : Bool :=
  decide ((st.reg (fenceReg f) - target).toNat < 2 ^ 31)

/-! ### Flips -/

/-- `PRISM_FLIPk_CTRL` written (R183): ARM wins over CANCEL. -/
def Stage.flipCtrl (st : Stage) (k : Nat) (v : Word) : Stage :=
  let o := prismBase + 0x300 + 16 * k
  let st := st.setReg (o + 0xC) (v &&& 0x1FF)
  let p := st.prism
  if bit v 31 then
    let cap : FlipCap := {
      addr := base40 (st.reg o) (st.reg (o + 4)) / (if k < 16 then 64 else 32) * (if k < 16 then 64 else 32)
      target := st.reg (o + 8), fence := fld v 0 8, nofence := bit v 8 }
    { st with prism := { p with armed := bset p.armed k true, caps := sset (fun _ => ({} : FlipCap)) p.caps k cap } }
  else if bit v 30 then { st with prism := { p with armed := bset p.armed k false } }
  else st

/-- Slot `k` is ready (R185); an unbound or shed source counts as ready in its group. -/
def Stage.flipReady (st : Stage) (k : Nat) : Bool :=
  let c := sget (fun _ => ({} : FlipCap)) st.prism.caps k
  !st.srcBound k || (st.prism.armed.getLsbD k && (c.nofence || st.fenceReached c.fence c.target))

/-- The flip group of slot `k` (R184). -/
def Stage.flipGroup (st : Stage) (k : Nat) : Option Nat :=
  (List.range 8).find? fun g => bit (st.reg (prismBase + 0x480 + 4 * g)) k

/-- The register pair slot `k` flips: the `_LO` offset (R183). -/
def Stage.flipTarget (st : Stage) (k : Nat) : Nat :=
  if k < 16 then layerBase k + (if fld (st.reg (layerBase k)) 2 2 % 2 = 0 then 0x20 else 0x30)
  else spriteBase (k - 16) + 8

/-- Slot `k` flips, or is held back (R185).
[log 114 DEDUCED] -/
def Stage.doFlip (st : Stage) (k : Nat) (ok : Bool) : Stage :=
  if !st.prism.armed.getLsbD k || !st.srcBound k then st
  else if ok then
    let c := sget (fun _ => ({} : FlipCap)) st.prism.caps k
    let o := st.flipTarget k
    let st := (st.setReg o (wd c.addr)).setReg (o + 4) (wd (c.addr / 2 ^ 32))
    let st := { st with prism := { st.prism with armed := bset st.prism.armed k false } }
    st.setRegBit (prismBase + 0x4A4) k
  else if bit (st.reg (prismBase + 0x4A0)) k then st
  else { st.setRegBit (prismBase + 0x4A0) k with cyc := { st.cyc with miss := bset st.cyc.miss k true } }

/-- Every slot judged at a latch instant (R185), on the state as the instant finds it. -/
def Stage.judgeFlips (st : Stage) : Stage :=
  let ok := fun k => match st.flipGroup k with
    | none => st.flipReady k
    | some g => (upto 24 fun j => st.flipGroup j == some g).all st.flipReady
  (List.range 24).foldl (fun x k => x.doFlip k (ok k)) st

/-- Slots that a latch instant of this FAB cycle has held back are to be judged again (R8, R185). -/
def Stage.unmiss (st : Stage) : Stage :=
  { st.modReg (prismBase + 0x4A0) fun w => w &&& ~~~(st.cyc.miss.zeroExtend 32) with cyc := { st.cyc with miss := 0 } }

/-- A slot disarmed without flipping when its source is shed (R185). -/
def Stage.disarm (st : Stage) (k : Nat) : Stage :=
  { st with prism := { st.prism with armed := bset st.prism.armed k false } }

end Sys2Proof.Machine
end

