-- ==== Sys2Proof/Machine/Chord.lean ====
section
/-!
DEFINITION. The Chord of a stage (R201-R218): the program store, the flow of a line program, the issue
of its writes, quick inputs and the firing of reflexes. Delivery of writes is in ChordRun.lean.
-/

namespace Sys2Proof.Machine

/-- The Chord block (R215). -/
def chordBase : Nat := 0x1A0000

/-- A bit of `CHORD_STATUS` set. -/
def Stage.chordFlag (st : Stage) (i : Nat) : Stage := st.setRegBit (chordBase + 0x10) i

/-- The Chord changed by `f`. -/
def Stage.modChord (st : Stage) (f : Chord → Chord) : Stage := { st with chord := f st.chord }

/-! ### The program store -/

/-- A program stopped (R203, R205). -/
def Chord.stop (c : Chord) : Chord := { c with running := false, waiting := none, never := false }

/-- What the latch instant does to the Chord (R202, R203): a running program is stopped, and the store
is reloaded if RUN is 1 and there is a program. PC is 0 from the latch instant on.
[log 88 DEDUCED] -/
def Stage.chordLatch (st : Stage) (line : Nat) (field : Bool) : Stage :=
  let st := if st.chord.running && !st.chord.never then st.chordFlag 1 else st
  let run := bit (st.latched chordBase) 0 && st.latched (chordBase + 0xC) != 0 &&
    !st.prism.frozen && (st.bind 25).bound
  st.modChord fun c => { c.stop with reloading := run, pc := 0, latch := line, latchField := field }

/-- Instructions the reload reads (R202). -/
def Stage.chordLen (st : Stage) : Nat := min (fld (st.latched (chordBase + 0xC)) 0 12) 2048

/-- Base of the program (R202).
[log 120 DEDUCED] -/
def Stage.chordProg (st : Stage) : Nat := base40 (st.latched (chordBase + 4)) (st.latched (chordBase + 8))

/-- `CHORD_PROGRAM_START` (R202, R203): the reload ends and the program starts at instruction 0; from an
uncorrectable 32-byte word on, every instruction is END.
[log 120 DEDUCED] -/
def execChordProgramStart (s : Nat) (ueWord : Option Nat) (st : State) : Res :=
  let x := st.stage s
  if !x.chord.reloading then .next st
  else
    let base := x.chordProg
    let n := x.chordLen
    let st := match ueWord with
      | some w => if w < 2 * ceilDiv n 8 then st.upset (base + 32 * w) 3 else st
      | none => st
    let (m, st) := st.source s
    let rd := (List.range (ceilDiv n 8)).map fun k => (base + 64 * k, 64)
    let all := rd.flatMap fun q => m.bytes q.1 q.2
    let words := (List.range n).map fun k => BitVec.ofNat 64 (leNat ((all.drop (8 * k)).take 8))
    let ue := ((List.range (2 * ceilDiv n 8)).filter fun w => m.bad (base + 32 * w) 32).head?
    let st := st.recordReads s 3 0 m rd
    let st := if ue.isSome then st.modStage s (·.chordFlag 5) else st
    .next (st.modStage s (·.modChord fun c => { c with
      store := match ue with | some w => words.take (4 * w) | none => words
      reloading := false, running := !c.faulted, pc := 0, ctrs := [], prevLine := c.latch, waiting := none, never := false }))

/-! ### Issue -/

/-- The instruction at PC; beyond the store it is END (R202). -/
def Chord.instr (c : Chord) : Nat := (c.store.getD c.pc 0).toNat

/-- Field of `n` bits of an instruction from bit `lo` (R205). -/
def ifld (w lo n : Nat) : Nat := w / 2 ^ lo % 2 ^ n

/-- The opcode (R205). -/
def Chord.op (c : Chord) : Nat := ifld c.instr 60 4

/-- The Chord can issue its next instruction (R204, R377, R199). -/
def Stage.chordIssues (st : Stage) : Bool :=
  st.chord.running && st.chord.waiting.isNone && !st.chord.faulted && !st.prism.frozen && !st.held.contains 25

/-- PC set; past instruction 2047 the program ends (R211). -/
def Chord.goto (c : Chord) (n : Nat) : Chord := if 2047 < n then c.stop else { c with pc := n }

/-- A Chord step: the command of opcode `op` issues the instruction at PC if that has the opcode. -/
def chordStep (op : Nat) (s : Nat) (st : State) (f : Nat → State → State) : Res :=
  let x := st.stage s
  if x.chordIssues && x.chord.op == op then .next (f x.chord.instr st) else .next st

/-- The Chord of stage `s` changed by `f`. -/
def State.modChord (st : State) (s : Nat) (f : Chord → Chord) : State := st.modStage s (·.modChord f)

/-- PC moved on by one. -/
def Chord.advance (c : Chord) : Chord := c.goto (c.pc + 1)

/-- `CHORD_END` (R205). -/
def execChordEnd (s : Nat) (st : State) : Res := chordStep 0 s st fun _ st => st.modChord s Chord.stop

/-- `BAD_OP` (R213): a reserved opcode. -/
def execBadOp (s : Nat) (st : State) : Res :=
  let x := st.stage s
  if x.chordIssues && decide (9 ≤ x.chord.op) then .next (st.modStage s fun x => (x.chordFlag 3).modChord Chord.stop)
  else .next st

/-! ### WAIT -/

/-- Line `l` in the order of the program frame (R203), which begins in field `latchField` (R106). -/
def Chord.order (c : Chord) (t : Timing) (l : Nat) : Nat :=
  if c.latch ≤ l then l - c.latch else l + t.lines c.latchField - c.latch

/-- The segment last begun, in the order of the program frame. -/
def Stage.mixOrder (st : Stage) : Nat :=
  let t := st.beam.inForce
  let n := t.lines st.beam.field
  let ahead := (st.prism.mixLine + n - st.beam.line) % (if n = 0 then 1 else n)
  (st.chord.order t st.beam.line + ahead) * st.segCount t + st.prism.mixSeg

/-- The segment of a target, in the same order, counted so that it is begun when `mixOrder` exceeds it. -/
def Stage.targetOrder (st : Stage) (line px : Nat) : Nat :=
  let t := st.beam.inForce
  st.chord.order t line * st.segCount t + px / t.segPix st.twin

/-- The target is never due (R206). -/
def Stage.neverDue (st : Stage) (line px : Nat) : Bool :=
  let t := st.beam.inForce
  decide (t.htotal / st.halves ≤ px) || decide (t.lines st.chord.latchField ≤ line)

/-- The cycle of a target has passed by the clock: the beam stands less than ML + 16 FAB cycles before it, or beyond it
(R201, R206). A FAB cycle is `rpf` root ticks.
[log 118 DEDUCED] -/
def Stage.clockPassed (st : Stage) (now rpf line px : Nat) : Bool :=
  let t := st.beam.inForce
  let ahead : Int := (st.chord.order t line : Int) - st.chord.order t st.beam.line
  let pixels : Int := ahead * t.portTotal st.twin + px
  decide (pixels * 2400000000 * st.halves < ((now - st.beam.lineAt : Nat) + (st.chord.lead + 16) * rpf : Int) * t.pixclk)

/-- Whether the cycle of a target has passed (R206): known from the segments mixed, and for a target in the segments at the
mix from the clock.
[log 118 DEDUCED] -/
def Stage.waitPassed (st : Stage) (now rpf line px : Nat) : Bool :=
  let a := st.targetOrder line px
  let m := st.mixOrder
  if a + 1 < m then true else if m + 1 < a then false else st.clockPassed now rpf line px

/-- WAIT (R206): the target, and what becomes of it. -/
def State.chordWait (st : State) (s : Nat) (w : Nat) : State :=
  let x := st.stage s
  let n := x.beam.inForce.lines x.chord.latchField
  let line := if ifld w 59 1 = 1 then (x.chord.prevLine + ifld w 32 12) % (if n = 0 then 1 else n) else ifld w 32 12
  let px := ifld w 0 16
  let now := st.root
  let rpf := if st.slow then 4 else 2
  let st := st.modChord s fun c => { c with prevLine := line }
  if x.neverDue line px then st.modChord s fun c => { c with waiting := some (line, px), never := true }
  else if x.waitPassed now rpf line px then st.modStage s fun x => (x.chordFlag 2).modChord Chord.advance
  else st.modChord s fun c => { c with waiting := some (line, px) }

/-- `CHORD_WAIT` (R206). -/
def execChordWait (s : Nat) (st : State) : Res := chordStep 1 s st fun w st => st.chordWait s w

/-- `CHORD_WAIT_DUE` (R206): the target's cycle comes, no more than 16 cycles before its segment is mixed. -/
def execChordWaitDue (s : Nat) (st : State) : Res :=
  let x := st.stage s
  match x.chord.waiting with
  | none => .next st
  | some (l, p) =>
    if x.chord.running && !x.chord.never && !x.chord.faulted && !x.prism.frozen && decide (x.targetOrder l p ≤ x.mixOrder + 1) then
      .next (st.modChord s fun c => ({ c with waiting := none }).advance)
    else .next st

/-! ### Writes and events -/

/-- A write put on its way (R207): the program's writes arrive in issue order, so one that cannot be late
brings the earlier ones forward. -/
def Chord.send (c : Chord) (w : ChordWrite) (exact : Bool) : Chord :=
  if exact then { c with flight := (c.flight.map fun e => if e.isFence then e else { e with due := min e.due w.due }) ++ [w] }
  else { c with flight := c.flight ++ [{ w with due := c.flight.foldl (fun d e => if e.isFence then d else max d e.due) w.due }] }

/-- A WRITE or MASKWRITE on its way, 12 to 40 cycles (R207).
[log 119 DESIGN CHOICE] -/
def State.chordSend (st : State) (s off : Nat) (v m : Word) : State :=
  let (fv, st) := st.draw
  let due := st.fab + 12 + Config.chordDelay fv % 29
  st.modChord s fun c => (c.send { due := due, off := off, val := v, mask := m } false).advance

/-- `CHORD_WRITE` (R207). -/
def execChordWrite (s : Nat) (st : State) : Res :=
  chordStep 2 s st fun w st => st.chordSend s (4 * ifld w 32 20) (wd (ifld w 0 32)) 0xFFFFFFFF

/-- `MASKWRITE` (R210). -/
def execMaskwrite (s : Nat) (st : State) : Res :=
  chordStep 3 s st fun w st =>
    let k := if ifld w 52 1 = 1 then 65536 else 1
    st.chordSend s (4 * ifld w 32 20) (wd (ifld w 0 16 * k)) (wd (ifld w 16 16 * k))

/-- The registers R181 lists (R209). -/
def isClass0 (o : Nat) : Bool :=
  (decide (0x10000 ≤ o) && decide (o < 0x110000) && (o % 0x10000 == 0 || o % 0x10000 == 4)) ||
  (decide (0x110000 ≤ o) && decide (o < 0x190000) && o % 0x10000 == 0) ||
  (decide (prismBase ≤ o) && decide (o < prismBase + 0x10000) &&
    (let q := o - prismBase
     q == 0 || (decide (0x4000 ≤ q) && decide (q < 0x8000) && q % 4 == 0) ||
     (decide (0x104 ≤ q) && decide (q < 0x1C0) && q % 8 == 4) ||
     (decide (0x200 ≤ q) && decide (q < 0x240) && (q % 16 == 4 || q % 16 == 8)) ||
     (decide (0x500 ≤ q) && decide (q < 0x540) && decide (q % 0x20 < 0x18) && q % 4 == 0)))

/-- `WRITE_CLASS0` (R207, R209): exactly 12 cycles; another target is dropped. -/
def execWriteClass0 (s : Nat) (st : State) : Res :=
  chordStep 4 s st fun w st =>
    let o := 4 * ifld w 32 20
    if isClass0 o then
      st.modChord s fun c => (c.send { due := st.fab + 12, off := o, val := wd (ifld w 0 32), mask := 0xFFFFFFFF } true).advance
    else st.modStage s fun x => (x.chordFlag 4).modChord Chord.advance

/-- `SKIP_IF` (R211). -/
def execSkipIf (s : Nat) (st : State) : Res :=
  chordStep 5 s st fun w st =>
    let hit := st.qi.getLsbD (ifld w 32 6) == (ifld w 59 1 == 1)
    st.modChord s fun c => c.goto (c.pc + 1 + (if hit then max 1 (ifld w 0 8) else 0))

/-- `LOOP` (R211): a counter is not 0 while it is active. -/
def Chord.loop (c : Chord) (w : Nat) : Chord :=
  let k := ifld w 56 2
  let old := sget (fun _ => 0) c.ctrs k
  let n := (if old = 0 then max 1 (ifld w 32 16) else old) - 1
  if n = 0 then ({ c with ctrs := sset (fun _ => 0) c.ctrs k 0 }).advance
  else ({ c with ctrs := sset (fun _ => 0) c.ctrs k n }).goto (ifld w 0 16)

/-- `LOOP` (R211). -/
def execLoop (s : Nat) (st : State) : Res := chordStep 6 s st fun w st => st.modChord s fun c => c.loop w

/-- `FENCE_SIGNAL` (R212): arrives 40 cycles after it issues.
[log 119 DESIGN CHOICE] -/
def execFenceSignal (s : Nat) (st : State) : Res :=
  chordStep 7 s st fun w st =>
    let e : ChordWrite := {
      due := st.fab + 40, off := ifld w 32 8, val := wd (ifld w 0 32)
      mask := if ifld w 59 1 = 1 then 0xFFFFFFFF else 0, isFence := true }
    st.modChord s fun (c : Chord) => Chord.advance { c with flight := c.flight ++ [e] }

/-- `CHORD_IRQ` (R212). -/
def execChordIrq (s : Nat) (st : State) : Res :=
  chordStep 8 s st fun w st => st.modStage s fun x => (x.setRegBit (chordBase + 0x1C) (ifld w 32 2)).modChord Chord.advance

/-! ### Quick inputs and reflexes -/

/-- The stage that owns quick input `q` (R57, R214). -/
def State.qiOwner (s : State) (q : Nat) : Option Nat := (List.range 4).find? fun i => (s.stage i).qiOwn.getLsbD q

/-- An edge kind selects an edge: bit 0 rising, bit 1 falling (R215, R216). -/
def edgeHit (kind : Nat) (rising : Bool) : Bool := if rising then kind % 2 == 1 else kind / 2 % 2 == 1

/-- One edge of a quick input counted (R215).
[log 121 DEDUCED] -/
def State.countQi (s : State) (i q : Nat) (rising : Bool) : State :=
  let cfg := (s.stage i).reg (chordBase + 0x100 + 4 * q)
  if edgeHit (fld cfg 8 2) rising then
    let n := sget (fun _ => 0) s.qiPresc q + 1
    if fld cfg 16 8 < n then
      { s with qiPresc := sset (fun _ => 0) s.qiPresc q 0 }.modStage i fun st =>
        { st.modReg (chordBase + 0x200 + 4 * q) (· + 1) with cyc := { st.cyc with qi := q :: st.cyc.qi } }
    else { s with qiPresc := sset (fun _ => 0) s.qiPresc q n }
  else s

/-- Register `o` of reflex entry `e` (R216). -/
def rfxReg (e o : Nat) : Nat := chordBase + 0x1000 + 64 * e + o

/-- Reflexes of the stage can fire (R216, R199, R377). -/
def Stage.reflexOn (st : Stage) : Bool :=
  bit (st.reg chordBase) 1 && !st.prism.frozen && st.phase = .running && (st.bind 25).bound

/-- Entry `e` matches an edge (R216, R217). -/
def Stage.rfxMatch (st : Stage) (q : Nat) (rising : Bool) (e : Nat) : Bool :=
  let w := st.reg (rfxReg e 0)
  bit w 0 && fld w 8 6 == q && edgeHit (fld w 1 2) rising && st.qiOwn.getLsbD q

/-- The writes of entry `e` as the edge finds them (R216). -/
def Stage.rfxWrites (st : Stage) (due e : Nat) : List ChordWrite :=
  (List.range (fld (st.reg (rfxReg e 0)) 16 2 + 1)).map fun j =>
    let t := st.reg (rfxReg e (0x10 + 12 * j))
    { due := due, off := 4 * fld t 2 20, val := st.reg (rfxReg e (0x14 + 12 * j))
      mask := if bit t 0 then st.reg (rfxReg e (0x18 + 12 * j)) else 0xFFFFFFFF }

/-- Entries taken sixteen at a time: the groups of R217.
[log 91 DEDUCED, 119 DESIGN CHOICE] -/
def rankGroups (edge : Nat) : Nat → Nat → List (Nat × List ChordWrite) → List ReflexGroup
  | 0, _, _ => []
  | n + 1, g, es =>
    if es.isEmpty then []
    else { edge := edge, due := edge + 12 + g, entries := es.take 16 } :: rankGroups edge n (g + 1) (es.drop 16)

/-- Groups put among those not yet delivered, earliest first (R217). -/
def Chord.queueReflex (c : Chord) (gs : List ReflexGroup) : Chord :=
  { c with reflex := gs.foldl (fun l g => (l.filter fun x => decide (x.due ≤ g.due)) ++ [g] ++ l.filter fun x => decide (g.due < x.due)) c.reflex }

/-- The entries `es` fire at cycle `fab` (R217): ranked by ascending number; ONESHOT disarms. `late` keeps them from being
judged anew. -/
def Stage.fireEntries (st : Stage) (fab : Nat) (late : Bool) (es : List Nat) : Stage :=
  let all := es.map fun e => (e, st.rfxWrites (fab + 12) e)
  let x := es.foldl (fun (x : Stage) e => x.modReg (rfxReg e 0) fun w => if bit w 24 then setBit w 0 false else w) st
  x.modChord (·.queueReflex ((rankGroups fab 64 0 all).map fun g => if late then { g with edge := 0 } else g))

/-- The edges of this FAB cycle fire the entries that stand at its end (R8, R217): what an edge of this cycle fired before is
taken back and judged anew. A unit that is being rebound keeps what it has fired.
[log 91 DEDUCED] -/
def Stage.refire (st : Stage) (fab : Nat) : Stage :=
  if st.cyc.edges.isEmpty || st.chord.faulted then st
  else
    let x := st.cyc.shot.foldl (fun (x : Stage) e => x.modReg (rfxReg e 0) fun w => setBit w 0 true) st
    let x := x.modChord fun c => { c with reflex := c.reflex.filter fun g => g.edge != fab }
    let es := if x.reflexOn then upto 64 fun e => x.cyc.edges.any fun q => x.rfxMatch q.1 q.2 e else []
    let x := { x with cyc := { x.cyc with shot := es.filter fun e => bit (x.reg (rfxReg e 0)) 24 } }
    x.fireEntries fab false es

/-- An edge fires every armed entry that matches it (R217); `late` marks one that was recorded while the unit had failed, and
is not ranked with others (R383).
[log 91 DEDUCED] -/
def Stage.fireReflexes (st : Stage) (fab q : Nat) (rising late : Bool) : Stage :=
  if late then st.fireEntries fab true (upto 64 (st.rfxMatch q rising))
  else { st with cyc := { st.cyc with edges := st.cyc.edges ++ [(q, rising)] } }.refire fab

/-- A write of `REFLEX_EN` or of a reflex entry is seen by the edges of its FAB cycle (R8, R217). -/
def Stage.rfxWritten (st : Stage) (fab q : Nat) : Stage :=
  let st := if 0x1000 ≤ q && q % 64 == 0 then { st with cyc := { st.cyc with shot := st.cyc.shot.filter (· != (q - 0x1000) / 64) } } else st
  if q = 0 || 0x1000 ≤ q then st.refire fab else st

/-- An edge of quick input `q` at stage `i`: while its Chord has failed the edge is recorded (R377, R383).
[log 121 DEDUCED] -/
def State.qiEdge (s : State) (i q : Nat) (rising : Bool) : State :=
  let s := s.countQi i q rising
  let st := s.stage i
  if st.chord.faulted then s.modChord i fun c => { c with edges := c.edges ++ [(q, rising)] }
  else
    let fab := s.fab
    s.modStage i fun st => st.fireReflexes fab q rising false

/-- `QI_FILTER_ACCEPT` (R214, R215, R217). -/
def execQiFilterAccept (q : Nat) (level : Bool) (s : State) : Res :=
  if 64 ≤ q ∨ s.qi.getLsbD q = level ∨ (level && !s.power.io33) then .next s
  else
    let s := { s with qi := bset s.qi q level, qiPins := bset s.qiPins q level, qiAt := sset (fun _ => 0) s.qiAt q s.peri }
    match s.qiOwner q with
    | none => .next s
    | some i => .next (s.qiEdge i q level)

/-- `QI_CFG_WRITE` (R214, R215). -/
def State.writeQiCfg (s : State) (n q : Nat) (v : Word) : State :=
  let st := s.stage n
  if !(st.bind 25).bound then s.modStage n (·.setRegBit 4 9)
  else if !st.qiOwn.getLsbD q then s.modStage n (·.chordFlag 7)
  else { s with qiPresc := sset (fun _ => 0) s.qiPresc q 0 }.setSreg n (chordBase + 0x100 + 4 * q) (v &&& 0xFF03FF)

end Sys2Proof.Machine
end

