-- ==== Sys2Proof/Machine/Gain.lean ====
section
/-!
DEFINITION. Gains, ramps and rounding of the Bramble (R231, R242, R243).
-/

namespace Sys2Proof.Machine

/-- The largest `m` below 2^80 with m^q ≤ b^p × 2^(64 q): 2^64 × b^(p/q), rounded down. -/
def rootScaled (b p q : Nat) : Nat :=
  (List.range 80).foldl (fun m i =>
    let m' := m + 2 ^ (79 - i)
    if m' ^ q ≤ b ^ p * 2 ^ (64 * q) then m' else m) 0

/-! ### Exponentials, logarithms and sines, in steps of 2^-96 -/

/-- A rational in steps of 2^-96. -/
def toFix (x : Rat) : Int := (x * 2 ^ 96).floor

/-- A number of steps of 2^-96. -/
def ofFix (x : Int) : Rat := (x : Rat) / 2 ^ 96

/-- The sum of a series of 40 terms from `t`, each the last one × `x` / `d k` for k = 0, 1, … -/
def seriesFix (x t : Int) (d : Nat → Int) : Int :=
  ((List.range 40).foldl (fun (q : Int × Int) k => (q.1 + q.2, q.2 * x / 2 ^ 96 / d k)) (0, t)).1

/-- π. -/
def piRat : Rat := 314159265358979323846264338327950288419716939937510 / 10 ^ 50

/-- The sine of an angle between −π and π. -/
def sinRat (x : Rat) : Rat :=
  let y := toFix x
  ofFix (seriesFix (-(y * y / 2 ^ 96)) y fun k => ((2 * k + 2) * (2 * k + 3) : Nat))

/-- The cosine of an angle between −π and π. -/
def cosRat (x : Rat) : Rat :=
  let y := toFix x
  ofFix (seriesFix (-(y * y / 2 ^ 96)) (2 ^ 96) fun k => ((2 * k + 1) * (2 * k + 2) : Nat))

/-- 2^x: the exponential of the fraction of x, at the power of two of its floor. -/
def exp2Rat (x : Rat) : Rat :=
  let ln2 : Rat := 69314718055994530941723212145817656807550013436026 / 10 ^ 50
  let y := ofFix (seriesFix (toFix ((x - x.floor) * ln2)) (2 ^ 96) fun k => (k + 1 : Nat))
  if 0 ≤ x.floor then y * 2 ^ x.floor.natAbs else y / 2 ^ x.floor.natAbs

/-- b^x for b = 2 and b = 10. -/
def powRat (b : Nat) (x : Rat) : Rat :=
  exp2Rat (if b = 2 then x else x * (332192809488736234787031942948939017586483139302458 / 10 ^ 50))

/-- log2 of x > 0 to 64 places: the square of the mantissa gives one bit at a time. -/
def log2Rat (x : Rat) : Rat :=
  let p := x.num.natAbs
  let e : Int := (Nat.log2 p : Int) - (Nat.log2 x.den : Int)
  let y := p * 2 ^ (96 + Nat.log2 x.den) / (x.den * 2 ^ Nat.log2 p)
  let (e, y) := if y < 2 ^ 96 then (e - 1, 2 * y) else (e, y)
  let f := ((List.range 64).foldl (fun (q : Nat × Nat) _ =>
    let z := q.2 * q.2 / 2 ^ 96
    if z < 2 ^ 97 then (2 * q.1, z) else (2 * q.1 + 1, z / 2)) (0, y)).1
  e + (f : Rat) / 2 ^ 64

/-- The decibels of an amplitude above 0. -/
def ampDb (x : Rat) : Rat := log2Rat x * (602059991327962390427477789448986053536379762924217 / 10 ^ 50)

/-- The linear factor of a number of decibels, accurate to 24 bits (R242).
[log 122 DESIGN CHOICE] -/
def dbLin (x : Rat) : Rat := powRat 10 (x / 20) + (((Config.gainErr x % 2 ^ 17 : Nat) : Rat) - 2 ^ 16) / 2 ^ 41

/-- A value taken to a whole number.
[log 122 DESIGN CHOICE] -/
def roundSample (x : Rat) : Int := if x.den = 1 then x.num else x.floor + (Config.roundUp x).toNat

/-- A whole number clipped to `n` bits, signed, and whether that changed it. -/
def clipTo (n : Nat) (x : Int) : Int × Bool :=
  let y := max (-(2 ^ (n - 1) : Int)) (min (2 ^ (n - 1) - 1) x)
  (y, decide (y ≠ x))

/-! ### Gain codes -/

/-- A gain code (R242).
[log 122 DESIGN CHOICE] -/
def gainOf (code : Nat) : Gain :=
  if code = 0 then { mute := true }
  else { db := -96 + (((min code 1081 : Nat) : Rat) - 1) / 10 }

/-- The factor of a gain (R242). -/
def Gain.lin (g : Gain) : Rat := if g.mute then 0 else dbLin g.db

/-- Decibels of a gain at the ends of a ramp (R243). -/
def Gain.asDb (g : Gain) : Rat := if g.mute then -96 else g.db

/-- Sample `t` of a ramp of `len` samples (R243). -/
def rampAt (g0 g1 : Gain) (t len : Nat) : Gain :=
  { db := g0.asDb + (g1.asDb - g0.asDb) * ((t : Rat) + 1) / len }

/-- The gain a ramp uses for its next sample. -/
def Ramp.now (r : Ramp) : Gain := if r.len = 0 then r.g1 else rampAt r.g0 r.g1 r.t r.len

/-- The gain a ramp used for its last sample. -/
def Ramp.last (r : Ramp) : Gain :=
  if r.len = 0 then r.g1 else if r.t = 0 then r.g0 else rampAt r.g0 r.g1 (r.t - 1) r.len

/-- What a ramp sends in one sample: target and factor (R243). -/
def Ramp.targets (r : Ramp) : List (Nat × Rat) :=
  (r.dst, r.now.lin) :: r.out.map fun o => (o.dst, (rampAt o.g0 { mute := true } o.t o.len).lin)

/-- A ramp moved on by one sample. -/
def Ramp.step (r : Ramp) : Ramp :=
  let out := (r.out.map fun o => { o with t := o.t + 1 }).filter fun o => decide (o.t < o.len)
  if r.len ≤ r.t + 1 then { r with out := out, g0 := r.g1, t := 0, len := 0 } else { r with out := out, t := r.t + 1 }

/-- A target of gain and destination that takes effect at a block boundary (R243). -/
def Ramp.aim (r : Ramp) (g : Gain) (dst len : Nat) : Ramp :=
  if dst ≠ r.dst then
    { g0 := { mute := true }, g1 := g, t := 0, len := len, dst := dst
      out := r.out ++ [{ dst := r.dst, g0 := r.last, t := 0, len := len }] }
  else if g ≠ r.g1 then { r with g0 := r.last, g1 := g, t := 0, len := len }
  else r

/-- A target in force without a ramp, at sound start. -/
def Ramp.still (g : Gain) (dst : Nat) : Ramp := { g0 := g, g1 := g, dst := dst }

/-! ### Envelopes and LFOs -/

/-- T(r) of R231 for r = 1-255. -/
def rateT (r : Nat) : Nat := (rootScaled 2 r 20 * 16 + 2 ^ 63) / 2 ^ 64

/-- The level of an envelope as an amplitude (R231). -/
def Env.level (e : Env) : Rat :=
  match e.stage with
  | .idle => 0
  | .attack => e.amp
  | _ => dbLin e.db

/-- The sustain level in dB (R230). -/
def sustainDb (w : Word) : Rat := -(3 / 8 : Rat) * (fld w 16 8 : Nat)

/-- Stages whose rate code is 0 are over at once (R231). -/
def Env.settle (e : Env) (w : Word) : Env :=
  let e := if e.stage = .attack ∧ fld w 0 8 = 0 then { stage := .decay, amp := 1, db := 0 } else e
  let e := if e.stage = .decay ∧ fld w 8 8 = 0 then { e with db := min e.db (sustainDb w) } else e
  if e.stage = .release ∧ fld w 24 8 = 0 then {} else e

/-- An envelope after one sample (R231). -/
def Env.advance (e : Env) (w : Word) : Env :=
  match e.stage with
  | .idle => e
  | .attack =>
    let a := e.amp + 1 / (rateT (fld w 0 8) : Nat)
    if 1 ≤ a then { stage := .decay, amp := 1, db := 0 } else { e with amp := a }
  | .decay =>
    let s := sustainDb w
    if s < e.db then { e with db := max s (e.db - 96 / (rateT (fld w 8 8) : Nat)) } else e
  | .release =>
    let d := e.db - 96 / (rateT (fld w 24 8) : Nat)
    if d ≤ -96 then {} else { e with db := d }

/-- A key-on (R231). -/
def Env.keyOn (e : Env) : Env := { stage := .attack, amp := e.level, db := 0 }

/-- A key-off (R231). -/
def Env.keyOff (e : Env) : Env :=
  match e.stage with
  | .idle => e
  | .attack => if e.amp = 0 ∨ ampDb e.amp ≤ -96 then {} else { stage := .release, amp := e.amp, db := ampDb e.amp }
  | _ => { e with stage := .release }

/-- A triangle between −1 and 1 of a phase in cycles (R231). -/
def triangle (u : Rat) : Rat :=
  let f := u - u.floor
  let d := f - 1 / 2
  1 - 4 * (if d < 0 then -d else d)

/-- An LFO phase after one sample at `code` × 0.05 Hz (R231); `rate` in mHz.
[log 122 DESIGN CHOICE] -/
def lfoStep (p : Rat) (code : Nat) (rate : Rat) : Rat :=
  let q := p + (50 * code : Nat) / (if rate = 0 then 1 else rate)
  q - q.floor

end Sys2Proof.Machine
end

