-- ==== Sys2Proof/Machine/Voices.lean ====
section
/-!
DEFINITION. The voices of a stage (R221, R230-R237, R244): the sixteen samples a voice gives for one
block, after the envelope and before LEVEL.
-/

namespace Sys2Proof.Machine

/-! ### Voices and clusters -/

/-- The Bramble entries of a stage (R21). -/
def Stage.brambles (st : Stage) : List BindEntry := (List.range 4).map fun n => st.bind (35 + n)

/-- The entry that holds logical voice `v`, and the voice's place in it (R21). -/
def voiceEntry : List BindEntry → Nat → Option (BindEntry × Nat)
  | [], _ => none
  | e :: r, v => if v < e.count then some (e, v) else voiceEntry r (v - e.count)

/-- The number of the entry that holds logical voice `v` (R21). -/
def voiceIndex : List BindEntry → Nat → Option Nat
  | [], _ => none
  | e :: r, v => if v < e.count then some 0 else (voiceIndex r (v - e.count)).map (· + 1)

/-- Logical voices of the stage (R21). -/
def Stage.voiceCount (st : Stage) : Nat := st.brambles.foldl (fun n e => n + e.count) 0

/-- Logical voice `v` is bound. -/
def Stage.voiceBound (st : Stage) (v : Nat) : Bool :=
  match voiceEntry st.brambles v with
  | some (e, _) => e.bound
  | none => false

/-- The number of the entry that names the home cluster (R222). -/
def Stage.homeEntry (st : Stage) : Option Nat := st.brambles.findIdx? fun e => e.bound && e.count != 0

/-- The home cluster (R222). -/
def Stage.home (st : Stage) : Option Nat := (st.brambles.find? fun e => e.bound && e.count != 0).map BindEntry.sector

/-- Voice `v` is held in ATTRACT (R250). -/
def Stage.voiceHeld (st : Stage) (v : Nat) : Bool :=
  st.sound.halved && match voiceEntry st.brambles v with
    | some (e, j) => decide (e.count / 2 ≤ j)
    | none => false

/-- Entry `k` of a stage gives nothing: its cluster has failed and is not yet repaired, or it is being rebound (R248,
R377). -/
def Stage.entrySilent (st : Stage) (k : Nat) : Bool :=
  st.sound.faulted.getLsbD (st.bind (35 + k)).sector || st.held.contains (35 + k)

/-- Voice `v` sounds in the block being put out: it is bound and its entry gives its voices, or it was shed after the
boundary of the block, from a cluster that has not failed (R248, R249). -/
def Stage.voiceSounds (st : Stage) (v : Nat) : Bool :=
  match voiceIndex st.brambles v with
  | some k => (st.bind (35 + k)).bound && !st.entrySilent k
  | none => match voiceEntry st.sound.entries v with
    | some (e, _) => e.bound && !st.sound.faulted.getLsbD e.sector
    | none => false

/-- The block of voice `v` (R229). -/
def voiceBase (v : Nat) : Nat := 0x200000 + 0x100 * v

/-- Voice `v`'s dynamic state. -/
def Sound.voice (s : Sound) (v : Nat) : Voice := sget (fun _ => ({} : Voice)) s.voices v

/-- Voice `v`'s dynamic state replaced. -/
def Sound.setVoice (s : Sound) (v : Nat) (x : Voice) : Sound :=
  { s with voices := sset (fun _ => ({} : Voice)) s.voices v x }

/-! ### Pitch -/

/-- The factor of the pitch LFO (R231). -/
def pitchFactor (lfo : Word) (p : Rat) : Rat :=
  if fld lfo 0 8 = 0 ∨ fld lfo 8 8 = 0 then 1
  else powRat 2 ((fld lfo 8 8 : Nat) / 2 * triangle (p + Config.lfoStart true) / 1200)

/-- The gain of the amplitude LFO (R231). -/
def ampFactor (lfo : Word) (p : Rat) : Rat :=
  if fld lfo 16 8 = 0 ∨ fld lfo 24 8 = 0 then 1
  else dbLin (-((fld lfo 24 8 : Nat) / 10 * (1 + triangle (p + Config.lfoStart false)) / 2))

/-- A phase or position step as a whole number. -/
def stepOf (x : Rat) : Nat := (roundSample x).toNat

/-! ### Generators -/

/-- Full scale (R232). -/
def fullScale : Int := 8388607

/-- Ones in the bits of the noise register that take part (R231, R232). -/
def noiseOnes (short : Bool) : BitVec 18 := if short then 0x3FF else 0x3FFFF

/-- One step of the noise register (R232). -/
def noiseStep (short : Bool) (r : BitVec 18) : BitVec 18 :=
  if r &&& noiseOnes short = 0 then noiseOnes short
  else if short then
    let q := r &&& 0x3FF
    (q >>> 1) ||| (if q.getLsbD 0 != q.getLsbD 3 then 0x200 else 0)
  else (r >>> 1) ||| (if r.getLsbD 0 != r.getLsbD 7 then 0x20000 else 0)

/-- Operators that modulate operator `i` under algorithm `alg` (R233). -/
def fmMods (alg i : Nat) : List Nat :=
  let m : List (Nat × Nat) := match alg with
    | 0 => [(3, 2), (2, 1), (1, 0)]
    | 1 => [(3, 2), (3, 1), (2, 0), (1, 0)]
    | 2 => [(3, 2), (2, 1), (2, 0)]
    | 3 => [(3, 2), (2, 1)]
    | 4 => [(3, 2), (3, 0)]
    | 5 => [(3, 0), (2, 0), (1, 0)]
    | 6 => [(3, 1), (3, 0), (2, 1), (2, 0)]
    | _ => []
  (m.filter fun e => e.2 == i).map Prod.fst

/-- Carriers of algorithm `alg` (R233). -/
def fmCarriers (alg : Nat) : List Nat :=
  match alg with
  | 0 => [0] | 1 => [0] | 2 => [1, 0] | 3 => [1, 0] | 4 => [2, 1, 0] | 5 => [0] | 6 => [1, 0] | _ => [3, 2, 1, 0]

/-- Entry `k` of the quarter-wave table of 1024 values of 24 bits (R233). -/
def sineEntry (k : Nat) : Int :=
  min 8388607 (roundSample (8388607 * sinRat (piRat / 2048 * (k + ((Config.sinePlace % 2 ^ 16 : Nat) : Rat) / 2 ^ 16))))

/-- The sine of a phase, by its bits 31:20, as a fraction of full scale (R233).
[log 122 DESIGN CHOICE] -/
def sineOf (phase : Int) : Rat :=
  let i := (Int.emod phase (2 ^ 32) / 2 ^ 20).toNat
  let k := i % 1024
  let v := sineEntry (if i / 1024 % 2 = 0 then k else 1023 - k)
  ((if i < 2048 then v else -v : Int) : Rat) / 8388608

/-- The outputs of the operators of one FM sample, as fractions of full scale: operator 3 first (R233). -/
def fmOutputs (r : Nat → Word) (v : Voice) : List (Nat × Rat) :=
  let osc := r 0x18
  [3, 2, 1, 0].foldl (fun (o : List (Nat × Rat)) i =>
    let m := ((fmMods (fld osc 16 3) i).map fun j => ((o.find? fun e => e.1 == j).map Prod.snd).getD 0).sum
    let fbm := if i = 3 ∧ fld osc 20 3 ≠ 0 then v.fb * 2 ^ (26 + fld osc 20 3) else 0
    let ph := ((v.opPhase.getD i 0).toNat : Int) + (m * 2 ^ 33 + fbm).floor
    let e := (v.opEnv.getD i {}).settle (r (0x24 + 8 * i))
    o ++ [(i, sineOf ph * e.level * (gainOf (fld (r (0x20 + 8 * i)) 16 11)).lin)]) []

/-! ### IMA ADPCM -/

/-- The IMA ADPCM step table (R235). -/
def imaSteps : List Nat :=
  [7, 8, 9, 10, 11, 12, 13, 14, 16, 17, 19, 21, 23, 25, 28, 31, 34, 37, 41, 45] ++
  [50, 55, 60, 66, 73, 80, 88, 97, 107, 118, 130, 143, 157, 173, 190, 209, 230, 253, 279, 307] ++
  [337, 371, 408, 449, 494, 544, 598, 658, 724, 796, 876, 963, 1060, 1166, 1282, 1411, 1552, 1707, 1878, 2066] ++
  [2272, 2499, 2749, 3024, 3327, 3660, 4026, 4428, 4871, 5358, 5894, 6484, 7132, 7845, 8630, 9493, 10442] ++
  [11487, 12635, 13899, 15289, 16818, 18500, 20350, 22385, 24623, 27086, 29794, 32767]

/-- The IMA ADPCM index table (R235). -/
def imaIndex (n : Nat) : Int := [-1, -1, -1, -1, 2, 4, 6, 8].getD (n % 8) 0

/-- One nibble decoded: predictor and index (R235). -/
def imaDecode (pred : Int) (idx n : Nat) : Int × Nat :=
  let st := imaSteps.getD idx 32767
  let d := st / 8 + (if n / 4 % 2 = 1 then st else 0) + (if n / 2 % 2 = 1 then st / 2 else 0) + (if n % 2 = 1 then st / 4 else 0)
  let p := if n / 8 % 2 = 1 then pred - d else pred + d
  ((clipTo 16 p).1, (max 0 (min 88 ((idx : Int) + imaIndex n))).toNat)

/-! ### Sampled voices -/

/-- Where a sampled voice reads (R235, R237). -/
structure Sampled where
  /-- FMT: 0 8-bit, 1 16-bit, 2 ADPCM -/
  fmt : Nat
  /-- SRC -/
  src : Nat
  /-- bytes of the stream buffer, 0 outside stream mode -/
  size : Nat

/-- The address of byte `k` of the source. -/
def Sampled.addr (c : Sampled) (k : Nat) : Nat :=
  if c.size = 0 then c.src + k else c.src + k % c.size

/-- The read of sample `n` (R235). -/
def Sampled.read (c : Sampled) (n : Nat) : Nat × Nat :=
  match c.fmt with
  | 0 => (c.addr n, 1)
  | 1 => (c.addr (2 * n), 2)
  | _ => (c.addr (n / 2), 1)

/-- Bytes before sample `n`. -/
def Sampled.start (c : Sampled) (n : Nat) : Nat :=
  match c.fmt with
  | 0 => n
  | 1 => 2 * n
  | _ => n / 2

/-- Bytes to the end of sample `n`. -/
def Sampled.stop (c : Sampled) (n : Nat) : Nat :=
  match c.fmt with
  | 0 => n + 1
  | 1 => 2 * n + 2
  | _ => n / 2 + 1

/-- Samples that `b` bytes hold. -/
def Sampled.holds (c : Sampled) (b : Nat) : Nat :=
  match c.fmt with
  | 0 => b
  | 1 => b / 2
  | _ => 2 * b

/-- A decoder state: predictor, index, samples decoded. -/
abbrev Adpcm := Int × Nat × Nat

/-- The decoder moved on until `n` samples are decoded. -/
def Sampled.decodeTo (c : Sampled) (m : Source) (n : Nat) (d : Adpcm) : Adpcm :=
  (List.range (n - d.2.2)).foldl (fun d _ =>
    let (a, k) := c.read d.2.2
    let b := m.le a k
    let (p, i) := imaDecode d.1 d.2.1 (if d.2.2 % 2 = 0 then b % 16 else b / 16)
    (p, i, d.2.2 + 1)) d

/-- Sample `n` at 24 bits, and the decoder after it (R235). -/
def Sampled.value (c : Sampled) (m : Source) (n : Nat) (d : Adpcm) : Int × Adpcm :=
  let (a, k) := c.read n
  match c.fmt with
  | 0 => ((BitVec.ofNat 8 (m.le a k)).toInt * 65536, d)
  | 1 => ((BitVec.ofNat 16 (m.le a k)).toInt * 256, d)
  | _ =>
    let d := c.decodeTo m (n + 1) d
    (d.1 * 256, d)

/-- The interpolated value at position `pos`, the decoder after it and the reads it takes (R235). -/
def Sampled.interpolate (c : Sampled) (m : Source) (pos : Nat) (d : Adpcm) : Rat × Adpcm × List (Nat × Nat) :=
  let n := pos / 65536
  let f := pos % 65536
  let (a, d) := c.value m n d
  let b := (c.value m (n + 1) d).1
  (((a * (65536 - f) + b * f : Int) : Rat) / 65536, d, [c.read n, c.read (n + 1)])

/-- A decoder state loaded from a register of the layout of `VOICE_ADPCM` (R235), standing before sample
`n`. -/
def adpcmOf (w : Word) (n : Nat) : Adpcm := ((BitVec.ofNat 16 (fld w 0 16)).toInt, min 88 (fld w 16 7), n)

/-! ### One block of a voice -/

/-- What a block of a voice gives besides its state. -/
structure VoiceOut where
  /-- bits of `VOICE_STATUS` to set -/
  flags : Nat
  /-- reads: address, bytes -/
  reads : List (Nat × Nat)
  /-- a STREAM event -/
  event : Bool
  /-- a key-on: ENDED clears -/
  keyOn : Bool
  deriving DecidableEq, Repr

/-- What a block of a voice is computed from. -/
structure VoiceIn where
  /-- the voice's fields in force -/
  r : Nat → Word
  /-- the fields of the block before -/
  old : Nat → Word
  /-- memory -/
  m : Source
  /-- rate in mHz -/
  rate : Rat
  /-- the block's source bytes have not all arrived (R236) -/
  late : Bool

/-- TYPE with 6 and 7 taken as 0 (R230). -/
def VoiceIn.type (c : VoiceIn) : Nat := if fld (c.r 0) 8 3 < 6 then fld (c.r 0) 8 3 else 0

/-- The sampled source in force (R235, R237). -/
def VoiceIn.sampled (c : VoiceIn) : Sampled :=
  let fmt := if fld (c.r 0) 12 2 = 3 then 2 else fld (c.r 0) 12 2
  let a := base40 (c.r 0x50) (c.r 0x54)
  if bit (c.r 0) 15 then { fmt := fmt, src := a / 4096 * 4096, size := 2 ^ max 12 (min 24 (fld (c.r 0x68) 24 5)) }
  else { fmt := fmt, src := if fmt = 1 then a / 2 * 2 else a, size := 0 }

/-- The key events and changes of mode at a block's boundary (R230-R232, R235, R237). -/
def VoiceIn.keys (c : VoiceIn) (v : Voice) : Voice × Bool :=
  let ctl := c.r 0
  let gate := bit ctl 0
  let on := gate && (!v.gate || bit ctl 1)
  let off := !gate && v.gate
  let short := bit (c.r 0x18) 8
  let stream := bit ctl 15
  let v := if short != v.short then { v with lfsr := noiseOnes short, short := short } else v
  let v := if stream && !v.stream then { v with pos := 0, fill := 0, consumed := 0, adpcmAt := 0, rung := false } else v
  let v := { v with gate := gate, stream := stream }
  let v := if on then { v with env := v.env.keyOn, opEnv := v.opEnv.map Env.keyOn, ended := false }
    else if off then { v with env := v.env.keyOff, opEnv := v.opEnv.map Env.keyOff } else v
  let v := if on && bit ctl 11 then
      { v with phase := 0, opPhase := [0, 0, 0, 0], lfoP := 0, lfoA := 0, fb := 0, lfsr := noiseOnes short } else v
  let v := if on && c.type == 5 && !stream then
      let d := adpcmOf (c.r 0x60) 0
      { v with pos := 0, pred := d.1, stepIdx := d.2.1, adpcmAt := d.2.2 } else v
  (v, on)

/-- The position wrapped or ended at LEN outside stream mode (R235): the voice, and ENDED. -/
def VoiceIn.atEnd (c : VoiceIn) (v : Voice) : Voice × Bool :=
  let len := (c.r 0x58).toNat
  let loop := (c.r 0x5C).toNat
  let n := v.pos / 65536
  if bit (c.r 0) 15 || decide (n < len) then (v, false)
  else if bit (c.r 0) 14 && decide (loop < len) then
    let n' := loop + (n - loop) % (len - loop)
    let d := adpcmOf (c.r 0x64) loop
    ({ v with pos := n' * 65536 + v.pos % 65536, pred := d.1, stepIdx := d.2.1, adpcmAt := d.2.2 }, false)
  else ({ v with ended := true }, !v.ended)

/-- One sample of the generator (R230, R232-R235, R237): the value, the voice after it, flags and reads.
`avail` is the number of stream bytes present, counted from the start of the stream.
[log 123 DESIGN CHOICE] -/
def VoiceIn.generate (c : VoiceIn) (avail : Nat) (v : Voice) : Rat × Voice × Nat × List (Nat × Nat) :=
  let pf := pitchFactor (c.r 0x14) v.lfoP
  let inc := (c.r 4).toNat
  let st := stepOf (inc * pf)
  let nextPhase := v.phase + BitVec.ofNat 32 st
  match c.type with
  | 1 => (if v.phase.toNat / 2 ^ 24 < fld (c.r 0x18) 0 8 then fullScale else -fullScale, { v with phase := nextPhase }, 0, [])
  | 2 =>
    let wraps := (v.phase.toNat + st) / 2 ^ 32
    (if v.lfsr.getLsbD 0 then fullScale else -fullScale,
      { v with phase := nextPhase, lfsr := if wraps = 0 then v.lfsr else noiseStep (bit (c.r 0x18) 8) v.lfsr }, 0, [])
  | 3 =>
    let o := fmOutputs c.r v
    let out := fun i => ((o.find? fun e => e.1 == i).map Prod.snd).getD 0
    let ph := (List.range 4).map fun i =>
      let w := c.r (0x20 + 8 * i)
      v.opPhase.getD i 0 + BitVec.ofInt 32 (roundSample (inc * pf * (fld w 0 8 : Nat) / 16 * (1 + (sfld w 8 8 : Rat) / 16384)))
    let es := (List.range 4).map fun i =>
      let w := c.r (0x24 + 8 * i)
      ((v.opEnv.getD i {}).settle w).advance w
    (((fmCarriers (fld (c.r 0x18) 16 3)).map out).sum * fullScale, { v with opPhase := ph, opEnv := es, fb := out 3 }, 0, [])
  | 4 =>
    let k := v.phase.toNat / 2 ^ 27
    let w := fld (c.r (0x40 + 4 * (k / 8))) (4 * (k % 8)) 4
    ((2 * (w : Int) - 15) * 559240, { v with phase := nextPhase }, 0, [])
  | 5 =>
    let s := c.sampled
    let (v, e) := c.atEnd v
    if v.ended && s.size == 0 then (0, v, if e then 1 else 0, [])
    else
      let n := v.pos / 65536
      let need := s.stop (if v.pos % 65536 = 0 then n else n + 1)
      if s.size ≠ 0 ∧ avail < need then (0, { v with pos := min v.pos (65536 * s.holds avail) }, 4, [])
      else
        let (x, d, rd) := s.interpolate c.m v.pos (v.pred, v.stepIdx, v.adpcmAt)
        let st := stepOf (min inc 0x100000 * pf)
        let rd := if v.pos % 65536 = 0 then rd.take 1 else rd
        let v := { v with pos := if s.size = 0 then (v.pos + st) % 2 ^ 48 else v.pos + st }
        let v := if s.fmt = 2 then { v with pred := d.1, stepIdx := d.2.1, adpcmAt := d.2.2 } else v
        (x, v, 0, rd)
  | _ => (0, v, 0, [])

/-- One sample of a voice after the envelope (R230), the voice after it, flags and reads. -/
def VoiceIn.sample (c : VoiceIn) (avail : Nat) (v : Voice) : Int × Voice × Nat × List (Nat × Nat) :=
  let (x, v, f, rd) := c.generate avail v
  let (g, clip) := clipTo 24 (roundSample x)
  let lfo := c.r 0x14
  let e := v.env.settle (c.r 0x10)
  let s := (clipTo 24 (roundSample (g * ampFactor lfo v.lfoA * e.level))).1
  let v := { v with
    env := e.advance (c.r 0x10), lfoP := lfoStep v.lfoP (fld lfo 0 8) c.rate, lfoA := lfoStep v.lfoA (fld lfo 16 8) c.rate }
  (s, v, f ||| (if clip then 64 else 0), rd)

/-- The sample of the block at which a pending step is taken (R244): a zero or a change of sign, else the
timeout. Answers the sample and whether it is the timeout. -/
def stepSample (zcTo pendT : Nat) : Int → Nat → List Int → Option (Nat × Bool)
  | _, _, [] => none
  | last, k, s :: r =>
    if s = 0 ∨ s.sign ≠ last.sign then some (k, false)
    else if zcTo ≤ pendT + k then some (k, true)
    else stepSample zcTo pendT s (k + 1) r

/-- A voice-class step that the block before has taken is in force from this boundary on (R244). -/
def VoiceIn.stepTaken (c : VoiceIn) (v : Voice) : Voice :=
  if v.stepAt.isSome then
    { v with level := c.old 8, pan := min 256 (fld (c.old 0xC) 0 9), pend := false, pendT := 0, stepAt := none, stepTo := v.stepLate }
  else v

/-- The step of the block before, and the time a pending one has waited (R244). -/
def VoiceIn.finish (c : VoiceIn) (v : Voice) : Voice :=
  let v := c.stepTaken v
  if v.pend then { v with pendT := v.pendT + 16 } else v

/-- The next block of a voice (R224, R230-R237, R244). -/
def VoiceIn.block (c : VoiceIn) (v : Voice) : Voice × VoiceOut :=
  let v := c.finish v
  let (v, on) := c.keys v
  let s := c.sampled
  let stream := c.type == 5 && s.size != 0
  let avail := v.consumed + v.fill
  let (ss, v, f, rd) := (List.range 16).foldl
    (fun (q : List Int × Voice × Nat × List (Nat × Nat)) _ =>
      let (x, v, f, rd) := c.sample avail q.2.1
      (q.1 ++ [x], v, q.2.2.1 ||| f, q.2.2.2 ++ rd)) ([], v, 0, [])
  let ue := rd.any fun q => c.m.bad q.1 q.2
  let silent := c.type == 5 && (c.late || ue)
  let ss := if silent then List.replicate 16 0 else ss
  let f := f ||| (if silent && c.late then 32 else 0) ||| (if silent && ue then 16 else 0)
  let used := if stream then s.start (v.pos / 65536) - v.consumed else 0
  let v := if stream then { v with consumed := v.consumed + used, fill := v.fill - used } else v
  let low := stream && decide (v.fill ≤ fld (c.r 0x6C) 0 24)
  let f := f ||| (if low then 2 else 0)
  let v := if stream && !low then { v with rung := false } else v
  let changed := decide (c.r 8 ≠ v.level) || decide (min 256 (fld (c.r 0xC) 0 9) ≠ v.pan)
  let v := if changed && !v.pend then { v with pend := true, pendT := 0 } else v
  let st := if v.pend then stepSample (max 1 (fld (c.r 0xC) 16 8)) v.pendT v.lastS 0 ss else none
  let v := { v with
    blk := ss, lastS := ss.getD 15 0, stepAt := st.map Prod.fst, stepLate := (st.map Prod.snd).getD false }
  (v, { flags := f, reads := rd, event := f &&& 6 != 0, keyOn := on })

end Sys2Proof.Machine
end

