-- ==== Sys2Proof/Machine/Sound.lean ====
section
/-!
DEFINITION. The mixer and the sound control of a stage (R222-R251): the block boundary, buses, effects,
output pairs, limiters and routes, the output queue, and rates.
-/

namespace Sys2Proof.Machine

/-- Base of sound control (R251). -/
def sndBase : Nat := 0x270000

/-- A bit of `SND_EVENTS` set (R251). -/
def Stage.sndEvent (st : Stage) (i : Nat) : Stage := st.setRegBit (sndBase + 0x18) i

/-- The sound changed by `f`. -/
def Stage.modSound (st : Stage) (f : Sound → Sound) : Stage := { st with sound := f st.sound }

/-- Register `o` of bus `b`. -/
def busReg (b o : Nat) : Nat := 0x240000 + 0x40 * b + o

/-- Register `o` of effect unit `e`. -/
def fxReg (e o : Nat) : Nat := 0x250000 + 0x80 * e + o

/-- Register `o` of output pair `p`. -/
def outReg (p o : Nat) : Nat := 0x260000 + 0x20 * p + o

/-- Route `r`. -/
def routeReg (r : Nat) : Nat := 0x260100 + 4 * r

/-! ### The fields in force -/

/-- The sound fields that take effect at this block boundary (R226): the output formats, and with ROUTE_FRAME the route
fields, are those that the last latch instant committed. -/
def Stage.sndSnap (st : Stage) : Sparse Word :=
  let m := sset stageDefault st.regs (sndBase + 4) (st.latched (sndBase + 4))
  if !bit (st.reg sndBase) 8 then m
  else
    let m := (List.range 16).foldl (fun m b =>
      let o := busReg b 4
      let w := st.latched o
      sset stageDefault m o (setFld (setFld (st.reg o) 0 5 (fld w 0 5)) 8 5 (fld w 8 5))) m
    (List.range 8).foldl (fun m r => sset stageDefault m (routeReg r) (st.latched (routeReg r))) m

/-- A sound field in force. -/
def Sound.eff (s : Sound) (o : Nat) : Word := sget stageDefault s.snap o

/-! ### Ramps -/

/-- A ramp by its number: 0-15 bus output, 16-31 bus send, 32-35 pair gain, 40-47 route, 48-55 DRY and
56-63 WET of an effect unit. -/
def Sound.ramp (s : Sound) (k : Nat) : Ramp := sget (fun _ => ({} : Ramp)) s.ramps k

/-- A ramp replaced. -/
def Sound.setRamp (s : Sound) (k : Nat) (r : Ramp) : Sound :=
  { s with ramps := sset (fun _ => ({} : Ramp)) s.ramps k r }

/-- The first bus whose slot names effect unit `e`. -/
def Sound.fxBus (s : Sound) (e : Nat) : Option Nat :=
  (List.range 16).find? fun b =>
    let w := s.eff (busReg b 8)
    fld w 0 4 == e || fld w 4 4 == e

/-- Length of the ramps of bus `b`. -/
def Sound.busRamp (s : Sound) (b : Nat) : Nat := fld (s.eff (busReg b 0)) 16 10 + 1

/-- Number, gain, destination and ramp length of every bus-class value in force (R238, R239, R243). -/
def Sound.targets (s : Sound) : List (Nat × Gain × Nat × Nat) :=
  ((List.range 16).map fun b => (b, gainOf (fld (s.eff (busReg b 0)) 0 11), fld (s.eff (busReg b 4)) 0 5, s.busRamp b)) ++
  ((List.range 16).map fun b => (16 + b, gainOf (fld (s.eff (busReg b 4)) 16 11), fld (s.eff (busReg b 4)) 8 5, s.busRamp b)) ++
  ((List.range 4).map fun p => (32 + p, gainOf (fld (s.eff (outReg p 0)) 0 11), 31, fld (s.eff (outReg p 0)) 16 10 + 1)) ++
  ((List.range 8).map fun r =>
    let w := s.eff (routeReg r)
    (40 + r, if bit w 31 then ({} : Gain) else { mute := true }, fld w 0 12, fld (s.eff (outReg (fld w 8 2) 0)) 16 10 + 1)) ++
  ((List.range 8).flatMap fun e =>
    let w := s.eff (fxReg e 4)
    let n := match s.fxBus e with | some b => s.busRamp b | none => 1
    [(48 + e, gainOf (fld w 0 11), 31, n), (56 + e, gainOf (fld w 16 11), 31, n)])

/-- Every bus-class value aimed at its target in force; at sound start they stand there (R243). -/
def Sound.aimAll (s : Sound) (first : Bool) : Sound :=
  s.targets.foldl (fun s q =>
    let (k, g, d, n) := q
    s.setRamp k (if first then Ramp.still g d else (s.ramp k).aim g d n)) s

/-! ### The block boundary -/

/-- What the settings of a block name amiss: a target bus at or below its own (R238). -/
def Sound.badSend (s : Sound) : Bool :=
  (List.range 16).any fun b =>
    let w := s.eff (busReg b 4)
    decide (fld w 0 5 ≤ b) || decide (fld w 8 5 ≤ b)

/-- Effect units cleared where TYPE or the buffer changes (R239). -/
def Sound.fxConfig (s : Sound) : Sound :=
  (List.range 8).foldl (fun s e =>
    let c := [s.eff (fxReg e 0), s.eff (fxReg e 8), s.eff (fxReg e 0xC), s.eff (fxReg e 0x10)]
    let f := sget (fun _ => ({} : Fx)) s.fx e
    if f.cfg = c then s else { s with fx := sset (fun _ => ({} : Fx)) s.fx e { cfg := c } }) s

/-- A change of LOOK at a boundary inserts or discards samples (R240). -/
def Limiter.setLook (l : Limiter) (look : Nat) : Limiter :=
  if l.look ≤ look then { l with look := look, delay := l.delay ++ List.replicate (look - l.look) (0, 0) }
  else { l with look := look, delay := l.delay.take look }

/-- LOOK in force of pair `p`; 0 while the limiter is off (R240). -/
def Sound.look (s : Sound) (p : Nat) : Nat :=
  let w := s.eff (outReg p 4)
  if bit w 31 then min 64 (fld w 24 7) else 0

/-- The limiters brought to their LOOK (R240). -/
def Sound.limConfig (s : Sound) : Sound :=
  (List.range 4).foldl (fun s p =>
    let l := sget (fun _ => ({} : Limiter)) s.lim p
    { s with lim := sset (fun _ => ({} : Limiter)) s.lim p (l.setLook (s.look p)) }) s

/-- The block of voice `v` (R224); a voice held in ATTRACT does not advance (R250). -/
def Stage.voiceBlock (st : Stage) (m : Source) (old new : Sparse Word) (late : Bool) (v : Nat) :
    Option (Voice × VoiceOut) :=
  if !st.voiceBound v then none
  else
    let b := voiceBase v
    let c : VoiceIn := {
      r := fun o => sget stageDefault new (b + o), old := fun o => sget stageDefault old (b + o)
      m := m, rate := st.sound.rate, late := late }
    if st.voiceHeld v then some ({ c.stepTaken (st.sound.voice v) with blk := [] }, ⟨0, [], false, false⟩)
    else some (c.block (st.sound.voice v))

/-- RETRIG of a voice taken: it reads 0 from then on (R230). -/
def Stage.clearRetrig (st : Stage) (v : Nat) : Stage := st.modReg (voiceBase v) fun w => setBit w 1 false

/-- The results of a voice's block recorded (R235-R237, R251); a held voice keeps its RETRIG (R250). -/
def Stage.noteVoice (st : Stage) (v : Nat) (x : Voice) (o : VoiceOut) : Stage :=
  let st := st.modSound fun s => s.setVoice v x
  let st := st.modReg (voiceBase v + 0x80) fun w => (if o.keyOn then setBit w 0 false else w) ||| wd o.flags
  let st := if st.voiceHeld v then st else st.clearRetrig v
  if o.event then
    let st := if bit (st.reg (sndBase + 0x18)) 1 then st else st.modSound fun s => { s with first := v }
    st.sndEvent 1
  else st

/-- A block boundary of a stage (R224, R226, R251): snapshot, settings, and the blocks of the voices, of which a muted
stage computes none (R247). Answers the stage and the reads made. -/
def Stage.blockBoundary (st : Stage) (m : Source) (late : List Nat) : Stage × List (Nat × Nat) :=
  let old := st.sound.snap
  let new := st.sndSnap
  let first := st.sound.blocks == 0
  let voices := if st.sound.muted then 0 else st.voiceCount
  let (st, rd) := (List.range voices).foldl (fun (q : Stage × List (Nat × Nat)) v =>
    match q.1.voiceBlock m (if first then [] else old) new (late.contains v) v with
    | none => q
    | some (x, o) => (q.1.noteVoice v x o, q.2 ++ o.reads)) (st, [])
  let count := st.sound.blocks
  let st := st.modSound fun s => (({ s with snap := new, blocks := s.blocks + 1, entries := st.brambles }.aimAll first).fxConfig).limConfig
  let st := if st.sound.badSend then st.sndEvent 5 else st
  let every := fld (st.sound.eff (sndBase + 0x14)) 0 16
  (if every != 0 && count % 2 ^ 32 % every == 0 then st.sndEvent 0 else st, rd)

/-- The ring a voice rings at this boundary (R237): at low water, once. -/
def Stage.rings (st : Stage) : List (Nat × Nat) :=
  (List.range st.voiceCount).filterMap fun v =>
    let b := voiceBase v
    let x := st.sound.voice v
    let w := st.sound.eff (b + 0x68)
    let on := st.voiceBound v && !st.voiceHeld v && fld (st.sound.eff b) 8 3 == 5 && bit (st.sound.eff b) 15
    if on && bit w 23 && !x.rung && decide (x.fill ≤ fld (st.sound.eff (b + 0x6C)) 0 24) then some (v, fld w 0 20) else none

/-- `VOICE_FEED` (R237). -/
def Stage.feedVoice (st : Stage) (v n : Nat) : Stage :=
  if !st.voiceBound v then st.setRegBit 4 9
  else
    let w := st.sound.eff (voiceBase v + 0x68)
    let cap := 2 ^ max 12 (min 24 (fld w 24 5))
    let x := st.sound.voice v
    let full := decide (cap < x.fill + n)
    let f := min cap (x.fill + n)
    let x := { x with fill := f, rung := x.rung && decide (f ≤ fld (st.sound.eff (voiceBase v + 0x6C)) 0 24) }
    let st := st.modSound fun s => s.setVoice v x
    if full then st.setRegBit (voiceBase v + 0x80) 3 else st

/-- The step that voice `v` takes in the block in hand has come: its sample is the next to be mixed, or has been mixed
(R244). -/
def Sound.stepDue (s : Sound) (v : Nat) : Bool :=
  match (s.voice v).stepAt with
  | some t => decide (16 * (s.blocks - 1) + t ≤ s.strobe)
  | none => false

/-- `VOICE_CLASS_STEP` (R244): the new values are in force from the sample of the step on. -/
def Stage.classStep (st : Stage) (v : Nat) : Stage :=
  let x := st.sound.voice v
  if !st.sound.stepDue v then st
  else
    let b := voiceBase v
    st.modSound fun s => s.setVoice v { x with
      level := s.eff (b + 8), pan := min 256 (fld (s.eff (b + 0xC)) 0 9), pend := false, pendT := 0, stepAt := none
      stepTo := x.stepLate }

/-! ### One sample of the mixer -/

/-- A stereo sample. -/
abbrev Stereo := Rat × Rat

/-- Sums by bus or pair. -/
abbrev Sums := List Stereo

/-- A sample added to one of the sums, scaled. -/
def Sums.add (s : Sums) (i : Nat) (x : Stereo) (g : Rat) : Sums :=
  s.mapIdx fun j y => if j = i then (y.1 + g * x.1, y.2 + g * x.2) else y

/-- The pan factors (R230): the cosine and the sine of PAN × π / 512, to 24 bits.
[log 122 DESIGN CHOICE] -/
def panOf (p : Nat) : Stereo :=
  let err := (((Config.panErr p % 2 ^ 17 : Nat) : Rat) - 2 ^ 16) / 2 ^ 41
  if p = 0 then (1, 0) else if 256 ≤ p then (0, 1)
  else (cosRat (piRat * p / 512) + err, sinRat (piRat * p / 512) + err)

/-- What voice `v` adds at sample `k` of the block (R230, R244). -/
def Stage.voiceInto (st : Stage) (k : Nat) (buses : Sums) (v : Nat) : Sums :=
  let x := st.sound.voice v
  if !st.voiceSounds v || st.voiceHeld v then buses
  else
    let b := voiceBase v
    let stepped := match x.stepAt with | some t => decide (t ≤ k) | none => false
    let w := if stepped then st.sound.eff (b + 8) else x.level
    let p := panOf (if stepped then min 256 (fld (st.sound.eff (b + 0xC)) 0 9) else x.pan)
    let s : Rat := x.blk.getD k 0
    let y := (s * p.1, s * p.2)
    let put := fun (q : Sums) (bus code : Nat) => if code = 0 then q else q.add bus y (gainOf code).lin
    put (put buses (fld w 12 4) (fld w 0 11)) (fld w 28 4) (fld w 16 11)

/-- Effect unit `e` is named by more than one bus slot. -/
def Sound.fxShared (s : Sound) (e : Nat) : Bool :=
  let n := (List.range 16).foldl (fun n b =>
    let w := s.eff (busReg b 8)
    n + (fld w 0 4 == e).toNat + (fld w 4 4 == e).toNat) 0
  decide (1 < n)

/-- A value as a filter keeps it: rounded to 24 places. -/
def keepRat (x : Rat) : Rat := (roundSample (x * 2 ^ 24) : Rat) / 2 ^ 24

/-- What line `k` of a unit holds, newest first. -/
def Fx.line (f : Fx) (k : Nat) : List Rat := f.filt.getD k []

/-- The value a line took `n` samples before the present one; nothing written reads 0 (R239). -/
def tap (l : List Rat) (n : Nat) : Rat := l.getD (n - 1) 0

/-- A length of the reverb at a rate in mHz (R239). -/
def reverbLen (rate : Rat) (n : Nat) : Nat := (n * rate / 48000000 + 1 / 2).floor.toNat

/-- One all-pass filter of `n` samples with coefficient 0.625 (R239): its output and its line. -/
def allPass (n : Nat) (x : Rat) (l : List Rat) : Rat × List Rat :=
  let g : Rat := if Config.allPassNeg then -5 / 8 else 5 / 8
  let w := x + g * tap l n
  (tap l n - g * w, (keepRat w :: l).take n)

/-- T(r) as a divisor: code 0 is instant (R231). -/
def decayT (r : Nat) : Nat := if r = 0 then 1 else rateT r

/-- The feedback of a comb of `n` samples (R239). -/
def combFeedback (n decay : Nat) : Rat := powRat 10 (-(3 * n : Nat) / (4 * decayT decay : Nat))

/-- One comb of `n` samples with its low-pass in the loop (R239): its output, its line and its low-pass. -/
def comb (n damp decay : Nat) (x : Rat) (l lp : List Rat) : Rat × List Rat × List Rat :=
  let d : Rat := damp / 256
  let c := if Config.dampNew then 1 - d else d
  let low := (1 - c) * tap l n + c * lp.headD 0
  let y := x + (if decay = 0 then 0 else combFeedback n decay) * low
  (y, (keepRat y :: l).take n, [keepRat low])

/-- One sample of the reverb (R239). Lines: 0 predelay, 1-4 all-pass, 5-12 combs, 13-20 their low-passes. -/
def Fx.reverb (f : Fx) (p0 : Word) (rate : Rat) (x : Rat) : Stereo × Fx :=
  let pre := reverbLen rate (fld p0 0 12)
  let y := if pre = 0 then x else tap (f.line 0) pre
  let (y, aps) := [131, 211, 337, 449].zipIdx.foldl (fun (q : Rat × List (List Rat)) e =>
    let (z, l) := allPass (reverbLen rate e.1) q.1 (f.line (1 + e.2))
    (z, q.2 ++ [l])) (y, [])
  let cs := [1153, 1279, 1367, 1483, 1601, 1709, 1831, 1949].zipIdx.map fun e =>
    comb (reverbLen rate e.1) (fld p0 24 8) (fld p0 16 8) y (f.line (5 + e.2)) (f.line (13 + e.2))
  let out (k : Nat) : Rat := (cs.getD k (0, [], [])).1
  (((out 0 + out 2 + out 4 + out 6) / 4, (out 1 + out 3 + out 5 + out 7) / 4),
    { f with filt := [(x :: f.line 0).take pre] ++ aps ++ cs.map (·.2.1) ++ cs.map (·.2.2) })

/-- The coefficients b0, b1, b2, a0, a1, a2 of a band by the bilinear transform (R239): peaking, low shelf, high shelf. -/
def bandCoeffs (w : Word) (rate : Rat) : List Rat :=
  let f : Rat := min ((10 * fld w 0 12 : Nat) : Rat) (rate * 45 / 100000)
  let q : Rat := (max 1 (fld w 24 8) : Nat) / 16
  let a := powRat 10 (sfld w 16 8 / 200)
  let r := powRat 10 (sfld w 16 8 / 400)
  let om := if rate = 0 then 0 else 2000 * piRat * f / rate
  let c := cosRat om
  let al := sinRat om / (2 * q)
  match fld w 14 2 with
  | 0 => [1 + al * a, -2 * c, 1 - al * a, 1 + al / a, -2 * c, 1 - al / a]
  | 1 => [a * (a + 1 - (a - 1) * c + 2 * r * al), 2 * a * (a - 1 - (a + 1) * c), a * (a + 1 - (a - 1) * c - 2 * r * al),
          a + 1 + (a - 1) * c + 2 * r * al, -2 * (a - 1 + (a + 1) * c), a + 1 + (a - 1) * c - 2 * r * al]
  | _ => [a * (a + 1 + (a - 1) * c + 2 * r * al), -2 * a * (a - 1 + (a + 1) * c), a * (a + 1 + (a - 1) * c - 2 * r * al),
          a + 1 - (a - 1) * c + 2 * r * al, 2 * (a - 1 - (a + 1) * c), a + 1 - (a - 1) * c - 2 * r * al]

/-- One sample through a biquad (R239): its line holds the last two inputs and the last two outputs. -/
def biquad (k : List Rat) (x : Rat) (l : List Rat) : Rat × List Rat :=
  let y := (k.getD 0 0 * x + k.getD 1 0 * l.getD 0 0 + k.getD 2 0 * l.getD 1 0 - k.getD 4 0 * l.getD 2 0 - k.getD 5 0 * l.getD 3 0) /
    k.getD 3 1
  (keepRat y, [x, l.getD 0 0, keepRat y, l.getD 2 0])

/-- One sample through the bands 0-7 of an EQ (R239). Lines: band k at 2 k left and 2 k + 1 right. -/
def Fx.eq (f : Fx) (bands : List Word) (rate : Rat) (x : Stereo) : Stereo × Fx :=
  let (x, ls) := bands.zipIdx.foldl (fun (q : Stereo × List (List Rat)) e =>
    let (l, r) := (f.line (2 * e.2), f.line (2 * e.2 + 1))
    if fld e.1 14 2 = 3 then (q.1, q.2 ++ [l, r])
    else
      let k := bandCoeffs e.1 rate
      let (y, l) := biquad k q.1.1 l
      let (z, r) := biquad k q.1.2 r
      ((y, z), q.2 ++ [l, r])) (x, [])
  (x, { f with filt := ls })

/-- The wet sample of effect unit `e` for an input, and the unit after it (R239). `inPart` says that its buffer
lies in the stage's partitions.
[log 123 DESIGN CHOICE] -/
def Sound.wet (s : Sound) (fv e : Nat) (inPart : Bool) (x : Stereo) (f : Fx) : Stereo × Fx :=
  let p0 := s.eff (fxReg e 0x14)
  let p1 := s.eff (fxReg e 0x18)
  let size := (s.eff (fxReg e 0x10)).toNat
  let f := { f with n := f.n + 1 }
  match fld (s.eff (fxReg e 0)) 0 2 with
  | 1 =>
    let time := fld p0 0 20
    let w := if inPart then f.hist.getD (time - 1) (0, 0) else (0, 0)
    let g := (gainOf (fld p1 0 11)).lin
    let fb := if bit p1 16 then (w.2, w.1) else w
    let f := { f with hist := ((x.1 + g * fb.1, x.2 + g * fb.2) :: f.hist).take (size / 8) }
    (if time = 0 ∨ size / 8 < time then Config.anySound fv e else w, f)
  | 2 =>
    let (w, f) := f.reverb p0 s.rate ((x.1 + x.2) / 2)
    let small := decide (size < if s.rate ≤ 48000000 then 72 * 1024 else 144 * 1024)
    (if small then Config.anySound fv e else if inPart then w else (0, 0), f)
  | _ => f.eq ((List.range 8).map fun k => s.eff (fxReg e (0x40 + 4 * k))) s.rate x

/-- A sample through the effect unit a slot names (R239). -/
def Stage.throughFx (st : Stage) (fv slot : Nat) (x : Stereo) : Stereo × Stage :=
  if 8 ≤ slot then (x, st)
  else
    let s := st.sound
    let f := sget (fun _ => ({} : Fx)) s.fx slot
    if fld (s.eff (fxReg slot 0)) 0 2 = 0 then (x, st)
    else
      let part := st.inSegs (base40 (s.eff (fxReg slot 8)) (s.eff (fxReg slot 0xC))) (s.eff (fxReg slot 0x10)).toNat
      let (w, f) := s.wet fv slot part x f
      let w := if s.fxShared slot then Config.anySound fv (8 + slot) else w
      let d := (s.ramp (48 + slot)).now.lin
      let g := (s.ramp (56 + slot)).now.lin
      ((d * x.1 + g * w.1, d * x.2 + g * w.2), st.modSound fun s => { s with fx := sset (fun _ => ({} : Fx)) s.fx slot f })

/-- A rational clipped to a range. -/
def clampRat (lo hi x : Rat) : Rat := if x < lo then lo else if hi < x then hi else x

/-- A bus's output sent to its targets: a bus above it or an output pair (R238). Sums 0-15 are buses and
16-19 pairs. -/
def sendTo (sums : Sums) (b : Nat) (r : Ramp) (x : Stereo) : Sums :=
  r.targets.foldl (fun q t => if t.1 ≤ b ∨ 20 ≤ t.1 then q else q.add t.1 x t.2) sums

/-- Bus `b` of one sample (R238): saturation, effects, send and main output. -/
def Stage.busStep (fv : Nat) (q : Stage × Sums) (b : Nat) : Stage × Sums :=
  let (st, sums) := q
  let x := sums.getD b (0, 0)
  let y := (clampRat (-2 ^ 31) (2 ^ 31 - 1) x.1, clampRat (-2 ^ 31) (2 ^ 31 - 1) x.2)
  let st := if y ≠ x then (st.modReg (busReg b 0xC) (satAdd · 16 16 1)).sndEvent 6 else st
  let w := st.sound.eff (busReg b 8)
  let (y, st) := st.throughFx fv (fld w 0 4) y
  let (y, st) := st.throughFx fv (fld w 4 4) y
  let sums := sendTo sums b (st.sound.ramp (16 + b)) y
  (st, sendTo sums b (st.sound.ramp b) y)

/-- Largest magnitude of a list of stereo samples. -/
def peakOf (xs : List Stereo) : Rat :=
  xs.foldl (fun m x =>
    let a := if x.1 < 0 then -x.1 else x.1
    let b := if x.2 < 0 then -x.2 else x.2
    max m (max a b)) 0

/-- One sample through the limiter of a pair (R240). -/
def Limiter.step (l : Limiter) (w : Word) (x : Stereo) : Stereo × Limiter :=
  if !bit w 31 then (x, { l with delay := [], g := 1 })
  else
    let win := l.delay ++ [x]
    let th := 8388608 * dbLin (-((min 600 (fld w 0 10) : Nat) : Rat) / 10)
    let pk := peakOf win
    let t := if pk ≤ th then 1 else th / pk
    let g := min t (l.g * dbLin ((fld w 16 8 + 1 : Nat) / 100))
    let y := win.headD (0, 0)
    ((y.1 * g, y.2 * g), { l with delay := win.tail, g := g })

/-- Gain reduction in tenths of a decibel (R240). -/
def gainReduction (g : Rat) : Nat := if 1 ≤ g then 0 else if g ≤ 0 then 1023 else min 1023 (roundSample (-10 * ampDb g)).toNat

/-- Output pair `p` of one sample (R238): gain, limiter, clip. -/
def Stage.pairStep (sums : Sums) (q : Stage × List (Int × Int)) (p : Nat) : Stage × List (Int × Int) :=
  let (st, outs) := q
  let x := sums.getD (16 + p) (0, 0)
  let g := (st.sound.ramp (32 + p)).now.lin
  let w := st.sound.eff (outReg p 4)
  let (y, l) := (sget (fun _ => ({} : Limiter)) st.sound.lim p).step w (g * x.1, g * x.2)
  let st := st.modSound fun s => { s with lim := sset (fun _ => ({} : Limiter)) s.lim p l }
  let (a, ca) := clipTo 24 (roundSample y.1)
  let (b, cb) := clipTo 24 (roundSample y.2)
  let st := st.modReg (outReg p 8) fun v => setFld v 0 10 (if bit w 31 then gainReduction l.g else 0)
  let st := if ca || cb then (st.modReg (outReg p 8) (satAdd · 16 16 1)).sndEvent 2 else st
  (st, outs ++ [(a, b)])

/-- Destination DEST carries channel pair SLOT (R241): I2S and left-justified outputs and S/PDIF carry SLOT 0, TDM8 and
embedded audio SLOT 0-3. -/
def Sound.carries (s : Sound) (dest slot : Nat) : Bool :=
  slot == 0 || dest == 6 || (decide (dest < 4) && decide (2 ≤ fld (s.eff (sndBase + 4)) (2 * dest) 2))

/-- What each slot of the stage's destinations gets (R238, R241): the sum of what the routes send to it, zeros where no
route does or where the format leaves the slot silent. Keys DEST × 4 + SLOT. -/
def Sound.routed (s : Sound) (pairs : List (Int × Int)) (dests : List Nat) : List (Nat × Int × Int) :=
  let parts := (List.range 8).flatMap fun r => (s.ramp (40 + r)).targets.map fun t =>
    let x := pairs.getD (t.1 / 256 % 4) (0, 0)
    (t.1 % 256 * 4 + t.1 / 1024 % 4, ((x.1 : Rat) * t.2, (x.2 : Rat) * t.2))
  let keys := (dests.eraseDups.flatMap fun d => (List.range (if d = 4 ∨ d = 5 then 1 else 4)).map fun j => 4 * d + j)
  keys.map fun k =>
    let ps := parts.filter fun q => q.1 == k && s.carries (k / 4) (k % 4)
    (k, (clipTo 24 (roundSample (ps.map fun q => q.2.1).sum)).1, (clipTo 24 (roundSample (ps.map fun q => q.2.2).sum)).1)

/-- Sample `k` of the block mixed (R230, R238): the stage and what its destinations get 16 strobes later. -/
def Stage.mixSample (st : Stage) (fv k : Nat) : Stage × List (Nat × Int × Int) :=
  let z : Sums := List.replicate 20 (0, 0)
  let voices := max st.voiceCount (st.sound.entries.foldl (fun n e => n + e.count) 0)
  let sums := (List.range voices).foldl (st.voiceInto k) z
  let (st, sums) := (List.range 16).foldl (Stage.busStep fv) (st, sums)
  let (st, pairs) := (List.range 4).foldl (Stage.pairStep sums) (st, [])
  let out := st.sound.routed pairs st.dests
  (st.modSound fun s => s.ramps.foldl (fun s e => s.setRamp e.1 e.2.step) s, out)

/-! ### The strobe -/

/-- The gain of a stop ramp at its sample `t` (R247). -/
def stopGain (t : Nat) : Rat := if 64 ≤ t then 0 else (rampAt {} { mute := true } t 64).lin

/-- Embedded audio is carried (R121): the digital output shows picture or black with sync, the raster is not held, and
the horizontal blanking holds the audio packets. -/
def Beam.carriesAudio (b : Beam) : Bool := b.run && !b.hold && !b.audioOff && (b.digital = .running || b.digital = .black)

/-- What begins at the pins at a strobe (R121, R246): I2S and TDM one sample after it left the mixer, S/PDIF and embedded
audio two. -/
def Stage.pinsOf (st : Stage) : List (Nat × Int × Int) :=
  (st.sound.out.filter fun e => decide (e.1 / 4 < 4)) ++
  ((st.sound.past.headD []).filter fun e => e.1 / 4 == 4 || e.1 / 4 == 5 || (e.1 / 4 == 6 && st.beam.carriesAudio))

/-- A sample strobe (R223, R224, R246, R247): one sample is mixed, and one mixed 16 strobes before leaves the mixer. -/
def Stage.strobe (st : Stage) (fv : Nat) : Stage :=
  let stopped := st.sound.muted
  let (st, new) := if stopped then (st, []) else st.mixSample fv (st.sound.strobe % 16)
  let q := st.sound.queue ++ [new]
  let (o, q) := if q.length ≤ 16 then ([], q) else (q.headD [], q.tail)
  let home := match st.homeEntry with | some k => !st.entrySilent k | none => false
  let o := if home && !st.sound.muted then o else o.map fun e => (e.1, 0, 0)
  let o := match st.sound.stopRamp with
    | some t => o.map fun e => (e.1, (roundSample (e.2.1 * stopGain t)), (roundSample (e.2.2 * stopGain t)))
    | none => o
  st.modSound fun s => { s with
    strobe := s.strobe + 1, queue := q, out := o, pins := st.pinsOf, past := [s.out]
    muted := s.muted || (match s.stopRamp with | some t => decide (63 ≤ t) | none => false)
    stopRamp := match s.stopRamp with | some t => if 63 ≤ t then none else some (t + 1) | none => none }

/-- The bus outputs of a stage begin to ramp to silence at its next strobe (R247). -/
def Stage.stopSound (st : Stage) : Stage :=
  if st.sound.started && !st.sound.muted && st.sound.stopRamp.isNone then st.modSound fun s => { s with stopRamp := some 0 }
  else st

/-- The slot holds no stage: units, ports, owned pins and channels are free and the registers of the units at their
reset values (R75, R102). The fence table keeps its values.
[log 67 DEDUCED, 69 DEDUCED, 86 DEDUCED] -/
def Stage.vacate (st : Stage) : Stage :=
  { regs := st.regs.filter fun e => decide (e.1 < 0x10000), bindGen := st.bindGen + 1 }

/-- A dropped stage leaves its slot when its bus outputs have ramped to silence (R387).
[log 87 DEDUCED] -/
def Stage.leave (st : Stage) : Stage :=
  if !st.loaded && st.phase = .stopped && st.sound.muted then st.vacate else st

/-- What a strobe takes from the beam-locked accumulator (R223). -/
def Stage.lockTop (st : Stage) : Nat := st.beam.inForce.htotal * st.lockDen

/-- The stage's strobe comes from the pixels of its raster (R223, R227, R228). -/
def Stage.locked (st : Stage) : Bool := st.rateCode == 2 && !st.sound.unlocked && st.beam.run && !st.beam.hold

/-- A strobe may fall now: one of a beam-locked stage when its accumulator reaches its top within this line (R223). -/
def Stage.strobeDue (st : Stage) : Bool := !st.locked || decide ((st.lockTop : Int) ≤ st.sound.acc)

/-- The pixels of a new line add to the accumulator (R223). -/
def Stage.lockLine (st : Stage) : Stage :=
  if st.sound.started && st.rateCode == 2 then st.modSound fun s => { s with acc := s.acc + st.lockNum * st.beam.inForce.htotal }
  else st

/-- The first pixel of a line carries a locked strobe with the accumulator at 0, unless a free strobe stands for it; `begun`
says whether the line has begun (R223, R228). -/
def Stage.lockStart (st : Stage) (carried begun : Bool) : Stage :=
  st.modSound fun s => { s with
    acc := (st.lockNum : Int) * ((if begun then (st.beam.inForce.htotal : Int) else 0) - 1) + (if carried then 0 else st.lockTop) }

/-- A strobe issued at root tick `now`. -/
def Stage.takeStrobe (st : Stage) (now : Nat) : Stage :=
  st.modSound fun s => { s with acc := if st.locked then s.acc - st.lockTop else s.acc, lastAt := now }

/-- `VOICE_CLASS_STEP` (R244). -/
def execVoiceClassStep (s v : Nat) (st : State) : Res := .next (st.modStage s (·.classStep v))

/-! ### Rates and start -/

/-- The beam-locked rate of a timing in mHz, exactly (R223, R227). -/
def Stage.lockedRate (st : Stage) (t : Timing) : Rat := (t.pixclk * st.lockNum * 1000 : Nat) / (t.htotal * st.lockDen : Nat)

/-- The rate counted for a stage in mHz, exactly (R56). -/
def Stage.countedRate (st : Stage) : Rat :=
  match st.rateCode with
  | 0 => 48000000
  | 1 => 96000000
  | _ => st.lockedRate st.beam.primary

/-- The rate counted for a stage in Hz, exactly (R56). -/
def Stage.voiceRate (st : Stage) : Rat := st.countedRate / 1000

/-- The rate of the stage's sound under a timing in mHz, and whether a beam-locked stage stays locked (R227). -/
def Stage.rateUnder (st : Stage) (t : Timing) (load : Rat) : Rat × Bool :=
  if st.rateCode ≠ 2 then (load, true)
  else
    let r := st.lockedRate t
    if 32000000 ≤ r ∧ r ≤ 96000000 ∧ r ≤ load then (r, true) else (load, false)

/-- The rate and the lock put in force; a change of UNLOCKED is an event (R227, R251). -/
def Stage.setRate (st : Stage) (r : Rat) (ok : Bool) : Stage :=
  let was := st.sound.unlocked
  let st := st.modSound fun s => { s with rate := r, unlocked := !ok }
  if was = ok then st.sndEvent 3 else st

/-- A new timing takes effect (R227, R228): its first pixel carries a locked strobe after a hold or a free run, unless a free
strobe fell within half a period of the new rate before, and stands for it. -/
def Stage.newRate (st : Stage) (t : Timing) (held : Bool) (now : Nat) : Stage :=
  if st.rateCode ≠ 2 || !st.sound.started then st
  else
    let was := st.sound.unlocked
    let (r, ok) := st.rateUnder t st.sound.loadRate
    let st := st.setRate r ok
    if ok && (held || was) then st.lockStart (decide ((now - st.sound.lastAt : Nat) * r * 2 < 2400000000000)) false else st

/-- Sound starts (R225): the first pixel carries strobe 0. -/
def Stage.startSound (st : Stage) : Stage :=
  let load := st.countedRate
  let (r, ok) := st.rateUnder st.beam.inForce load
  ((st.modSound fun s => { s with
    started := true, muted := false, stopRamp := none, strobe := 0, blocks := 0, snap := []
    queue := [], out := [], past := [], pins := [], ramps := [], entries := [], loadRate := load }).setRate r ok).lockStart false true

/-- `SND_STATUS` as it reads (R251). -/
def Stage.sndStatus (st : Stage) : Word :=
  let s := st.sound
  wd ((st.home.getD 0) * 0x4000 + s.halved.toNat * 0x80 + st.home.isNone.toNat * 0x40 + s.unlocked.toNat * 0x20 +
    s.muted.toNat * 0x10 + st.rateCode)

/-- `VOICE_STATUS` as it reads (R237). -/
def Stage.voiceStatus (st : Stage) (v : Nat) : Word :=
  let x := st.sound.voice v
  let e : Nat := match x.env.stage with | .idle => 0 | .attack => 1 | .decay => 2 | .release => 3
  let lvl : Nat := match x.env.stage with
    | .idle => 255
    | .attack => if x.env.amp = 0 then 255 else min 255 (roundSample (-(8 / 3 : Rat) * ampDb x.env.amp)).toNat
    | _ => min 255 (roundSample (-(8 / 3 : Rat) * x.env.db)).toNat
  (st.reg (voiceBase v + 0x80) &&& 0x7F) ||| wd (e * 2 ^ 30 + lvl * 65536 + x.stepTo.toNat * 256 + x.pend.toNat * 128)

end Sys2Proof.Machine
end

