-- ==== Sys2Proof/Machine/VineOps.lean ====
section
/-!
DEFINITION. The Vine but for its transfers (R321-R339): descriptors, rings and their doorbells, the
start and the stop of a channel; the asset store and the queue manager (R340-R344) and the Ledger
(R345-R349).
-/

namespace Sys2Proof.Machine

/-! ### Descriptors -/

/-- Bits of word `i` of a descriptor (R323). -/
def dfld (d : List Word64) (i lo n : Nat) : Nat := (d.getD i 0).toNat / 2 ^ lo % 2 ^ n

/-- OP (R323). -/
def descOp (d : List Word64) : Nat := dfld d 0 60 4

/-- LEN (R323). -/
def descLen (d : List Word64) : Nat := dfld d 3 0 24

/-- LEN × ROWS (R323). -/
def descTotal (d : List Word64) : Nat := descLen d * (dfld d 3 24 12 + 1)

/-- A flag of a descriptor: 0 LAST, 1 IRQ, 2 FENCE, 3 TRIG, 4 FEED (R323). -/
def descFlag (d : List Word64) (i : Nat) : Bool := dfld d 0 i 1 == 1

/-- A side names the asset store; word 1 is the source and 2 the destination (R323). -/
def sideAsset (d : List Word64) (i : Nat) : Bool := dfld d i 63 1 == 1

/-- The device address of a side (R323). -/
def sideAddr (d : List Word64) (i : Nat) : Nat := dfld d i 0 40

/-- The signed stride of a side (R323). -/
def sideStride (d : List Word64) (i : Nat) : Int :=
  let v := dfld d i 42 21
  if v < 2 ^ 20 then v else (v : Int) - 2 ^ 21

/-- The side of the operation that is an asset run, 1 or 2, if any (R324, R325). -/
def assetSide (d : List Word64) : Option Nat :=
  match descOp d with
  | 0 => if sideAsset d 1 then some 1 else if sideAsset d 2 then some 2 else none
  | 1 | 2 => if sideAsset d 2 then some 2 else none
  | _ => none

/-- First block of an asset run (R325). -/
def runBlock (d : List Word64) (i : Nat) : Nat := dfld d i 0 30

/-- Byte offset of an asset run in its first block (R325). -/
def runOffset (d : List Word64) (i : Nat) : Nat := dfld d i 30 12

/-- Blocks of an asset run (R325). -/
def runBlocks (d : List Word64) (i : Nat) : Nat := ceilDiv (runOffset d i + descTotal d) 4096

/-- Group of a channel (R322). -/
def chanGroup (c : Nat) : Nat := if c < 56 then c / 14 else 4

/-- The address lies in a stage window, of this stage (R36). -/
def windowStage (a : Nat) : Option Nat :=
  if 0x12000000 ≤ a ∧ a < 0x13000000 then some ((a - 0x12000000) / 0x400000) else none

/-- A channel may reach the stage window of the address (R326). -/
def mayWindow (c a : Nat) : Bool :=
  match windowStage a with
  | some i => chanGroup c == 4 || chanGroup c == i
  | none => false

/-- A side in a stage window that is not a multiple of 4 in address, LEN or stride (R326). -/
def windowSideBad (c : Nat) (d : List Word64) (i : Nat) : Bool :=
  !sideAsset d i && mayWindow c (sideAddr d i) &&
    (sideAddr d i % 4 != 0 || descLen d % 4 != 0 || dfld d i 42 21 % 4 != 0)

/-- The descriptor is invalid (R324).
[log 93 DEDUCED] -/
def descBad (c : Nat) (d : List Word64) : Bool :=
  let op := descOp d
  let total := descTotal d
  d.all (· == 0) || decide (3 < op) || (op == 1 && dfld d 1 32 32 != 0) ||
  (sideAsset d 1 && sideAsset d 2) || (op == 3 && (sideAsset d 1 || sideAsset d 2)) ||
  (decide (op ≤ 1) && descLen d == 0) || decide (0xFFFFFFFF < total) ||
  (decide (op ≤ 2) && sideAsset d 2 && (runOffset d 2 != 0 || total % 4096 != 0)) ||
  (op == 2 && !sideAsset d 2) ||
  (op == 0 && windowSideBad c d 1) || (decide (op ≤ 1) && windowSideBad c d 2) ||
  (descFlag d 4 && decide (2 ^ 25 ≤ total))

/-! ### The asset store -/

/-- Drive `d` (R340). -/
def State.drive (s : State) (d : Nat) : Drive := vget {} s.store.drives d

/-- Drive `d` changed by `f`. -/
def State.modDrive (s : State) (d : Nat) (f : Drive → Drive) : State :=
  { s with store := { s.store with drives := vset s.store.drives d (f (s.drive d)) } }

/-- Drive `d` is ready: STATE 2, and in use (R348).
[log 99 DEDUCED] -/
def State.driveReady (s : State) (d : Nat) : Bool := (s.drive d).state == 2 && bit (s.dreg (qmReg 0)) d

/-- The ready drives. -/
def State.readyDrives (s : State) : List Nat := upto 2 s.driveReady

/-- Capacity of the store in blocks (R342). -/
def State.storeCap (s : State) : Nat :=
  min (2 ^ 30) (match s.readyDrives with
    | [] => 0
    | [d] => (s.drive d).blocks
    | _ =>
      let a := (s.drive 0).blocks
      let b := (s.drive 1).blocks
      if s.store.stripe then 2 * min a b else a + b)

/-- Where asset block `b` lies: the drive, the block of that drive, and how many blocks from `b` on follow it there (R342). -/
def State.blockPlace (s : State) (b : Nat) : Nat × Nat × Nat :=
  match s.readyDrives with
  | [] => (0, b, s.storeCap)
  | [d] => (d, b, s.storeCap)
  | _ =>
    let a := (s.drive 0).blocks
    if s.store.stripe then (b / 64 % 2, b / 128 * 64 + b % 64, 64 - b % 64)
    else if b < a then (0, b, a - b) else (1, b - a, s.storeCap)

/-- The LBA of block `b` of drive `d` (R342). -/
def State.driveLba (s : State) (d b : Nat) : Nat := b * 4096 / (s.drive d).lbaBytes

/-- A run of `n` blocks from block `b` cut into commands of at most `most` blocks that stay on one drive (R341, R342); the run
has come to its block `start`.
[log 98 DESIGN CHOICE] -/
def State.cutRun (s : State) (most : Nat) : Nat → Nat → Nat → Nat → List Piece
  | 0, _, _, _ => []
  | fuel + 1, b, start, n =>
    if n = 0 then []
    else
      let p := s.blockPlace b
      let k := max 1 (min (min most n) p.2.2)
      { drive := p.1, start := start, n := k, lba := s.driveLba p.1 p.2.1 } :: s.cutRun most fuel (b + k) (start + k) (n - k)

/-- A range of blocks meets the Ledger region (R346).
[log 106 DESIGN CHOICE] -/
def State.inLedger (s : State) (b n : Nat) : Bool :=
  let base := fld (s.dreg (qmReg 0x80)) 0 30
  let cnt := fld (s.dreg (qmReg 0x84)) 0 17
  decide (b < base + cnt) && decide (base < b + n) && decide (0 < n) && decide (0 < cnt)

/-- The code with which an asset run ends, 0 if it may be moved (R336, R343). -/
def State.assetCode (s : State) (g : Nat) (d : List Word64) (side : Nat) : Nat :=
  let b := runBlock d side
  let n := runBlocks d side
  let write := side == 2
  let wb := s.dreg (qmReg (0x40 + 8 * g))
  let base := fld wb 0 30
  let cnt := fld (s.dreg (qmReg (0x44 + 8 * g))) 0 31
  if s.readyDrives.isEmpty then 7
  else if decide (s.storeCap < b + n) || (s.inLedger b n && (write || decide (g < 4))) ||
      (decide (g < 4) && (decide (b < base) || decide (base + cnt < b + n) || (write && !bit wb 31))) then 6
  else 0

/-- The code with which a descriptor ends before it moves anything, 0 if it may start (R324, R336, R343, R344). -/
def State.descCode (s : State) (c : Nat) (d : List Word64) : Nat :=
  if descBad c d then 2
  else match assetSide d with
    | some side => s.assetCode (chanGroup c) d side
    | none => if descOp d == 3 && s.readyDrives.isEmpty then 7 else 0

/-! ### Commands at the drives -/

/-- The channel of a command, if it is a channel's. -/
def NvmeCmd.chan : NvmeCmd → Option Nat
  | .storeRead c _ _ _ | .storeWrite c _ _ _ | .storeTrim c _ _ _ | .commitFlush c => some c
  | _ => none

/-- The group whose pair a command goes through, if any: pair 0 is the Ledger's (R341, R343). -/
def NvmeCmd.group : NvmeCmd → Option Nat
  | .storeRead c _ _ _ | .storeWrite c _ _ _ | .storeTrim c _ _ _ | .commitFlush c => some (chanGroup c)
  | .loadRead _ _ => some 4
  | .stale g _ => some g
  | _ => none

/-- The command is a Write (R341). -/
def NvmeCmd.isWrite : NvmeCmd → Bool
  | .storeWrite _ _ _ _ | .ledgerWrite _ _ | .stale _ true => true
  | _ => false

/-- Bursts of a group's buffer slice (R322). -/
def sliceOf (g : Nat) : Nat := if g < 4 then 448 else 256

/-- Bursts a channel may hold, for Reads (R334, R341).
[log 98 DESIGN CHOICE] -/
def State.depth (s : State) (c : Nat) : Nat :=
  max 16 (min (sliceOf (chanGroup c)) (max 1 (fld (s.dreg (chanReg c 0)) 16 9)))

/-- Most blocks a command of the channel moves: 32 KiB, and what its bursts hold (R341).
[log 98 DESIGN CHOICE] -/
def State.cmdBlocks (s : State) (c : Nat) : Nat := min 8 (s.depth c / 16)

/-- Blocks that the Reads out at the drives have asked for, of the commands that `p` picks. -/
def State.readBlocks (s : State) (p : NvmeCmd → Bool) : Nat :=
  ((List.range 2).map fun d => ((s.drive d).out.map fun x => match x with
    | .storeRead _ _ n _ | .loadRead n _ => if p x then n else 0
    | _ => 0).foldl (· + ·) 0).foldl (· + ·) 0

/-- The I/O pair of drive `d` that group `g` uses, or the Ledger with `none` (R341).
[log 98 DESIGN CHOICE] -/
def State.pairOf (s : State) (d : Nat) (g : Option Nat) : Nat :=
  match g with
  | some g => (1 + g) % max 1 (s.drive d).pairs
  | none => 0

/-- Drive `d` takes one more command of a group, or of the Ledger: it is ready, its pair has room, and the limits on commands
and Writes hold (R341).
[log 98 DESIGN CHOICE] -/
def State.mayPut (s : State) (d : Nat) (g : Option Nat) (write : Bool) : Bool :=
  let out := (s.drive d).out
  s.driveReady d &&
    decide ((out.filter fun x => s.pairOf d x.group == s.pairOf d g).length < 64) &&
    (g.isNone || decide ((out.filter fun x => x.group == g).length < 16)) &&
    (!write || decide ((out.filter NvmeCmd.isWrite).length < 32))

/-- A Read of `n` blocks for group `g` has room in the group's slice (R334, R341). -/
def State.sliceHas (s : State) (g n : Nat) : Bool :=
  decide (16 * (s.readBlocks (fun x => x.group == some g) + n) ≤ sliceOf g)

/-- The first command of a channel that waits may be issued, but for the room of its group's slice (R341, R349). -/
def State.mayIssue (s : State) (c : Nat) (p : Piece) : Bool :=
  let d := (s.chan c).desc
  let op := descOp d
  if op = 3 then s.mayPut p.drive (some (chanGroup c)) false
  else if assetSide d = some 2 then !s.store.pfw && s.mayPut p.drive (some (chanGroup c)) (op != 2)
  else s.mayPut p.drive (some (chanGroup c)) false &&
    decide (16 * (s.readBlocks (fun x => x.chan == some c) + p.n) ≤ s.depth c)

/-- The command that moves a piece of a channel's run. -/
def nvmeOf (c : Nat) (d : List Word64) (p : Piece) : NvmeCmd :=
  if descOp d = 3 then .commitFlush c
  else if assetSide d = some 2 then
    (if descOp d = 2 then .storeTrim c p.start p.n p.lba else .storeWrite c p.start p.n p.lba)
  else .storeRead c p.start p.n p.lba

/-- A command put out at a drive. -/
def State.putCmd (s : State) (d : Nat) (x : NvmeCmd) : State := s.modDrive d fun v => { v with out := v.out ++ [x] }

/-- The commands of the channel are Reads. -/
def State.isReader (s : State) (c : Nat) : Bool := assetSide (s.chan c).desc == some 1

/-- Commands of a channel issued in order while they may be (R341); whether the next one waits for its group's slice. -/
def State.issueChan (s : State) (c : Nat) : Nat → Bool × State
  | 0 => (false, s)
  | fuel + 1 =>
    match (s.chan c).todo with
    | [] => (false, s)
    | p :: r =>
      if !s.mayIssue c p then (false, s)
      else if s.isReader c && !s.sliceHas (chanGroup c) p.n then (true, s)
      else ((s.setChan c { s.chan c with todo := r }).putCmd p.drive (nvmeOf c (s.chan c).desc p)).issueChan c fuel

/-- Commands of the channels in line issued, first come first served: behind a channel that waits for its group's slice the
group issues no further Reads (R334).
[log 98 DESIGN CHOICE] -/
def State.issueLine (s : State) (shut : List Nat) : List Nat → State
  | [] => s
  | c :: r =>
    if s.isReader c && shut.contains (chanGroup c) then s.issueLine shut r
    else
      let (full, s) := s.issueChan c (s.chan c).todo.length
      s.issueLine (if full then chanGroup c :: shut else shut) r

/-- Commands of every channel issued (R341). -/
def State.issueAll (s : State) : State :=
  let s := s.issueLine [] s.store.line
  { s with store := { s.store with line := s.store.line.filter fun c => !(s.chan c).todo.isEmpty } }

/-- The Reads out for the load engine.
[log 103 DESIGN CHOICE] -/
def State.loadOut (s : State) : Bool :=
  (List.range 2).any fun d => (s.drive d).out.any fun
    | .loadRead _ _ => true
    | _ => false

/-- The load engine's next Read put out, through the pair of group 4 (R343).
[log 103 DESIGN CHOICE] -/
def State.loadGo (s : State) : State :=
  match s.load.reads with
  | [] => s
  | (b, n) :: r =>
    let p := s.blockPlace b
    let k := max 1 (min (min 8 n) p.2.2)
    if s.loadOut || !s.mayPut p.1 (some 4) false || !s.sliceHas 4 k then s
    else { s with load := { s.load with reads := if n ≤ k then r else (b + k, n - k) :: r } }.putCmd p.1
      (.loadRead k (s.driveLba p.1 p.2.1))

/-- The load engine asks for nothing more: what is out for it comes back unheard (R54, R70). -/
def State.dropReads (s : State) : State :=
  let gone (x : NvmeCmd) : NvmeCmd := match x with
    | .loadRead _ _ => .stale 4 false
    | x => x
  { s with load := { s.load with reads := [], got := 0, readErr := false }
           store := { s.store with drives := s.store.drives.map fun d => { d with out := d.out.map gone } } }

/-- The load engine asks for runs of asset blocks (R343).
[log 103 DESIGN CHOICE] -/
def State.askReads (s : State) (runs : List (Nat × Nat)) : State :=
  let s := s.dropReads
  { s with load := { s.load with reads := runs.filter fun r => decide (0 < r.2) } }.loadGo

/-- The commands that a descriptor needs at the drives, in line to be put out (R324, R341, R344). -/
def State.startStore (s : State) (c : Nat) : State :=
  let d := (s.chan c).desc
  let todo := if descOp d = 3 then s.readyDrives.map fun k => { drive := k : Piece }
    else match assetSide d with
      | none => []
      | some side =>
        let n := runBlocks d side
        s.cutRun (if descOp d = 2 then n else s.cmdBlocks c) n (runBlock d side) 0 n
  if todo.isEmpty then s
  else
    let s := s.setChan c { s.chan c with todo := todo }
    { s with store := { s.store with line := s.store.line.filter (· != c) ++ [c] } }.issueAll

/-- Commands of a channel that are out at the drives. -/
def State.cmdsOut (s : State) (c : Nat) : List NvmeCmd :=
  (List.range 2).flatMap fun d => (s.drive d).out.filter fun x => x.chan == some c

/-- Blocks of the run before the first one whose command has not completed (R338). -/
def State.blocksDone (s : State) (c : Nat) (n : Nat) : Nat :=
  let starts := (s.cmdsOut c).filterMap (fun
      | .storeRead _ k _ _ | .storeWrite _ k _ _ | .storeTrim _ k _ _ => some k
      | _ => none) ++ ((s.chan c).todo.map Piece.start)
  starts.foldl min n

/-- A channel's commands run to their end without it (R338, R339).
[log 105 DEDUCED] -/
def State.dropCmds (s : State) (c : Nat) : State :=
  let f := fun (v : Drive) => { v with out := v.out.map fun x => if x.chan == some c then .stale (chanGroup c) x.isWrite else x }
  ((s.modDrive 0 f).modDrive 1 f).setChan c { s.chan c with todo := [] }

/-! ### Memory of a group -/

/-- Bytes read by a channel's group, and whether a word of them is uncorrectable: outside a stage's segments they read zero and
the access is recorded (R91, R96); group 4 has no segments (R326).
[log 104 DEDUCED] -/
def State.groupRead (s : State) (g a n : Nat) : List Byte × Bool × State :=
  if g < 4 && !(s.stage g).inSegs a n then (List.replicate n 0, false, s.blockOut g 5 0 a false) else s.fetchBytes a n

/-- Bytes written by a channel's group (R91, R192). -/
def State.groupWrite (s : State) (g a : Nat) (bs : List Byte) : State :=
  if g < 4 && !(s.stage g).inSegs a bs.length then s.blockOut g 5 0 a true
  else
    (s.storeBytes a bs).watchMem g a bs.length

/-! ### Rings -/

/-- Register `o` of group `g` (R321). -/
def grpReg (g o : Nat) : Nat := 0x13024000 + 0x100 * g + o

/-- The cached contexts of group `g` (R331). -/
def State.ringsOf (s : State) (g : Nat) : Sparse RingCtx := vget [] s.rings g

/-- A cached context replaced. -/
def State.setRing (s : State) (g n : Nat) (r : RingCtx) : State :=
  { s with rings := vset s.rings g (sset (fun _ => ({} : RingCtx)) (s.ringsOf g) n r) }

/-- A context dropped from the cache. -/
def State.dropRing (s : State) (g n : Nat) : State :=
  { s with rings := vset s.rings g ((s.ringsOf g).filter fun e => e.1 != n) }

/-- The ring is pinned: TAIL ≠ HEAD (R331). -/
def RingCtx.pinned (r : RingCtx) : Bool := r.tail != r.head

/-- The pinned rings of a group (R331). -/
def State.pinned (s : State) (g : Nat) : Sparse RingCtx := (s.ringsOf g).filter fun e => e.2.pinned

/-- Address of the context of ring `n` (R329). -/
def State.ctxAddr (s : State) (g n : Nat) : Nat :=
  base40 (s.dreg (grpReg g 0)) (s.dreg (grpReg g 4)) + 64 * n

/-- Number of contexts in the table (R338). -/
def State.ctxCount (s : State) (g : Nat) : Nat := min (fld (s.dreg (grpReg g 8)) 0 19) 262144

/-- The table lies in LP5X (R330). -/
def State.ctxInLpx (s : State) (g : Nat) : Bool :=
  s.isLpx (s.ctxAddr g 0) && s.isLpx (s.ctxAddr g (s.ctxCount g) - 1)

/-- A context as its 64 bytes spell it (R329). -/
def ctxOf (bs : List Byte) : RingCtx :=
  let f := fun o n => leNat ((bs.drop o).take n)
  { base := f 0 8 % 2 ^ 40 / 32 * 32, log2 := f 8 1, chan := f 9 1, enable := f 0xA 2 % 2 == 1
    tail := wd (f 0x10 4), head := wd (f 0x14 4), errors := wd (f 0x18 4), lastCode := f 0x1C 1 }

/-- The words of a context that the Vine writes (R329).
[log 101 DEDUCED] -/
def State.writeCtx (s : State) (g n : Nat) (r : RingCtx) (o k : Nat) : State :=
  let bs := leBytes r.tail.toNat 4 ++ leBytes r.head.toNat 4 ++ leBytes r.errors.toNat 4 ++ leBytes r.lastCode 4
  s.groupWrite g (s.ctxAddr g n + 0x10 + o) ((bs.drop o).take k)

/-- A doorbell refused or dropped: bit 0 DB_OVF, bit 1 DB_BAD (R330, R331, R338). -/
def State.badBell (s : State) (g n i : Nat) : State :=
  let w := s.dreg (grpReg g 0x14)
  let s := if fld w 0 2 = 0 then { s with badRing := vset s.badRing g n } else s
  s.setDreg (grpReg g 0x14) (setBit w i true)

/-- The context admits `k` more entries (R330). -/
def State.ctxAdmits (s : State) (g : Nat) (r : RingCtx) (k : Nat) : Bool :=
  r.enable && decide (1 ≤ r.log2) && decide (r.log2 ≤ 16) && decide (r.chan ≤ 13) &&
    bit (s.dreg (chanReg (14 * g + r.chan) 0)) 0 && decide ((r.tail - r.head).toNat + k ≤ 2 ^ r.log2)

/-- Room made in the cache for one more context: the least recently used unpinned one goes, its words written
back first (R331); none when all 256 are pinned. -/
def State.makeRoom (s : State) (g : Nat) : Option State :=
  let rs := s.ringsOf g
  if rs.length < 256 then some s
  else
    match rs.filter fun e => !e.2.pinned with
    | [] => none
    | e :: r =>
      let v := r.foldl (fun a b => if b.2.used < a.2.used then b else a) e
      some ((s.writeCtx g v.1 v.2 0 16).dropRing g v.1)

/-! ### Channels -/

/-- A status bit of a channel set: 0 DONE, 1 ERR, 2 ABORTED (R338). -/
def State.chanFlag (s : State) (c i : Nat) : State := s.modDreg (chanReg c 0x18) fun w => setBit w i true

/-- One entry of a ring ended with `code`: HEAD advances, ERRORS counts, LAST_CODE takes the code, and the Vine
writes them to memory; a synchronised context that is unpinned now is dropped (R329, R331, R336). -/
def State.endEntry (s : State) (g n code : Nat) : State :=
  let r := sget (fun _ => ({} : RingCtx)) (s.ringsOf g) n
  let r := { r with
    head := r.head + 1, lastCode := code
    errors := if code = 0 || r.errors = 0xFFFFFFFF then r.errors else r.errors + 1 }
  let s := (s.setRing g n r).writeCtx g n r 4 12
  if r.sync && !r.pinned then s.dropRing g n else s

/-- The status record (R337).
[log 102 DESIGN CHOICE] -/
def State.statusRecord (s : State) (c code : Nat) : State :=
  let v := s.chan c
  let a := base40 (s.dreg (chanReg c 0x10)) (s.dreg (chanReg c 0x14))
  let (rn, ri) := v.ring.getD (0xFFFFFFFF, 0)
  if a = 0 then s
  else s.groupWrite (chanGroup c) a
    (leBytes v.cur 8 ++ leBytes v.resid.toNat 4 ++ leBytes code 4 ++ leBytes rn 4 ++ leBytes ri 4 ++
      leBytes s.tally.count.toNat 8)

/-- A channel stops with `code`, `written` bytes of its descriptor written (R336, R337, R338). -/
def State.stopChan (s : State) (c code written : Nat) : State :=
  let s := s.dropCmds c
  let v := s.chan c
  let resid := wd (if v.busy then descTotal v.desc - written else 0)
  let s := (s.setChan c { v with code := code, resid := resid, run := false, busy := false, next := none }).statusRecord c code
  let s := match v.busy || v.next.isSome, v.ring with
    | true, some (n, _) => s.endEntry (chanGroup c) n code
    | _, _ => s
  if code = 0 then s else s.chanFlag c (if code = 1 then 2 else 1)

/-- Bytes as 64-bit words (R323). -/
def words64 (bs : List Byte) : List Word64 :=
  (List.range 4).map fun i => BitVec.ofNat 64 (leNat ((bs.drop (8 * i)).take 8))

/-- A descriptor at `a` becomes the one in progress: it is fetched and judged, and its commands go to the drives
(R323, R324, R336, R341).
[log 93 DEDUCED] -/
def State.beginDesc (s : State) (c a : Nat) (ring : Option (Nat × Nat)) : State :=
  let g := chanGroup c
  let v := { s.chan c with cur := a, busy := true, ring := ring, next := none }
  let ok := s.isMem a && s.isMem (a + 31)
  let inside := decide (4 ≤ g) || (s.stage g).inSegs a 32
  let (bs, ue, s) := if ok then s.groupRead g a 32 else (List.replicate 32 0, false, s)
  let d := words64 bs
  let s := s.setChan c { v with desc := d }
  if !ok then s.stopChan c 4 0
  else if !inside then s.stopChan c 3 0
  else if ue then s.stopChan c 5 0
  else
    let code := s.descCode c d
    if code = 0 then s.startStore c else s.stopChan c code 0

/-- The channel is in ring mode; group 4 never is (R322, R338). -/
def State.ringMode (s : State) (c : Nat) : Bool := decide (c < 56) && bit (s.dreg (chanReg c 0)) 0

/-- The ring a channel serves next: in order of local numbers after the last one served (R332). -/
def State.nextRing (s : State) (c : Nat) : Option (Nat × RingCtx) :=
  let mine := (s.pinned (c / 14)).filter fun e => e.2.chan == c % 14
  ((mine.filter fun e => decide ((s.chan c).lastRing < e.1)) ++ mine).head?

/-- An idle channel in ring mode takes up the next entry (R332). -/
def State.serve (s : State) (c : Nat) : State :=
  let v := s.chan c
  if !v.run || v.busy || v.park || !s.ringMode c then s
  else match s.nextRing c with
    | none => s
    | some (n, r) =>
      let k := r.head.toNat % 2 ^ r.log2
      (s.setChan c { v with lastRing := n }).beginDesc c ((r.base + 32 * k) % 2 ^ 40) (some (n, r.head.toNat))

/-- A doorbell of ring `n` (local number) of stage `g` that adds `add` entries (R330, R331, R332).
[log 104 DEDUCED] -/
def State.bell (s : State) (g n add : Nat) : State :=
  let k := if add = 0 then 1 else add
  if decide (s.ctxCount g ≤ n) || !s.ctxInLpx g then s.badBell g n 1
  else
    let hit := (s.ringsOf g).any fun e => e.1 == n
    let (bs, ue, s) := if hit then ([], false, s) else s.groupRead g (s.ctxAddr g n) 64
    let r := if hit then sget (fun _ => ({} : RingCtx)) (s.ringsOf g) n else ctxOf bs
    if ue || !s.ctxAdmits g r k then s.badBell g n 1
    else match (if hit then some s else s.makeRoom g) with
      | none => s.badBell g n 0
      | some s =>
        let stamp := (s.ringsOf g).foldl (fun m e => max m e.2.used) 0 + 1
        let r := { r with tail := r.tail + wd k, used := stamp }
        ((s.setRing g n r).writeCtx g n r 0 4).serve (14 * g + r.chan)

/-- A write of `GRP_SYNC` (R331): the entry goes at the end of the FAB cycle, or once the ring is unpinned. -/
def State.grpSync (s : State) (g n : Nat) : State :=
  match (s.ringsOf g).find? fun e => e.1 == n with
  | none => s
  | some (_, r) => s.setRing g n { r with sync := true }

/-- The FAB cycle ends: synchronised contexts that no doorbell of the cycle has pinned are dropped (R331). -/
def State.dropSynced (s : State) : State :=
  (List.range 4).foldl (fun s g =>
    ((s.ringsOf g).filter fun e => e.2.sync && !e.2.pinned).foldl (fun s e => s.dropRing g e.1) s) s

/-- START (R338): a direct list begins at `CHAN_DESC`, a ring channel at the next entry. -/
def State.startChan (s : State) (c : Nat) : State :=
  let v := s.chan c
  if v.run then s
  else
    let s := s.setChan c { v with run := true, busy := false, next := none, ring := none }
    if s.ringMode c then s.serve c
    else if v.park then s.setChan c { s.chan c with next := some (base40 (s.dreg (chanReg c 8)) (s.dreg (chanReg c 0xC))) }
    else s.beginDesc c (base40 (s.dreg (chanReg c 8)) (s.dreg (chanReg c 0xC))) none

/-- `GRP_STATUS` (R331, R332, R338). -/
def State.grpStatus (s : State) (g : Nat) : Word :=
  let p := s.pinned g
  let w := s.dreg (grpReg g 0x14)
  let stalled := p.any fun e => !(s.chan (14 * g + e.2.chan)).run
  let busy := (s.ringsOf g).any fun e => e.2.sync
  setBit (setBit (setFld w 16 9 p.length) 3 stalled) 2 busy

/-- `CHAN_STATUS` (R338). -/
def State.chanStatus (s : State) (c : Nat) : Word :=
  let v := s.chan c
  setBit (setBit (setFld (s.dreg (chanReg c 0x18)) 16 8 v.code) 4 v.run) 3 v.busy

/-- A write of `CHAN_CTRL` (R332, R338): ignored while RUN is 1; RING keeps its 1 while a pinned ring names the
channel. -/
def State.writeChanCtrl (s : State) (c : Nat) (w : Word) : State :=
  let named := decide (c < 56) && (s.pinned (c / 14)).any fun e => e.2.chan == c % 14
  if (s.chan c).run || (named && bit (s.dreg (chanReg c 0)) 0 && !bit w 0) then s else s.setDreg (chanReg c 0) w

/-- The Vine of stage `i` at step 3 of its load or unload (R339). -/
def State.resetVine (s : State) (i : Nat) : State :=
  let s := (List.range 14).foldl (fun s k =>
    let s := (s.dropCmds (14 * i + k)).setChan (14 * i + k) {}
    { s with
      regs := s.regs.filter fun e => e.1 < chanReg (14 * i + k) 0 || chanReg (14 * i + k) 0x100 ≤ e.1
      hi := s.hi.filter fun e => e.1 < chanReg (14 * i + k) 0 || chanReg (14 * i + k) 0x100 ≤ e.1 }) s
  let s := s.modDreg (ldgReg i 0x104) fun w => setFld w 8 3 0
  { s with
    regs := s.regs.filter fun e => e.1 < grpReg i 0 || grpReg i 0x100 ≤ e.1
    hi := s.hi.filter fun e => e.1 < grpReg i 0 || grpReg i 0x100 ≤ e.1
    rings := vset s.rings i [], badRing := vset s.badRing i 0 }

/-- Who may reach a channel: its stage, the host for VC60-VC63, and the Warden (R321, R322). -/
def State.mayChan (s : State) (i : Initiator) (c : Nat) : Bool :=
  match i with
  | .host _ => decide (60 ≤ c)
  | _ => s.mayWrite i (if c < 56 then some (c / 14) else none)

/-- A write by `i` of a Vine register of owner `g`, refused as R12 states for stage software (R308, R321). -/
def State.vineWrite (s : State) (i : Initiator) (may : Bool) (a : Nat) (f : State → State) : State :=
  if may then f s else match i with
    | .host _ => s
    | _ => s.accViol i a

/-- `CHAN_CMD.START` (R338). -/
def execChanStart (i : Initiator) (c : Nat) (s : State) : Res :=
  .next (s.vineWrite i (s.mayChan i c) (chanReg c 4) (·.startChan c))

/-- A write of `GRP_DOORBELL` (R330). -/
def execGrpDoorbell (i : Initiator) (g : Nat) (v : Word) (s : State) : Res :=
  .next (s.vineWrite i (s.mayWrite i (some g)) (grpReg g 0xC) fun s =>
    if g < 4 then s.bell g (fld v 0 18) (fld v 18 14) else s)

/-- A write of `GRP_SYNC` (R331). -/
def execGrpSync (i : Initiator) (g : Nat) (v : Word) (s : State) : Res :=
  .next (s.vineWrite i (s.mayWrite i (some g)) (grpReg g 0x10) fun s => s.grpSync g (fld v 0 18))

/-! ### The Ledger -/

/-- Records of bank `g` accepted and not acknowledged (R345). -/
def State.ldgPending (s : State) (g : Nat) : Nat := (s.store.recs.filter fun r => r.src == g).length

/-- Quota of a bank (R345).
[log 106 DESIGN CHOICE] -/
def ldgQuota (g : Nat) : Nat := if g < 4 then 12 else 16

/-- ACCEPTING (R345, R347, R349, R399). -/
def State.ldgAccepting (s : State) : Bool :=
  !s.store.pfw && !s.store.closed && s.store.scanned && !s.readyDrives.isEmpty &&
    decide (2 ≤ fld (s.dreg (qmReg 0x84)) 0 17)

/-- Slot of a record in a Ledger block (R346). -/
def LedgerRec.slot (r : LedgerRec) : List Byte :=
  leBytes r.data.length 2 ++ leBytes r.src 2 ++ leBytes r.num.toNat 4 ++ r.data ++ List.replicate (256 - r.data.length) 0

/-- A Ledger block (R346). -/
def ledgerBlock (seq : Nat) (tally : BitVec 64) (rs : List LedgerRec) : List Byte :=
  let head := leBytes 0x5247444C 4 ++ leBytes 1 2 ++ leBytes rs.length 2 ++ leBytes seq 8 ++ leBytes tally.toNat 8 ++
    List.replicate 36 0
  let slots := rs.flatMap LedgerRec.slot
  let body := slots ++ List.replicate (4032 - slots.length) 0
  head ++ leBytes (crc32c (head ++ body)).toNat 4 ++ body

/-- The asset block of a SEQ (R346).
[log 100 DEDUCED] -/
def State.ldgBlock (s : State) (seq : Nat) : Nat :=
  fld (s.dreg (qmReg 0x80)) 0 30 + seq % max 1 (fld (s.dreg (qmReg 0x84)) 0 17)

/-- The Ledger builds and writes its next block when it is idle and has records (R346).
[log 100 DEDUCED] -/
def State.ldgKick (s : State) : State :=
  let st := s.store
  let seq := st.nextSeq
  let p := s.blockPlace (s.ldgBlock seq)
  if st.inBlock != 0 || st.recs.isEmpty || s.readyDrives.isEmpty || !st.scanned || !s.mayPut p.1 none true then s
  else
    let rs := st.recs.take 15
    { s with store := { st with
        inBlock := rs.length, nextSeq := (seq + 1) % 2 ^ 64, block := ledgerBlock seq s.tally.count rs } }.putCmd
      p.1 (.ledgerWrite seq (s.driveLba p.1 p.2.1))

/-- The Flush of R349, once nothing else is outstanding. -/
def State.pfwCheck (s : State) : State :=
  if s.store.pfwFlushDue && s.store.recs.isEmpty && (s.drive 0).out.isEmpty && (s.drive 1).out.isEmpty then
    s.readyDrives.foldl (fun s d => s.putCmd d .pfwFlush) { s with store := { s.store with pfwFlushDue := false } }
  else s

/-- The Flush of DEEP entry, once the accepted records are acknowledged (R399). -/
def State.modeFlush (s : State) : State :=
  if s.store.modeFlushDue && s.store.recs.isEmpty then
    s.readyDrives.foldl (fun s d => s.putCmd d .modeFlush) { s with store := { s.store with modeFlushDue := false } }
  else s

/-- The queue manager goes on: the Ledger, waiting commands, the load engine's Reads, the Flushes of R349 and R399. -/
def State.storeGo (s : State) : State := s.ldgKick.issueAll.loadGo.pfwCheck.modeFlush

/-- The bytes of `LDG_DATA` (R345). -/
def State.ldgData (s : State) (g n : Nat) : List Byte :=
  ((List.range 64).flatMap fun k => leBytes (s.dreg (ldgReg g (4 * k))).toNat 4).take n

/-- A submit of `len` bytes (R345): one in the FAB cycle in which PFW_N is asserted counts as arrived. -/
def State.ldgSubmit (s : State) (g len : Nat) : State :=
  if len = 0 then s
  else if !{ s with store := { s.store with pfw := s.store.pfw && !s.store.pfwNow } }.ldgAccepting || decide (ldgQuota g ≤ s.ldgPending g) then
    s.modDreg (ldgReg g 0x104) fun w => setBit w 1 true
  else
    let num := vget 0 s.store.submitted g + 1
    let r : LedgerRec := { src := g, num := num, data := s.ldgData g (min len 256) }
    { s with store := { s.store with submitted := vset s.store.submitted g num, recs := s.store.recs ++ [r] } }.storeGo

/-- A write of `LDG_SUBMIT` (R345). -/
def execLdgSubmit (i : Initiator) (g : Nat) (len : Word) (s : State) : Res :=
  .next (s.vineWrite i (s.mayWrite i (if g < 4 then some g else none)) (ldgReg g 0x100) fun s =>
    s.ldgSubmit g (fld len 0 9))

/-- `LDG_STATUS` (R345, R349). -/
def State.ldgStatus (s : State) (g : Nat) : Word :=
  let w := setFld (s.dreg (ldgReg g 0x104)) 16 5 (s.ldgPending g)
  setBit (setBit (setBit w 4 s.store.pfw) 2 (ldgQuota g ≤ s.ldgPending g)) 0 s.ldgAccepting

/-- The records of the block written are acknowledged (R347). -/
def State.ldgAck (s : State) : State :=
  let st := s.store
  let done := st.recs.take st.inBlock
  let s := done.foldl (fun s r => s.modDreg (ldgReg r.src 0x104) fun w => setBit w 3 true) s
  let acked := done.foldl (fun (a : Vector Word 5) r => vset a r.src (vget 0 a r.src + 1)) st.acked
  { s with store := { st with recs := st.recs.drop st.inBlock, inBlock := 0, block := [], acked := acked } }

/-- A Ledger Write or Flush has failed: `QM_STATUS.LDG_ERR`, and it is retried (R347). -/
def State.ldgRetry (s : State) (d : Nat) (x : NvmeCmd) : State :=
  (s.modDreg (qmReg 4) fun w => setBit w 25 true).putCmd d x

/-- A failed command counted (R347 `QM_ERR`, `QM_EVENTS.ERR`). -/
def State.nvmeFailed (s : State) (d : Nat) (status : BitVec 16) : State :=
  let s := s.modDreg (qmReg (0x10 + 4 * d)) fun w => setFld (satAdd w 16 16 1) 0 16 status.toNat
  s.modDreg (qmReg 0xC) fun w => setBit w 1 true

/-- A drive takes a new state (R347 `QM_EVENTS.STATE`). -/
def State.driveState (s : State) (d k : Nat) : State :=
  (s.modDrive d fun v => { v with state := k }).modDreg (qmReg 0xC) fun w => setBit w 0 true

/-- The link of a root port comes up (R340, R341, R347, R414): the drive's queues are built; the first ready
drive since reset is scanned for the Ledger. -/
def execRootLinkUp (p lbaBytes blocks pairs : Nat) (s : State) : Res :=
  if decide (2 ≤ p) || !s.straps.getLsbD (1 + p) || !bit (s.dreg (qmReg 0)) p then .next s
  else if lbaBytes ≠ 512 ∧ lbaBytes ≠ 4096 then .next (s.driveState p 4)
  else
    let s := s.modDrive p fun v => { v with
      blocks := blocks * lbaBytes / 4096, lbaBytes := lbaBytes, pairs := min pairs 16, out := [] }
    let scan := !s.store.scanned && decide (2 ≤ fld (s.dreg (qmReg 0x84)) 0 17) && (s.drive (1 - p)).state != 5
    let s := { s with store := { s.store with
      stripe := bit (s.dreg (qmReg 0)) 2
      scanned := s.store.scanned || decide (fld (s.dreg (qmReg 0x84)) 0 17 < 2) } }
    .next (s.driveState p (if scan then 5 else 2)).storeGo

/-- The Ledger scan ends: the Ledger goes on after the highest valid SEQ, or at 0 (R347).
[log 100 DEDUCED] -/
def execLedgerScanEnd (d : Nat) (highest : Option Nat) (s : State) : Res :=
  if (s.drive d).state ≠ 5 then .next s
  else
    let n := fld (s.dreg (qmReg 0x84)) 0 17
    let next := match highest with | some h => (h + 1) % 2 ^ 64 | none => 0
    .next ({ s with store := { s.store with scanned := true, nextSeq := next, oldest := next - n } }.driveState d 2).storeGo

/-- PFW_N asserted (R349). -/
def State.pfwAssert (s : State) : State :=
  if s.store.pfw then s else { s with store := { s.store with pfw := true, pfwNow := true, pfwFlushDue := true } }.pfwCheck

/-- PFW_N released (R349): accepting and writing resume. -/
def State.pfwRelease (s : State) : State := { s with store := { s.store with pfw := false, pfwNow := false } }.storeGo

/-- PFW_N asserted; the mode is not affected (R349, R406). -/
def execPfwNAssert (s : State) : Res := .next s.pfwAssert

/-- PFW_N released (R349). -/
def execPfwNRelease (s : State) : Res := .next s.pfwRelease

/-- `QM_STATUS` (R347). -/
def State.qmStatus (s : State) : Word :=
  let w := setBit (s.dreg (qmReg 4)) 24 s.store.pfw
  let w := setFld (setFld w 16 5 (s.drive 1).pairs) 8 5 (s.drive 0).pairs
  setFld (setFld w 4 3 (s.drive 1).state) 0 3 (s.drive 0).state

end Sys2Proof.Machine
end

