-- ==== Sys2Proof/Machine/SoundRun.lean ====
section
/-!
DEFINITION. The block boundary of a stage's sound (R224, R237): the blocks of its voices, and the
doorbells that voices at low water ring.
-/

namespace Sys2Proof.Machine

/-- The doorbells of the voices at low water (R237). -/
def State.ringVoices (st : State) (s : Nat) : State :=
  (st.stage s).rings.foldl (fun st p =>
    (st.modStage s fun x => x.modSound fun q => q.setVoice p.1 { q.voice p.1 with rung := true }).bell s (p.2 % 2 ^ 18) 1) st

/-- `BLOCK_BOUNDARY` (R224, R247): every 16 strobes while the stage's strobes run. `late` lists the voices whose fetches
miss their time and `ue` words found with more than two symbol errors (R93). -/
def execBlockBoundary (s : Nat) (late ue : List Nat) (st : State) : Res :=
  let x := st.stage s
  if x.sound.started && x.sound.blocks * 16 == x.sound.strobe then
    let (m, st) := (ue.foldl (fun (st : State) a => st.upset a 3) st).source s
    let x := st.stage s
    let (x, rd) := (x.modSound fun y => { y with halved := st.slow }).blockBoundary m late
    .next (((st.setStage s x).recordReads s 6 0 m rd).ringVoices s)
  else .next st

end Sys2Proof.Machine
end

