-- ==== Sys2Proof/Machine/StageRead.lean ====
section
/-!
DEFINITION. Reads of a stage window (R18, R24): which unit a register belongs to, and what each
register reads as, live values included.
-/

namespace Sys2Proof.Machine

/-- The binding index of the unit a stage-window offset belongs to; none for the identity and fence blocks
(R18, R20; the model's numbering). A voice belongs to its entry, the mixer to the entry of the home cluster (R222). -/
def Stage.unitOf (st : Stage) (o : Nat) : Option Nat :=
  if o < 0x10000 then none
  else if o < 0x110000 then some ((o - 0x10000) / 0x10000)
  else if o < 0x190000 then some (16 + (o - 0x110000) / 0x10000)
  else if o < 0x1A0000 then some 24
  else if o < 0x1B0000 then some 25
  else if o < 0x1C0000 then some 26
  else if o < 0x200000 then none
  else if o < 0x240000 then (voiceIndex st.brambles ((o - 0x200000) / 0x100)).map (35 + ·)
  else if o < 0x300000 then st.homeEntry.map (35 + ·)
  else none

/-- The logical unit of a stage-window offset is not bound (R24). -/
def Stage.unboundAt (st : Stage) (o : Nat) : Bool :=
  if decide (0x10000 ≤ o) && decide (o < 0x1C0000) then !((st.unitOf o).map fun b => (st.bind b).bound).getD false
  else if decide (0x200000 ≤ o) && decide (o < 0x240000) then !st.voiceBound ((o - 0x200000) / 0x100)
  else if decide (0x240000 ≤ o) && decide (o < 0x300000) then st.home.isNone
  else false

/-- A binding entry as it reads (R20). -/
def BindEntry.word (e : BindEntry) : Word :=
  wd (e.bound.toNat * 2 ^ 31 + e.shed.toNat * 2 ^ 30 + e.repaired.toNat * 2 ^ 29 + e.sector * 2 ^ 26 + e.unit * 2 ^ 16 + e.count)

/-- The binding index of a binding register (R20). -/
def bindIndex (o : Nat) : Nat :=
  if o < 0x140 then (o - 0x100) / 4
  else if o < 0x160 then 16 + (o - 0x140) / 4
  else if o < 0x180 then 24 + (o - 0x160) / 4
  else if o < 0x1A0 then 27 + (o - 0x180) / 4
  else 35 + (o - 0x1A0) / 4

/-- `PIP_STATE` (R296). -/
def State.pipStateWord (s : State) (i : Nat) : Word :=
  wd ((List.range 8).foldl (fun n k =>
    let v : Nat := match s.pipPhys i k with
      | none => 0
      | some p => match (s.core p).run with
        | .stopped => 0 | .running => 1 | .waiting | .retention => 2 | .halted => 3
    n + v * 4 ^ k) 0)

/-- Registers of the identity block (R20, R34, R109, R296, R426). -/
def State.readIdent (s : State) (i o : Nat) (stored : Word) : Word :=
  let st := s.stage i
  if o = 0 then wd (i + 4 * st.twin.toNat + 8 * st.loaded.toNat + 16 * st.portA + 64 * st.portB)
  else if o = 4 then
    setBit (setBit (setFld stored 0 4 s.mode.num) 8 st.degraded) 10 (!st.held.isEmpty)
  else if o = 8 then (if st.beam.runs then wd (st.beam.inForce.segPix st.twin) else 0)
  else if o = 0xF0 then st.bindGen
  else if decide (0x100 ≤ o) && decide (o < 0x1B0) then (st.bind (bindIndex o)).word
  else if o = 0x300 then s.pipStateWord i
  else if o = 0x404 then st.beam.frame
  else if o = 0x40C then setBit stored 3 (st.reg 0x440 &&& st.reg 0x444 != 0)
  else if o = 0x434 then s.timingStatus i
  else if o = 0x500 then stored &&& st.goOwn
  else stored

/-- The line the Prism is reading was composed by a layer or drawn by a plane (R130, R163). -/
def Stage.composedNow (st : Stage) (k : Nat) : Bool :=
  match st.prism.mix with
  | some c => if k < 16 then c.layers.any fun e => e.1 == k else c.sprites.any fun e => e.1 == k - 16
  | none => false

/-- Registers of the Prism (R183, R191, R199). -/
def Stage.readPrism (st : Stage) (q : Nat) (stored : Word) : Word :=
  let p := st.prism
  if q = 0x60C then setFld stored 0 2 p.consState
  else if q = 0x800 then setBit (setFld stored 8 8 p.blanked.toNat) 16 p.frozen
  else if decide (0x300 ≤ q) && decide (q < 0x480) && q % 16 == 0xC then setBit stored 16 (p.armed.getLsbD ((q - 0x300) / 16))
  else stored

/-- Registers of the Chord (R201, R206, R214, R218): a quick input that the stage does not own reads 0. -/
def State.readChord (s : State) (i q : Nat) (stored : Word) : Word :=
  let st := s.stage i
  let c := st.chord
  if q = 0x10 then setBit (setFld stored 16 11 c.pc) 31 c.running
  else if q = 0x14 then wd c.lead
  else if q = 0x18 then wd c.lost
  else if q = 0x40 then s.qi.extractLsb' 0 32
  else if q = 0x44 then s.qi.extractLsb' 32 32
  else if decide (0x100 ≤ q) && decide (q < 0x300) && !st.qiOwn.getLsbD ((q - 0x100) % 0x100 / 4) then 0
  else stored

/-- Registers of the Press (R358, R360, R362). -/
def Stage.readPress (st : Stage) (q : Nat) (stored : Word) : Word :=
  let p := st.press
  if q = 0x38 then setBit (setBit (setBit (setFld stored 16 8 p.code) 6 p.dirx) 5 p.diry) 4 p.busy
  else if q = 0x3C then wd p.rows
  else stored

/-- Registers of a voice (R237). -/
def Stage.readVoice (st : Stage) (v q : Nat) (stored : Word) : Word :=
  let x := st.sound.voice v
  if q = 0x74 then wd x.fill
  else if q = 0x80 then st.voiceStatus v
  else if q = 0x84 then wd (if x.stream then x.consumed else x.pos / 65536)
  else stored

/-- Registers of sound control (R251).
[log 124 DEDUCED] -/
def Stage.readSnd (st : Stage) (q : Nat) (stored : Word) : Word :=
  if q = 8 then st.sndStatus
  else if q = 0xC then wd (st.sound.rate + 1 / 2).floor.toNat
  else if q = 0x10 then wd (st.sound.blocks - 1)
  else if q = 0x1C then wd st.sound.first
  else stored

/-- What a stage-window register reads as; an offset without a register reads 0 (R10). -/
def State.stageValue (s : State) (i o : Nat) : Word :=
  let st := s.stage i
  match stageRow o with
  | none => 0
  | some row =>
    let w := st.reg o &&& row.readMask
    if o < 0x1000 then s.readIdent i o w
    else if o < 0x10000 then w
    else if o < 0x190000 then
      if o % 0x10000 = 0x80 then setBit w 0 (st.composedNow ((o - 0x10000) / 0x10000)) else w
    else if o < 0x1A0000 then st.readPrism (o - prismBase) w
    else if o < 0x1B0000 then s.readChord i (o - chordBase) w
    else if o < 0x1C0000 then st.readPress (o - 0x1B0000) w
    else if o < 0x240000 then st.readVoice ((o - 0x200000) / 0x100) (o % 0x100) w
    else if o < 0x270000 then w
    else st.readSnd (o - sndBase) w

/-- A read of a word of stage `i`'s window (R24, R109): an access to an unbound unit reads 0 and is recorded. -/
def State.stageRead (s : State) (i o : Nat) : Word × State :=
  let st := s.stage i
  if st.unboundAt o then (0, s.modStage i (·.setRegBit 4 9))
  else if o = 0x400 then (st.beamPos s.root, s)
  else (s.stageValue i o, s)

/-- The register access is one that a rebind holds (R23). -/
def State.heldAt (s : State) (a : Nat) : Bool :=
  match windowStage a with
  | some i => (((s.stage i).unitOf (a % 0x400000)).map (s.stage i).held.contains).getD false
  | none => false

/-- A read by a unit of stage `i` of a register of a unit that is not bound, recorded (R24). -/
def State.noteUnbound (s : State) (as : List Nat) : State :=
  as.foldl (fun s a => match windowStage a with
    | some i => (s.stageRead i (a % 0x400000 / 4 * 4)).2
    | none => s) s

end Sys2Proof.Machine
end

