-- ==== Sys2Proof/Machine/Press.lean ====
section
/-!
DEFINITION. The Press but for the rows it writes (R351-R363): the check of an operation, its start and end.
-/

namespace Sys2Proof.Machine

/-- The Press block (R354). -/
def pressBase : Nat := 0x1B0000

/-- The Press of a stage changed by `f`. -/
def Stage.modPress (st : Stage) (f : Press → Press) : Stage := { st with press := f st.press }

/-- A status bit of the Press set: 0 DONE, 1 ERR, 2 WM, 3 START_LOST (R362). -/
def Stage.pressFlag (st : Stage) (i : Nat) : Stage := st.setRegBit (pressBase + 0x38) i

/-- A parameter captured at START (R354). -/
def Press.p (p : Press) (o : Nat) : Word := sget (fun _ => 0) p.par o

/-- OP (R351). -/
def Press.op (p : Press) : Nat := fld (p.p 0) 0 3

/-- FORMAT (R351). -/
def Press.format (p : Press) : Nat := fld (p.p 0) 4 3

/-- Bits of a destination pixel (R351). -/
def Press.bits (p : Press) : Nat := 2 ^ min 5 p.format

/-- W (R354). -/
def Press.w (p : Press) : Nat := fld (p.p 0x18) 0 13 + 1

/-- H (R354). -/
def Press.h (p : Press) : Nat := fld (p.p 0x18) 16 13 + 1

/-- Source and destination addresses. -/
def Press.src (p : Press) : Nat := base40 (p.p 4) (p.p 8)

/-- The destination address. -/
def Press.dst (p : Press) : Nat := base40 (p.p 0xC) (p.p 0x10)

/-- Source pitch in bytes. -/
def Press.spitch (p : Press) : Nat := 16 * fld (p.p 0x14) 16 16

/-- Destination pitch in bytes. -/
def Press.dpitch (p : Press) : Nat := 16 * fld (p.p 0x14) 0 16

/-- The operation expands a glyph. -/
def Press.glyph (p : Press) : Bool := p.op == 3 || p.op == 4

/-- The operation reads source rows. -/
def Press.reads (p : Press) : Bool := p.op == 0 || p.glyph

/-- Bits of a source pixel: a glyph is 1 bpp (R352). -/
def Press.srcBits (p : Press) : Nat := if p.glyph then 1 else p.bits

/-- A pixel offset of a side whose pixels have `b` bits (R352). -/
def pixelOffset (b v : Nat) : Nat := if b < 8 then v % (8 / b) else 0

/-- Bit offset of the first source pixel of a row (R352). -/
def Press.sbit (p : Press) : Nat := pixelOffset p.srcBits (fld (p.p 0) 12 3) * p.srcBits

/-- Bit offset of the first destination pixel of a row (R352). -/
def Press.dbit (p : Press) : Nat := pixelOffset p.bits (fld (p.p 0) 8 3) * p.bits

/-- Bytes a destination row touches (R354). -/
def Press.rowBytes (p : Press) : Nat := ceilDiv (p.dbit + p.w * p.bits) 8

/-- Bytes a source row touches. -/
def Press.srcRowBytes (p : Press) : Nat := ceilDiv (p.sbit + p.w * p.srcBits) 8

/-- A range lies in the Orchard, in the usable LP5X or in the window of stage `i` (R354). -/
def State.pressPlace (s : State) (i a n : Nat) : Bool :=
  (decide (a + n ≤ 0x8000000)) ||
  (decide (0x100000000 ≤ a) && decide (a + n ≤ 0x100000000 + lpxUsable s.lpx.rawGib)) ||
  (decide (0x12000000 + 0x400000 * i ≤ a) && decide (a + n ≤ 0x12000000 + 0x400000 * (i + 1)))

/-- An address lies in a stage window (R36). -/
def inWindow (a : Nat) : Bool := (windowStage a).isSome

/-- The code with which an operation is refused, 0 if it may start (R354).
[log 108 DEDUCED] -/
def State.pressCheck (s : State) (i : Nat) (p : Press) : Nat :=
  let b := p.bits
  let aligned := fun a => (b != 16 || a % 2 == 0) && (b != 32 || a % 4 == 0)
  let badParam := decide (4 < p.op) || decide (5 < p.format) ||
    !aligned p.dst || (p.op == 0 && !aligned p.src) ||
    (b == 32 && (p.dpitch % 64 != 0 || (p.op == 0 && p.spitch % 64 != 0))) ||
    decide (p.dpitch < p.rowBytes) || (p.op == 2 && p.src % 64 != 0)
  let srcBytes := if p.op = 2 then 8 * b else p.spitch * (p.h - 1) + p.srcRowBytes
  let hasSrc := p.reads || p.op == 2
  let windowBad := fun a => inWindow a && (p.format != 5 || a % 4 != 0)
  let badAddr := !s.pressPlace i p.dst (p.dpitch * (p.h - 1) + p.rowBytes) ||
    (hasSrc && !s.pressPlace i p.src srcBytes) || windowBad p.dst || (hasSrc && windowBad p.src) ||
    (p.op == 0 && inWindow p.src && inWindow p.dst)
  if badParam then 2 else if badAddr then 3 else 0

/-- Whether two extents of `n` bits whose starts lie `d` apart share a bit. -/
def extentsMeet (d : Int) (n : Nat) : Bool := decide (d < n) && decide (-(n : Int) < d)

/-- DIRX and DIRY of a copy (R360): right to left, bottom to top. -/
def Press.dirs (p : Press) : Bool × Bool :=
  if p.op ≠ 0 ∨ p.spitch ≠ p.dpitch then (false, false)
  else
    let n := p.w * p.bits
    let d : Int := (8 * p.dst + p.dbit : Nat) - ((8 * p.src + p.sbit : Nat) : Int)
    (extentsMeet d n && decide (0 < d),
      (List.range p.h).any fun j => decide (0 < j) && extentsMeet (d - 8 * p.dpitch * j) n)

/-- The operation ends with an error code: ERR, no fence (R361, R362). -/
def Stage.pressStop (st : Stage) (code : Nat) : Stage :=
  (st.modPress fun p => { p with busy := false, dead := false, code := code, pattern := [] }).pressFlag 1

/-- `n` bytes at `a` as the Press of stage `i` reads them: a byte of its own window comes from the register (R355). -/
def State.pressByte (s : State) (i a : Nat) : Byte :=
  match windowStage a with
  | some _ => (s.stageRead i (a % 0x400000 / 4 * 4)).1.extractLsb' (8 * (a % 4)) 8
  | none => s.byte a

/-- Some source row shares a byte with some destination row (R360). -/
def Press.overlaps (p : Press) : Bool :=
  (List.range p.h).any fun i => (List.range p.h).any fun j =>
    let a := p.src + i * p.spitch
    let b := p.dst + j * p.dpitch
    decide (a < b + p.rowBytes) && decide (b < a + p.srcRowBytes)

/-- The overlap is unchecked, and what is written unpredictable (R11, R360): a copy with unequal pitches, or a glyph.
[log 152 DESIGN CHOICE] -/
def Press.loose (p : Press) : Bool :=
  (p.glyph || (p.op == 0 && p.spitch != p.dpitch)) && p.overlaps

/-- START (R354): the parameters are captured and checked.
[log 107 DEDUCED] -/
def State.pressStart (s : State) (i : Nat) : State :=
  let st := s.stage i
  if st.press.busy then s.modStage i (·.pressFlag 3)
  else
    let par := st.regs.filterMap fun e =>
      if pressBase ≤ e.1 ∧ e.1 ≤ pressBase + 0x30 then some (e.1 - pressBase, e.2) else none
    let p : Press := { st.press with busy := true, par := par, rows := 0, dead := false, wmFired := false, pattern := [], code := 0 }
    let p := { p with dirx := p.dirs.1, diry := p.dirs.2 }
    let code := s.pressCheck i p
    if code ≠ 0 then s.modStage i fun st => (st.modPress fun q => { q with rows := 0 }).pressStop code
    else s.modStage i fun st => st.modPress fun _ => p

/-- The watermark fires if its rows are written (R358): in a bottom-to-top operation only at completion. -/
def Stage.pressMark (st : Stage) (complete : Bool) : Stage :=
  let p := st.press
  let row := fld (st.reg (pressBase + 0x28)) 0 13
  if p.busy && !p.wmFired && (complete || (!p.diry && decide (row < p.rows))) then
    (st.modPress fun p => { p with wmFired := true }).pressFlag 2
  else st

/-- Completion (R357, R358). -/
def Stage.pressDone (st : Stage) : Stage :=
  let st := st.pressMark true
  let f := st.press.p 0x2C
  let st := if bit f 31 then st.signalFence 2 (fld f 0 8) (bit f 30) (st.press.p 0x30) else st
  (st.modPress fun p => { p with busy := false, dead := false, code := 0, pattern := [] }).pressFlag 0

/-- Every write of the operation has been made. -/
def Press.finished (p : Press) : Bool := p.busy && p.rows == p.h

/-- The Press may issue: an operation runs, its unit is in order and not being rebound (R363, R377). -/
def Stage.pressRuns (st : Stage) : Bool := st.press.busy && !st.press.faulted && !st.held.contains 26

/-- `PRESS_COMPLETE` (R357): the last write can be seen. -/
def execPressComplete (s : Nat) (st : State) : Res :=
  if (st.stage s).pressRuns && (st.stage s).press.finished then .next (st.modStage s Stage.pressDone) else .next st

/-- `PRESS_BURST_DEAD_END` (R356): the dead time after a burst is over. -/
def execPressBurstDeadEnd (s : Nat) (st : State) : Res :=
  .next (st.modStage s fun x => x.modPress fun p => { p with dead := false })

/-- `PRESS_WM` written: it acts on arrival (R358). -/
def Stage.writeWm (st : Stage) (v : Word) : Stage := (st.setReg (pressBase + 0x28) v).pressMark false

/-- The operation in progress ends without completion, fence or status (R363). -/
def Stage.pressDrop (st : Stage) : Stage := st.modPress fun p => { p with busy := false, dead := false, pattern := [] }

end Sys2Proof.Machine
end

