-- ==== Sys2Proof/Machine/StageBus.lean ====
section
/-!
DEFINITION. Writes of a stage window (R9, R23, R24, R29, R130, R218): what each register does with a
write, and what stands between a write and its register.
-/

namespace Sys2Proof.Machine

/-- The bits of a written word that `mask` selects, over the old ones (R210). -/
def merged (mask old v : Word) : Word := (old &&& ~~~mask) ||| (v &&& mask)

/-- An ordinary register written: `_HI` of a pair is staged over what was staged last, `_LO` takes the staged part with it
(R9, R130, R210). -/
def Stage.plainWrite (st : Stage) (row : RegRow) (o : Nat) (v mask : Word) : Stage :=
  let h := sget (fun _ => 0) st.hi (o - 4)
  let w := row.write (if row.pair = .hi && bit h 31 then setBit h 31 false else st.reg o) v mask
  match row.pair with
  | .plain => st.setReg o w
  | .hi => { st with hi := sset (fun _ => 0) st.hi (o - 4) (setBit w 31 true) }
  | .lo =>
    let h := sget (fun _ => 0) st.hi o
    let st := st.setReg o w
    if bit h 31 then { st.setReg (o + 4) (setBit h 31 false) with hi := sset (fun _ => 0) st.hi o 0 } else st

/-- Registers of the identity block (R91, R109, R380, R426). A TAKE by a Pip of the stage holds its core until the
checkpoint is complete. -/
def State.writeIdent (s : State) (ini : Initiator) (i o : Nat) (row : RegRow) (v mask : Word) : State :=
  let cmd := v &&& mask
  let plain := s.modStage i fun st => st.plainWrite row o v mask
  if o = 0x200 then
    plain.modStage i fun st => if fld (st.reg 0x200) 0 2 = 0 then st.modReg 0x200 fun w => setFld w 16 16 0 else st
  else if o = 0x304 then
    match ini with
    | .pip k => if bit cmd 0 && s.initStage ini == some i then plain.modCore k fun c => { c with taking := true } else plain
    | _ => plain
  else if o = 0x430 then s.modStage i fun st => st.timCommit cmd
  else if o = 0x500 then s.modStage i fun st => st.modReg o fun w => merged (mask &&& st.goOwn) w v
  else plain

/-- Registers of the Prism (R183, R196).
[log 113 DEDUCED] -/
def Stage.writePrism (st : Stage) (ini : Initiator) (q : Nat) (row : RegRow) (v mask : Word) : Stage :=
  let o := prismBase + q
  if decide (0x300 ≤ q) && decide (q < 0x480) && q % 16 == 0xC then
    st.flipCtrl ((q - 0x300) / 16) (merged mask (st.reg o) v)
  else if decide (0x700 ≤ q) && decide (q < 0x800) && decide (q % 32 ≤ 8) && bit (st.reg (prismBase + q / 32 * 32)) 1 &&
      isSoft ini then
    st.setRegBit (prismBase + 0x800) 17
  else st.plainWrite row o v mask

/-- Registers of the Chord (R214, R215, R216, R217). -/
def State.writeChord (s : State) (i q : Nat) (row : RegRow) (v mask : Word) : State :=
  let st := s.stage i
  let o := chordBase + q
  if decide (0x100 ≤ q) && decide (q < 0x200) then s.writeQiCfg i ((q - 0x100) / 4) (merged mask (st.reg o) v)
  else if decide (0x200 ≤ q) && decide (q < 0x300) && !st.qiOwn.getLsbD ((q - 0x200) / 4) then s.modStage i (·.chordFlag 7)
  else
    let st := st.plainWrite row o v mask
    let st := if decide (0x200 ≤ q) && decide (q < 0x300) then
        st.modReg o (· + wd (st.cyc.qi.filter (· == (q - 0x200) / 4)).length) else st
    let foreign := decide (0x1000 ≤ q) && q % 64 == 0 && !st.qiOwn.getLsbD (fld (st.reg o) 8 6)
    s.setStage i ((if foreign then st.chordFlag 7 else st).rfxWritten s.fab q)

/-- Registers of the Press (R354, R358, R361); `abort` is what ABORT does. -/
def State.writePress (s : State) (abort : State → Nat → State) (i q : Nat) (row : RegRow) (v mask : Word) : State :=
  let o := pressBase + q
  let cmd := v &&& mask
  if q = 0x34 then (if bit cmd 1 then abort s i else if bit cmd 0 then s.pressStart i else s)
  else if q = 0x28 then s.modStage i fun st => st.writeWm (merged mask (st.reg o) v &&& 0x1FFF)
  else s.modStage i fun st => st.plainWrite row o v mask

/-- Registers of the Bramble (R226, R230, R237, R238): RETRIG waits for its block like any field, and a route may name only
a destination of the stage. -/
def Stage.writeBramble (st : Stage) (o : Nat) (row : RegRow) (v mask : Word) : Stage :=
  let cmd := v &&& mask
  if decide (o < 0x240000) && o % 0x100 = 0x70 then st.feedVoice ((o - 0x200000) / 0x100) (fld cmd 0 25)
  else if decide (o < 0x240000) && o % 0x100 = 0 then
    st.setReg o (setBit (row.write (st.reg o) v mask) 1 (bit (merged mask (st.reg o) v) 1))
  else if decide (0x260100 ≤ o) && decide (o < 0x260120) && !st.dests.contains (fld (row.write (st.reg o) v mask) 0 8) then
    st.sndEvent 4
  else st.plainWrite row o v mask

/-- What the register at offset `o` of stage `i`'s window does with a write that reaches it. -/
def State.writeReg (s : State) (abort : State → Nat → State) (ini : Initiator) (i o : Nat) (v mask : Word) : State :=
  match stageRow o with
  | none => s
  | some row =>
    if o < 0x1000 then s.writeIdent ini i o row v mask
    else if o < 0x1400 then s.modStage i fun st => st.signalFence (fenceRank ini) ((o - 0x1000) / 4) false (merged mask (st.reg o) v)
    else if o < 0x2000 then s.modStage i fun st => st.signalFence (fenceRank ini) ((o - 0x1400) / 4) true (v &&& mask)
    else if o < 0x110000 then s.modStage i fun st => st.plainWrite row o v mask
    else if o < 0x190000 then s.modStage i fun st =>
      (st.plainWrite row o v mask).sprWritten (st.reg o) ((o - 0x110000) / 0x10000) (o % 0x10000)
    else if o < 0x1A0000 then s.modStage i fun st => st.writePrism ini (o - prismBase) row v mask
    else if o < 0x1B0000 then s.writeChord i (o - chordBase) row v mask
    else if o < 0x1C0000 then s.writePress abort i (o - pressBase) row v mask
    else s.modStage i fun st => st.writeBramble o row v mask

/-- The slot of a physical unit in its Sector window, by its binding index (R19). -/
def slotOf (b unit : Nat) : Nat :=
  if b < 16 then 1 + unit else if b < 24 then 15 + unit else if b = 24 then 20 + unit
  else if b = 25 then 22 + unit else if b = 26 then 30 else if b < 35 then 24 + unit else 29

/-- A register write placed into the mirror buffer of its unit's Sector (R379): word by word of 64 bytes; a full
buffer marks the unit stale.
[log 113 DEDUCED] -/
def State.mirror (s : State) (i b o : Nat) : State :=
  let e := (s.stage i).bind b
  let x := s.sector e.sector
  let k := (slotOf b e.unit, o / 64)
  if x.mirror.contains k then s
  else if x.mirror.length < 1024 then s.setSector e.sector { x with mirror := x.mirror ++ [k] }
  else s.setSector e.sector { x with stale := setBit x.stale (k.1 - 1) true }

/-- The initiator is the Chord or a reflex: group 2 or 3 of R218. -/
def isChord : Initiator → Bool
  | .chord _ | .reflex _ => true
  | _ => false

/-- A write that meets a Chord write in its FAB cycle is lost (R218). -/
def Stage.loseWrite (st : Stage) (o : Nat) : Stage :=
  let st := if bit (st.reg (chordBase + 0x10)) 6 then st else st.modChord fun c => { c with lost := o / 4 }
  st.chordFlag 6

/-- The register is one that a flip writes: a layer's base or a sprite list's base (R146, R168). -/
def isFlipReg (o : Nat) : Bool :=
  (decide (0x10000 ≤ o) && decide (o < 0x110000) && (o % 0x10000 == 0x20 || o % 0x10000 == 0x30)) ||
  (decide (0x110000 ≤ o) && decide (o < 0x190000) && o % 0x10000 == 8)

/-- What a register held before others wrote it in this FAB cycle is kept where a flip or a reflex may still meet the
write (R146, R218).
[log 92 DEDUCED] -/
def Stage.noteWrite (st : Stage) (ini : Initiator) (o : Nat) : Stage :=
  if !isChord ini && (isFlipReg o || isClass0 o) then
    st.modChord fun c => { c with others := (o, st.reg o) :: c.others }
  else st

/-- A write that meets a flip in its FAB cycle is lost, and the staged high part with it (R130, R146, R168).
[log 92 DEDUCED] -/
def Stage.flipLost (st : Stage) (o : Nat) : Stage :=
  { st.setRegBit (o / 0x10000 * 0x10000 + 0x80) 4 with hi := sset (fun _ => 0) st.hi o 0 }

/-- A write that has passed its hold (R23, R192, R379).
[log 112 DEDUCED] -/
def State.applyWrite (s : State) (abort : State → Nat → State) (ini : Initiator) (i o : Nat) (v mask : Word) : State :=
  let s := s.modStage i (·.noteWrite ini o)
  let s := s.writeReg abort ini i o v mask
  let s := if s.initStage ini == some i then s.modStage i (·.watchReg o) else s
  match (s.stage i).unitOf o with
  | some b => s.mirror i b o
  | none => s

/-- A write of word `o` of stage `i`'s window by an initiator that may make it, with the bits of `mask` (R23, R24,
R29, R146, R168, R218). -/
def State.stageWriteWith (s : State) (abort : State → Nat → State) (ini : Initiator) (i o : Nat) (v mask : Word) : State :=
  let st := s.stage i
  if st.unboundAt o then s.modStage i (·.setRegBit 4 9)
  else if st.chord.flips.contains o then s.modStage i (·.flipLost o)
  else if !isChord ini && st.chord.arrived.contains o then s.modStage i (·.loseWrite o)
  else if ((st.unitOf o).map st.held.contains).getD false then
    s.modStage i fun st => { st with heldWrites := st.heldWrites ++ [(o, v, mask, ini)] }
  else s.applyWrite abort ini i o v mask

/-! ### Rows of the Press -/

/-- ABORT of an operation whose current row has written nothing (R361). -/
def State.pressCut (s : State) (i : Nat) : State :=
  if (s.stage i).press.busy then s.modStage i fun st => st.pressStop 1 else s

/-- The row of the rectangle the Press works on, by the rows done (R360). -/
def Press.row (p : Press) : Nat := if p.diry then p.h - 1 - p.rows else p.rows

/-- The pixels of a row in processing order (R360). -/
def Press.order (p : Press) : List Nat := if p.dirx then (List.range p.w).reverse else List.range p.w

/-- Source bits of pixel `x` of row `y`: byte address, bit in the byte, bits (R352). -/
def Press.srcAt (p : Press) (x y : Nat) : Nat × Nat :=
  let n := p.sbit + x * p.srcBits
  (p.src + y * p.spitch + n / 8, n % 8)

/-- Destination byte and bit of pixel `x` of row `y` (R352). -/
def Press.dstAt (p : Press) (x y : Nat) : Nat × Nat :=
  let n := p.dbit + x * p.bits
  (p.dst + y * p.dpitch + n / 8, n % 8)

/-- Bytes of a pixel of `b` bits. -/
def pixelBytes (b : Nat) : Nat := if b < 8 then 1 else b / 8

/-- The value read for a pixel of the source (R352). -/
def State.pressPixel (s : State) (i a sub b : Nat) : Nat :=
  leNat ((List.range (pixelBytes b)).map fun k => s.pressByte i (a + k)) / 2 ^ sub % 2 ^ b

/-- The value that pixel (x, y) of the destination takes, if it is written (R351). -/
def State.pressValue (s : State) (i : Nat) (p : Press) (x y : Nat) : Option Nat :=
  let b := p.bits
  let fg := (p.p 0x1C).toNat % 2 ^ b
  let bg := (p.p 0x20).toNat % 2 ^ b
  let at_ := p.srcAt x y
  match p.op with
  | 0 => some (s.pressPixel i at_.1 at_.2 b)
  | 1 => some fg
  | 2 =>
    let k := (y + fld (p.p 0) 20 3) % 8 * 8 + (x + fld (p.p 0) 16 3) % 8
    some (leNat ((p.pattern.drop (k * b / 8)).take (pixelBytes b)) / 2 ^ (k * b % 8) % 2 ^ b)
  | 3 => some (if s.pressPixel i at_.1 at_.2 1 = 1 then fg else bg)
  | _ => if s.pressPixel i at_.1 at_.2 1 = 1 then some fg else none

/-- A range is one the Press may touch: its stage's segments or its own window (R91, R355). -/
def Stage.pressMay (st : Stage) (a n : Nat) : Bool := inWindow a || st.inSegs a n

/-- A pixel's bits put into its byte or bytes; in the stage window a word is written to its register (R353, R355). A write of part of an uncorrectable word, one of `drop`, is
dropped (R96).
[log 110 DEDUCED] -/
def State.pressPut (s : State) (i : Nat) (drop : List Nat) (a sub b v : Nat) : State :=
  match windowStage a with
  | some _ => s.stageWriteWith State.pressCut (.press i) i (a % 0x400000) (wd v) 0xFFFFFFFF
  | none =>
    if inWords drop a then s
    else if b < 8 then
      let old := (s.byte a).toNat
      s.setByte a (BitVec.ofNat 8 (old - old / 2 ^ sub % 2 ^ b * 2 ^ sub + v * 2 ^ sub))
    else s.setBytes a (leBytes v (b / 8))

/-- The value that pixel (x, y) takes, if it is written: of an overlap that the rules leave unchecked, a free one (R11).
[log 152 DESIGN CHOICE] -/
def State.pressTaken (s : State) (i : Nat) (p : Press) (fv x y : Nat) : Option Nat :=
  if p.loose then some ((Config.anyPixel fv (y * p.w + x)).toNat % 2 ^ p.bits) else s.pressValue i p x y

/-- The pixels of a row written in order, from values read before any of them is written (R356, R360): the state and,
if an access lies outside the partitions, its address and whether it is a write. -/
def State.pressPixels (s s0 : State) (i : Nat) (p : Press) (fv : Nat) (drop : List Nat) (y : Nat) :
    List Nat → State × Option (Nat × Bool)
  | [] => (s, none)
  | x :: r =>
    let sa := (p.srcAt x y).1
    let d := p.dstAt x y
    let n := pixelBytes p.bits
    if p.reads && !(s0.stage i).pressMay sa (pixelBytes p.srcBits) then (s, some (sa, false))
    else match s0.pressTaken i p fv x y with
      | none => s.pressPixels s0 i p fv drop y r
      | some v =>
        if !(s0.stage i).pressMay d.1 n then (s, some (d.1, true))
        else
          let s := s.pressPut i drop d.1 d.2 p.bits v
          (if inWindow d.1 || inWords drop d.1 then s else s.watchMem i d.1 n).pressPixels s0 i p fv drop y r

/-- The pixels `xs` of row `y` write byte `a` whole (R353). -/
def Press.wholeByte (p : Press) (y : Nat) (xs : List Nat) (a : Nat) : Bool :=
  let row := p.dst + y * p.dpitch
  decide (row ≤ a) && (List.range 8).all fun t =>
    let n := 8 * (a - row) + t
    decide (p.dbit ≤ n) && xs.contains ((n - p.dbit) / p.bits)

/-- The source bytes of the pixels `xs` of row `y`, up to the first access that is blocked (R91). -/
def Stage.pressReads (st : Stage) (p : Press) (y : Nat) (xs : List Nat) : List (Nat × Nat) :=
  if p.reads then
    (xs.map fun x => ((p.srcAt x y).1, pixelBytes p.srcBits)).takeWhile fun q => st.pressMay q.1 q.2
  else []

/-- Pixels `xs` of the current row written, and the operation stopped where an access is blocked or a word of the source is
uncorrectable (R96, R362). -/
def State.pressSome (s : State) (i : Nat) (xs : List Nat) : State × Bool :=
  let p := (s.stage i).press
  let y := p.row
  let (fv, s) := if p.loose then s.draw else (0, s)
  let rd := (s.stage i).pressReads p y xs
  let (bad, s) := s.readRanges (rd.filter fun q => !inWindow q.1)
  let ys := if p.reads then xs.takeWhile fun x => !inWords bad (p.srcAt x y).1 else xs
  let s := s.noteUnbound ((rd.take ys.length).map Prod.fst)
  let ws := ys.filter fun x => (s.pressTaken i p fv x y).isSome && (s.stage i).inSegs (p.dstAt x y).1 (pixelBytes p.bits)
  let (drop, s) := s.openRanges (ws.map fun x => ((p.dstAt x y).1, pixelBytes p.bits)) fun w =>
    (List.range 32).all fun j => p.wholeByte y ws (w + j)
  match s.pressPixels s i p fv drop y ys with
  | (s, none) => if ys.length < xs.length then (s.modStage i fun st => st.pressStop 5, false) else (s, true)
  | (s, some (a, w)) => ((s.blockOut i 4 0 (a / 64 * 64) w).modStage i fun st => st.pressStop 4, false)

/-- The pattern of an operation read whole before its first pixel is written (R352, R362). -/
def State.pressPattern (s : State) (i : Nat) : State :=
  let p := (s.stage i).press
  let n := 8 * p.bits
  if p.op ≠ 2 || !p.pattern.isEmpty then s
  else if !(s.stage i).pressMay p.src n then (s.blockOut i 4 0 p.src false).modStage i fun st => st.pressStop 4
  else
    let (bad, s) := if inWindow p.src then ([], s) else s.readRanges [(p.src, n)]
    if !bad.isEmpty then s.modStage i fun st => st.pressStop 5
    else
      let s := s.noteUnbound ((List.range (n / 4)).map fun k => p.src + 4 * k)
      s.modStage i fun st => st.modPress fun p => { p with pattern := (List.range n).map fun k => s.pressByte i (p.src + k) }

/-- The row in hand reads registers of a unit being rebound: it waits (R23). -/
def State.pressWaits (s : State) (i : Nat) : Bool :=
  let p := (s.stage i).press
  (p.reads && p.order.any fun x => s.heldAt (p.srcAt x p.row).1) || (p.op == 2 && s.heldAt p.src)

/-- The first `k` pixels of the row that an abort finds are taken, and the operation stops (R360). -/
def State.pressPart (s : State) (i k : Nat) : State :=
  let s := if k = 0 then s else s.pressPattern i
  let (s, ok) := if (s.stage i).press.busy then s.pressSome i ((s.stage i).press.order.take k) else (s, false)
  if ok then s.modStage i fun st => st.pressStop 1 else s

/-- ABORT (R361): whole bursts of the row in hand may have been written. An operation whose last write is made
completes normally.
[log 109 DESIGN CHOICE] -/
def State.pressAbort (s : State) (i : Nat) : State :=
  let p := (s.stage i).press
  if !p.busy then s
  else if p.finished then s.modStage i Stage.pressDone
  else
    let (fv, s) := s.draw
    s.pressPart i (if s.pressWaits i then 0 else Config.progress fv % p.w)

/-- A write to a stage window by any initiator that may make it. -/
def State.stageWrite (s : State) (ini : Initiator) (i o : Nat) (v mask : Word) : State :=
  s.stageWriteWith State.pressAbort ini i o v mask

/-- The writes of others to register `o` in this FAB cycle are lost to a Chord write (R218).
[log 92 DEDUCED] -/
def Stage.undoOthers (st : Stage) (o : Nat) : Stage :=
  match (st.chord.others.filter fun e => e.1 == o).getLast? with
  | none => st
  | some e => ((st.setReg o e.2).loseWrite o).modChord fun c => { c with others := c.others.filter fun e => e.1 != o }

/-- A write of the Chord or of a reflex reaches its register; a write of another that met it in this cycle is lost (R218). -/
def State.chordWrite (s : State) (ini : Initiator) (i o : Nat) (v mask : Word) : State :=
  let s := s.modStage i (·.undoOthers o)
  (s.stageWrite ini i o v mask).modChord i fun c => { c with arrived := c.arrived ++ [o] }

/-- A reflex write reaches the Prism; a register that R181 does not list drops it (R209, R216). -/
def State.arriveReflex (s : State) (i : Nat) (w : ChordWrite) : State :=
  if isClass0 w.off then s.chordWrite (.reflex i) i w.off w.val w.mask else s.modStage i fun st => st.chordFlag 4

/-- Where a row meets a word found with more than two symbol errors: the pattern, or the source or destination of the
pixel at place `k` (R96).
[log 110 DEDUCED] -/
def Press.ueAt (p : Press) (k : Nat) : Nat :=
  let x := p.order.getD k 0
  if p.op = 2 && p.rows = 0 then p.src
  else if p.reads then (p.srcAt x p.row).1
  else (p.dstAt x p.row).1

/-- One row written (R351-R353, R358, R360, R362).
[log 109 DESIGN CHOICE, 110 DEDUCED] -/
def State.pressRow (s : State) (i : Nat) (ue : Bool) : State :=
  let p := (s.stage i).press
  let (fv, s) := if ue then s.draw else (0, s)
  let s := if ue then s.upset (p.ueAt (Config.progress fv % p.w)) 3 else s
  let s := s.pressPattern i
  if !(s.stage i).press.busy then s
  else
    let (s, ok) := s.pressSome i p.order
    if ok then
      s.modStage i fun st => (st.modPress fun p => { p with
        rows := p.rows + 1, dead := fld (st.reg (pressBase + 0x24)) 0 10 != 0 }).pressMark false
    else s

/-- `PRESS_ROW_DONE`: every write of the next row can be seen. It comes after the dead time of the burst before
(R356), and once no register it reads is held (R23). -/
def execPressRowDone (s : Nat) (ue : Bool) (st : State) : Res :=
  let p := (st.stage s).press
  if (st.stage s).pressRuns && !p.finished && !p.dead && !st.pressWaits s then .next (st.pressRow s ue) else .next st

/-! ### Commands that are writes of one register -/

/-- `PRESS_CMD.START` (R354).
[log 111 DEDUCED] -/
def execPressStart (s : Nat) (st : State) : Res :=
  .next (st.stageWrite (.press s) s (pressBase + 0x34) 1 0xFFFFFFFF)

/-- `PRESS_CMD.ABORT` (R361).
[log 111 DEDUCED] -/
def execPressAbort (s : Nat) (st : State) : Res :=
  .next (st.stageWrite (.press s) s (pressBase + 0x34) 2 0xFFFFFFFF)

/-- `PRESS_WM` (R358).
[log 111 DEDUCED] -/
def execPressWm (s : Nat) (v : Word) (st : State) : Res :=
  .next (st.stageWrite (.press s) s (pressBase + 0x28) v 0xFFFFFFFF)

/-- A stage-window write by an initiator: only stage software of the stage and the Warden may make it (R12). -/
def State.windowWrite (s : State) (ini : Initiator) (i o : Nat) (v : Word) : State :=
  if s.mayWrite ini (some i) then s.stageWrite ini i o v 0xFFFFFFFF else s.accViol ini (0x12000000 + 0x400000 * i + o)

/-- `PRISM_FLIPk_CTRL` written with ARM (R183). -/
def execPrismFlipArm (s k : Nat) (v : Word) (st : State) : Res :=
  .next (st.stageWrite (.press s) s (prismBase + 0x30C + 16 * k) (v ||| 0x80000000) 0xFFFFFFFF)

/-- `PRISM_FLIPk_CTRL` written with CANCEL (R183). -/
def execPrismFlipCancel (s k : Nat) (v : Word) (st : State) : Res :=
  .next (st.stageWrite (.press s) s (prismBase + 0x30C + 16 * k) (v ||| 0x40000000) 0xFFFFFFFF)

/-- `FENCE` written (R182). -/
def execFence (i : Initiator) (s f : Nat) (v : Word) (st : State) : Res := .next (st.windowWrite i s (fenceReg f) v)

/-- `FENCE_ADD` written (R182). -/
def execFenceAdd (i : Initiator) (s f : Nat) (v : Word) (st : State) : Res :=
  .next (st.windowWrite i s (fenceReg f + 0x400) v)

/-- `QI_CFG` written (R214). -/
def execQiCfgWrite (i : Initiator) (s q : Nat) (v : Word) (st : State) : Res :=
  .next (st.windowWrite i s (chordBase + 0x100 + 4 * q) v)

/-- `VOICE_FEED` (R237). -/
def execVoiceFeed (i : Initiator) (s v : Nat) (n : Word) (st : State) : Res :=
  .next (st.windowWrite i s (voiceBase v + 0x70) n)

/-- `STAGE_GO` (R426). -/
def execStageGo (i : Initiator) (s : Nat) (v : Word) (st : State) : Res := .next (st.windowWrite i s 0x500 v)

end Sys2Proof.Machine
end

