-- ==== Sys2Proof/Machine/VineRun.lean ====
section
/-!
DEFINITION. The transfers of the Vine (R324-R327, R336, R338), the completion of a descriptor, and the
completion of commands at the drives (R341-R349).
-/

namespace Sys2Proof.Machine

/-- The device address of byte `k` of a memory side (R324). -/
def sideByte (d : List Word64) (i k : Nat) : Nat :=
  let len := max 1 (descLen d)
  Int.toNat (Int.emod ((sideAddr d i : Int) + (k / len : Nat) * sideStride d i + (k % len : Nat)) (2 ^ 40))

/-- The code with which an access of channel `c` to address `a` ends the descriptor, 0 if the channel reaches it
(R326, R336).
[log 94 DEDUCED] -/
def State.vineCode (s : State) (c a : Nat) : Nat :=
  let g := chanGroup c
  if mayWindow c a then 0
  else if s.isMem a then (if 4 ≤ g ∨ (s.stage g).inSegs a 1 then 0 else 3)
  else 4

/-- An access that ends a descriptor recorded: outside the partitions (R91), or a write to a place the stage does
not own (R12, R326). -/
def State.vineBlocked (s : State) (c a code : Nat) (write : Bool) : State :=
  if code = 3 then s.blockOut (chanGroup c) 5 0 a write
  else if code = 4 && write && decide (c < 56) then s.accViol (.vine c) a
  else s

/-- Bytes from `k` on of a memory side, as read (R326, R336): the bytes, the code and the address of the access that
ended the read if one did, and the state.
[log 94 DEDUCED] -/
def State.gather (s : State) (c : Nat) (d : List Word64) : Nat → Nat → List Byte × Nat × Nat × State
  | 0, _ => ([], 0, 0, s)
  | fuel + 1, k =>
    if descTotal d ≤ k then ([], 0, 0, s)
    else
      let a := sideByte d 1 k
      let code := s.vineCode c a
      if code ≠ 0 then ([], code, a, s)
      else match windowStage a with
        | some i =>
          let (w, s) := s.stageRead i (a % 0x400000)
          let (bs, e) := s.gather c d fuel (k + 4)
          (leBytes w.toNat 4 ++ bs, e)
        | none =>
          let (bad, s) := s.readRanges [(a, 1)]
          if !bad.isEmpty then ([], 5, a, s)
          else
            let (bs, e) := s.gather c d fuel (k + 1)
            (s.byte a :: bs, e)

/-- The `n` bytes of the destination about to be written, row by row, up to the first that the channel does not reach (R96,
R335): the words that drop what is written to part of them. -/
def State.openDest (s : State) (c : Nat) (d : List Word64) (n : Nat) : List Nat × State :=
  if s.errs.isEmpty then ([], s)
  else
    let len := max 1 (descLen d)
    let m := ((List.range n).takeWhile fun k => s.vineCode c (sideByte d 2 k) == 0).length
    let rs := (List.range (ceilDiv m len)).map fun j => (sideByte d 2 (j * len), min len (m - j * len))
    s.openRanges rs (inOne rs)

/-- Bytes written to a memory side from byte `k` on (R326, R334): how many were written, the code and the address
of the access that ended the write if one did, and the state. Words of `drop` keep what they hold (R96).
[log 94 DEDUCED] -/
def State.scatter (s : State) (c : Nat) (d : List Word64) (drop : List Nat) : Nat → Nat → List Byte → Nat × Nat × Nat × State
  | 0, k, _ => (k, 0, 0, s)
  | _ + 1, k, [] => (k, 0, 0, s)
  | fuel + 1, k, b :: r =>
    let a := sideByte d 2 k
    let code := s.vineCode c a
    if code ≠ 0 then (k, code, a, s)
    else match windowStage a with
      | some i =>
        if r.length < 3 then (k, 0, 0, s)
        else (s.stageWrite (.vine c) i (a % 0x400000) (wd (leNat (b :: r.take 3))) 0xFFFFFFFF).scatter c d drop fuel (k + 4) (r.drop 3)
      | none =>
        if inWords drop a then s.scatter c d drop fuel (k + 1) r
        else
          let s := s.setByte a b
          (if c < 56 then s.watchMem (c / 14) a 1 else s).scatter c d drop fuel (k + 1) r

/-- Source and destination of a copy share a byte: the result is unpredictable (R11).
[log 95 DESIGN CHOICE] -/
def descOverlaps (d : List Word64) : Bool :=
  let n := descLen d
  let rows := List.range (dfld d 3 24 12 + 1)
  descOp d == 0 && !sideAsset d 1 && !sideAsset d 2 &&
    rows.any fun i => rows.any fun j =>
      let a := sideByte d 1 (i * n)
      let b := sideByte d 2 (j * n)
      decide (a < b + n) && decide (b < a + n)

/-- The data of a descriptor (R324): its bytes, how the read of them ended, and the state. `asset` is what the drives
returned; what they have not returned is free.
[log 95 DESIGN CHOICE] -/
def State.descData (s : State) (c : Nat) (d : List Word64) (asset : List Byte) : List Byte × Nat × Nat × State :=
  let total := descTotal d
  let (fv, s) := s.draw
  if descOp d = 1 then
    ((List.range total).map fun k => BitVec.ofNat 8 (dfld d 1 (8 * (k % max 1 (descLen d) % 4)) 8), 0, 0, s)
  else if sideAsset d 1 then ((List.range total).map fun k => asset.getD k (Config.freeByte fv k), 0, 0, s)
  else
    let (bs, e) := s.gather c d total 0
    (if descOverlaps d then bs.mapIdx fun k _ => Config.freeByte fv k else bs, e)

/-- At most `limit` bytes of a descriptor moved (R324, R334): the bytes written, none of a trim or a commit, the code that
ended it, and the state.
[log 96 DESIGN CHOICE] -/
def State.transfer (s : State) (c : Nat) (d : List Word64) (asset : List Byte) (limit : Nat) : Nat × Nat × State :=
  if 2 ≤ descOp d then (0, 0, s)
  else
    let (bs, e1, a1, s) := s.descData c d asset
    let bs := bs.take limit
    if sideAsset d 2 then (bs.length, e1, if e1 = 0 then s else s.vineBlocked c a1 e1 false)
    else
      let (drop, s) := s.openDest c d bs.length
      let (n, e2, a2, s) := s.scatter c d drop limit 0 bs
      if e2 ≠ 0 then (n, e2, s.vineBlocked c a2 e2 true)
      else if e1 ≠ 0 && decide (bs.length < limit) then (n, e1, s.vineBlocked c a1 e1 false)
      else (n, 0, s)

/-- The completion actions of a descriptor in their order, before the next one starts (R327): FEED, FENCE, TRIG, HEAD, DONE.
Group 4 has none of the first four (R322). -/
def State.finishDesc (s : State) (c : Nat) : State :=
  let v := s.chan c
  let d := v.desc
  let g := chanGroup c
  let own := decide (g < 4)
  let s := s.modDreg (chanReg c 0x28) (· + 1)
  let s := if own && descFlag d 4 then
    s.stageWrite (.vine c) g (voiceBase (dfld d 3 44 10) + 0x70) (wd (descTotal d)) 0xFFFFFFFF else s
  let s := if own && descFlag d 2 then s.modStage g fun st => st.signalFence 3 (dfld d 3 36 8) true 1 else s
  let s := if own && descFlag d 3 then s.bell g (dfld d 0 40 18) 1 else s
  let s := match descFlag d 0, v.ring with
    | true, some (n, _) => s.endEntry g n 0
    | _, _ => s
  let direct := descFlag d 0 && v.ring.isNone
  let s := if direct then
    (s.setChan c { s.chan c with code := 0, resid := 0, run := false, next := none }).statusRecord c 0 else s
  let s := if descFlag d 1 then s.chanFlag c 0 else s
  s.setChan c { s.chan c with busy := false }

/-- What a channel does after a descriptor: the next one of its list, or the next entry of its rings (R327, R332);
a parked channel starts none (R399). -/
def State.afterDesc (s : State) (c : Nat) : State :=
  let v := s.chan c
  let d := v.desc
  if descFlag d 0 then s.serve c
  else
    let next := dfld d 0 5 35 * 32
    if v.park then s.setChan c { v with next := some next } else s.beginDesc c next v.ring

/-- The descriptor ends with a code after at most `limit` bytes (R336).
[log 96 DESIGN CHOICE] -/
def State.cutDesc (s : State) (c code limit : Nat) : State :=
  let (n, _, s) := s.transfer c (s.chan c).desc [] limit
  s.stopChan c code n

/-- How far the descriptor in progress may have come (R334, R338): a run at the drives as far as its commands have
completed. -/
def State.descLimit (s : State) (c : Nat) : Nat :=
  let d := (s.chan c).desc
  match assetSide d with
  | some i => min (descTotal d) (4096 * s.blocksDone c (runBlocks d i) - runOffset d i)
  | none => descTotal d

/-- The descriptor reads registers of a unit being rebound: it waits (R23). -/
def State.vineWaits (s : State) (d : List Word64) : Bool :=
  !((List.range 4).all fun i => (s.stage i).held.isEmpty) && descOp d == 0 && !sideAsset d 1 &&
    (List.range (descTotal d)).any fun k => s.heldAt (sideByte d 1 k)

/-- `DESCRIPTOR_COMPLETE` (R327): it comes when no command of the descriptor is out, and no register it reads is held. `ue` says
that a word of its source is found with more than two symbol errors (R93).
[log 97 DESIGN CHOICE] -/
def execDescriptorComplete (c : Nat) (asset : List Byte) (ue storeErr : Bool) (s : State) : Res :=
  let v := s.chan c
  let d := v.desc
  if !v.run || !v.busy then .next s
  else if storeErr then
    let (fv, s) := s.draw
    .next (s.cutDesc c 7 (Config.progress fv % (s.descLimit c + 1))).storeGo
  else if !v.todo.isEmpty || !(s.cmdsOut c).isEmpty then .next s
  else if s.vineWaits d then .next s
  else
    let (fv, s) := if ue then s.draw else (0, s)
    let s := if ue && descOp d == 0 && !sideAsset d 1 then s.upset (sideByte d 1 (Config.progress fv % descTotal d)) 3 else s
    let (n, code, s) := s.transfer c d asset (descTotal d)
    if code ≠ 0 then .next (s.stopChan c code n)
    else .next ((s.finishDesc c).afterDesc c).storeGo

/-- An abort that finds every write of the descriptor made: the descriptor completes, and a ring counts its entry. -/
def State.abortLast (s : State) (c : Nat) : State :=
  let v := s.chan c
  let (n, code, s) := s.transfer c v.desc [] (descTotal v.desc)
  if code ≠ 0 then s.stopChan c code n
  else
    let s := s.finishDesc c
    let s := match descFlag v.desc 0, v.ring with
      | false, some (n, _) => s.endEntry (chanGroup c) n 1
      | _, _ => s
    s.stopChan c 1 0

/-- ABORT (R338). -/
def State.abortChan (s : State) (c : Nat) : State :=
  let v := s.chan c
  if !v.run then s
  else if !v.busy then s.stopChan c 1 0
  else
    let (fv, s) := s.draw
    let limit := s.descLimit c
    let toStore := assetSide v.desc == some 2
    let k := if s.vineWaits v.desc then 0 else if toStore then limit else Config.progress fv % (limit + 1)
    let last := if descOp v.desc ≥ 2 then Config.progress fv % 2 == 1 else k == descTotal v.desc
    if last && (s.cmdsOut c).isEmpty && v.todo.isEmpty then s.abortLast c else s.cutDesc c 1 k

/-- `CHAN_CMD.ABORT` (R338). -/
def execChanAbort (i : Initiator) (c : Nat) (s : State) : Res :=
  .next (s.vineWrite i (s.mayChan i c) (chanReg c 4) fun s => (s.abortChan c).storeGo)

/-- `CHAN_CMD` written: ABORT and START together act as ABORT (R338). -/
def State.chanCmd (s : State) (c : Nat) (v : Word) : State :=
  if bit v 1 then (s.abortChan c).storeGo else if bit v 0 then s.startChan c else s

/-- What follows a command completed without error (R346, R347). -/
def State.nvmeDone (s : State) (d : Nat) : NvmeCmd → State
  | .ledgerWrite seq _ =>
    let n := fld (s.dreg (qmReg 0x84)) 0 17
    ({ s with store := { s.store with oldest := max s.store.oldest (seq + 1 - n) } }).putCmd d (.ledgerFlush seq)
  | .ledgerFlush _ => s.ldgAck
  | .loadRead n _ => { s with load := { s.load with got := s.load.got + n } }
  | _ => s

/-- What follows a command that failed (R336, R347). -/
def State.nvmeError (s : State) (d : Nat) (x : NvmeCmd) : State :=
  match x with
  | .ledgerWrite _ _ | .ledgerFlush _ => s.ldgRetry d x
  | .storeRead c _ _ _ | .storeWrite c _ _ _ | .storeTrim c _ _ _ | .commitFlush c =>
    let (fv, s) := s.draw
    let whole := assetSide (s.chan c).desc == some 2
    s.cutDesc c 7 (if whole then s.descLimit c else Config.progress fv % (s.descLimit c + 1))
  | .loadRead _ _ => { s with load := { s.load with readErr := true } }
  | _ => s

/-- The command at place `idx` of those out at drive `d` ends with a status field (R344, R346, R347). A failed command counts as
not completed while its channel is cut off. -/
def State.nvmeEnd (s : State) (d idx : Nat) (status : BitVec 16) : State :=
  match (s.drive d).out[idx]? with
  | none => s
  | some x =>
    let gone := fun (v : Drive) => { v with out := v.out.eraseIdx idx }
    if status = 0 then ((s.modDrive d gone).nvmeDone d x).storeGo
    else (((s.nvmeFailed d status).nvmeError d x).modDrive d gone).storeGo

end Sys2Proof.Machine
end

