-- ==== Sys2Proof/Machine/Links.lean ====
section
/-!
DEFINITION. The cabinet links (R412-R433): Spoke buses, USB, the PCIe ports, I2C, the UART and the SPI flash.
-/

namespace Sys2Proof.Machine

/-! ### Spoke -/

/-- Register `o` of drop `d` of Spoke bus `b`; drop 0 is the bus block (R424). -/
def spkReg (b d o : Nat) : Nat := 0x13070000 + 0x4000 * b + 0x100 * d + o

/-- Spoke bus `b`. -/
def State.spk (s : State) (b : Nat) : Spoke := vget {} s.spoke b

/-- Spoke bus `b` replaced. -/
def State.setSpk (s : State) (b : Nat) (x : Spoke) : State := { s with spoke := vset s.spoke b x }

/-- The polled drops of a bus, ascending (R422). -/
def State.polled (s : State) (b : Nat) : List Nat :=
  upto 32 fun d => (List.range 4).any fun i => (s.stage i).drops.contains (b, d, true)

/-- The drop due: the next after the one polled last (R422). -/
def State.dueDrop (s : State) (b : Nat) : Option Nat :=
  let ds := s.polled b
  ((ds.filter fun d => decide ((s.spk b).last < d)) ++ ds).head?

/-- Bytes of consecutive registers. -/
def State.regBytes (s : State) (a n : Nat) : List Byte :=
  ((List.range (ceilDiv n 4)).flatMap fun k => leBytes (s.dreg (a + 4 * k)).toNat 4).take n

/-- Root ticks of a bit time at 12 Mbit/s (R26, R420). -/
def spkBit : Nat := 200

/-- A BCAST is on the line (R420, R422). -/
def State.bcasting (s : State) (b : Nat) : Bool := decide (s.root < (s.spk b).bcastEnd)

/-- A POLL goes out to the drop that is due, `gap` bit times from now (R421-R423). -/
def State.spkPoll (s : State) (b gap : Nat) : State :=
  match s.dueDrop b with
  | none => s
  | some d =>
    let n := min 32 (fld (s.dreg (spkReg b d 0x20)) 0 6)
    s.setSpk b { s.spk b with
      busy := some d, last := d, began := s.fab + gap * spkBit / (if s.slow then 4 else 2), polled := s.regBytes (spkReg b d 0) n }

/-- The bus polls: it is enabled, and the device is not in M8, M9 or M10 (R424). -/
def State.spkOn (s : State) (b : Nat) : Bool :=
  bit (s.dreg (spkReg b 0 0x80)) 0 && (s.power.step == 6 || !(s.asleep || s.mode = .deep))

/-- Output bytes written before the POLL of their drop begins, or in that FAB cycle, are sent (R423). -/
def State.spkRefresh (s : State) (b d : Nat) : State :=
  let x := s.spk b
  if x.busy == some d && decide (s.fab ≤ x.began) then
    s.setSpk b { x with polled := s.regBytes (spkReg b d 0) (min 32 (fld (s.dreg (spkReg b d 0x20)) 0 6)) }
  else s

/-- A poll event (R422): skipped and counted while a transaction or a BCAST is in progress.
[log 136 DESIGN CHOICE] -/
def State.pollEvent (s : State) (b : Nat) : State :=
  if !s.spkOn b then s
  else if (s.spk b).busy.isSome || s.bcasting b then s.modDreg (spkReg b 0 0x88) (· + 1)
  else s.spkPoll b 0

/-- The poll events of the line `y` of stage `i` (R422): line 0 and every LINE_DIV-th after it. -/
def State.linePolls (s : State) (i y : Nat) : State :=
  (List.range 2).foldl (fun s b =>
    if (s.spk b).sync == i && y % max 1 (fld (s.dreg (spkReg b 0 0x80)) 8 8) == 0 then s.pollEvent b else s) s

/-- A bus without a SYNC_STAGE polls `gap` bit times after it becomes free (R422). -/
def State.spkKick (s : State) (b gap : Nat) : State :=
  if s.spkOn b && (s.spk b).sync == 0xFF && (s.spk b).busy.isNone && !s.bcasting b then s.spkPoll b gap else s

/-- A BCAST of the bytes `p` goes out `gap` bit times from now (R420, R424). -/
def State.spkSend (s : State) (b gap : Nat) (p : List Byte) : State :=
  s.setSpk b { s.spk b with
    bcast := p, bcastWait := none, bcastEnd := s.root + (gap + 10 * (p.length + 4)) * spkBit }

/-- The line of bus `b` has become idle (R420, R422, R424): 2 bit times later a waiting BCAST goes out, or a free-running bus
polls on. -/
def State.spkNext (s : State) (b : Nat) : State :=
  match (s.spk b).bcastWait with
  | some p => s.spkSend b 2 p
  | none => s.spkKick b 2

/-- A transaction is over (R422, R424). -/
def State.spkEnd (s : State) (b : Nat) : State := (s.setSpk b { s.spk b with busy := none }).spkNext b

/-- Time has passed since root tick `was`: a BCAST that has ended leaves the line idle (R420, R422). -/
def State.spkTime (s : State) (was b : Nat) : State :=
  if decide (was < (s.spk b).bcastEnd) && !s.bcasting b then s.spkNext b else s

/-- One step of CRC-16/CCITT (R420). -/
def crc16Bit (c : BitVec 16) : BitVec 16 := if c.getLsbD 15 then (c <<< 1) ^^^ 0x1021 else c <<< 1

/-- CRC-16/CCITT of a list of bytes (R420). -/
def crc16 (bs : List Byte) : BitVec 16 :=
  bs.foldl (fun c b => Nat.repeat crc16Bit 8 (c ^^^ ((b.zeroExtend 16 : BitVec 16) <<< (8 : Nat)))) 0xFFFF

/-- The payload of a REPLY of drop `d`, if the frame is accepted (R420, R421). -/
def spkAccept (d : Nat) (frame : List Byte) : Option (List Byte) :=
  match frame with
  | h :: l :: r =>
    let n := l.toNat
    let p := r.take n
    let crc := crc16 (h :: l :: p)
    if h.toNat == d + 0x20 && decide (n ≤ 32) && r.length == n + 2 &&
        r.drop n == [crc.extractLsb' 8 8, crc.extractLsb' 0 8] then some p else none
  | _ => none

/-- The words that bytes fill, from address `a` on. -/
def State.putWords (s : State) (a : Nat) (bs : List Byte) (n : Nat) : State :=
  s.setDregs a ((List.range n).map fun k => wd (leNat ((bs.drop (4 * k)).take 4)))

/-- `SPOKE_REPLY` (R421, R423): none comes while VDD_IO33 is away (R443). An accepted reply replaces the input buffer, whose bytes beyond it are free; another is
counted.
[log 24 DESIGN CHOICE, 136 DESIGN CHOICE] -/
def execSpokeReply (b : Nat) (frame : List Byte) (stopsValid : Bool) (s : State) : Res :=
  match (if s.power.io33 then (s.spk b).busy else none) with
  | none => .next s
  | some d =>
    match (if stopsValid then spkAccept d frame else none) with
    | some p =>
      let (fv, s) := s.draw
      let all := p ++ (List.range (32 - p.length)).map fun k => Config.freeByte fv k
      let s := s.putWords (spkReg b d 0x40) all 8
      let s := s.modDreg (spkReg b d 0x60) fun w => setFld (setFld w 16 6 p.length) 0 16 (fld w 0 16 + 1)
      let s := if bit (s.dreg (spkReg b d 0x24)) 0 then s.pulse (489 + 2 * b) else s
      .next (s.spkEnd b)
    | none => .next (((s.modDreg (spkReg b d 0x64) fun w => satAdd w 0 16 1).pulse (490 + 2 * b)).spkEnd b)

/-- `SPOKE_TIMEOUT` (R421). -/
def execSpokeTimeout (b : Nat) (s : State) : Res :=
  match (s.spk b).busy with
  | none => .next s
  | some d => .next (((s.modDreg (spkReg b d 0x64) fun w => satAdd w 16 16 1).pulse (490 + 2 * b)).spkEnd b)

/-- A write of `SPK_BCAST` (R424): sent at once, or when the transaction or BCAST in progress ends.
[log 136 DESIGN CHOICE] -/
def State.sendBcast (s : State) (b : Nat) (v : Word) : State :=
  let p := s.regBytes (spkReg b 0 0) (min 32 (fld v 0 6))
  let x := s.spk b
  if x.busy.isSome || s.bcasting b then s.setSpk b { x with bcastWait := some p } else s.spkSend b 0 p

/-- `SPK_BCAST` (R421, R424). -/
def execSpkBcast (b : Nat) (v : Word) (s : State) : Res := .next (s.sendBcast b v)

/-! ### USB -/

/-- USB port `p`. -/
def State.usbp (s : State) (p : Nat) : UsbPort := vget {} s.usb p

/-- USB port `p` changed. -/
def State.modUsb (s : State) (p : Nat) (f : UsbPort → UsbPort) : State := { s with usb := vset s.usb p (f (s.usbp p)) }

/-- `USB_PORTSC.RESET` (R430). -/
def execUsbPortReset (p : Nat) (s : State) : Res := .next (s.modUsb p fun u => { u with resetting := true })

/-- `USB_BUS_RESET_END` (R430): the port is enabled and SPEED set. -/
def execUsbBusResetEnd (p : Nat) (speed : BitVec 2) (s : State) : Res :=
  if (s.usbp p).resetting then
    .next (s.modUsb p fun u => { u with
      resetting := false, enabled := u.connect, speed := if u.connect then speed.toNat else 3 })
  else .next s

/-- `USB_PORTSC.RESUME` (R430). -/
def execUsbPortResume (p : Nat) (s : State) : Res := .next (s.modUsb p fun u => { u with resuming := true })

/-- `USB_RESUME_END` (R430): the port leaves suspend. -/
def execUsbResumeEnd (p : Nat) (s : State) : Res :=
  if (s.usbp p).resuming then
    .next ((s.modUsb p fun u => { u with resuming := false }).modDreg (usbReg p 0) fun w => setBit w 4 false)
  else .next s

/-- `USB_PORT_EVENT` (R419, R430): kind 0 CONNECT, 1 resume signalled by the device, 2 OC_N.
[log 24 DESIGN CHOICE, 137 DESIGN CHOICE] -/
def execUsbPortEvent (p : Nat) (kind : BitVec 2) (level : Bool) (s : State) : Res :=
  let u := s.usbp p
  let note := fun (s : State) i => s.modDreg (usbReg p 0) fun w => setBit w i true
  match kind.toNat with
  | 0 =>
    if u.connect = level then .next s
    else .next (note (s.modUsb p fun u =>
      if level then { u with connect := true } else { u with connect := false, enabled := false, speed := 3 }) 17)
  | 1 => if level && (bit (s.dreg (usbReg p 0)) 4 || s.power.linksLow) then .next (note s 18) else .next s
  | 2 =>
    if u.oc = level then .next s
    else
      let s := note (s.modUsb p fun u => { u with oc := level }) 19
      .next (if level then s.modDreg (usbReg p 0) fun w => setBit w 6 false else s)
  | _ => .next s

/-- `USB_PORTSC` as it reads (R430). -/
def State.portsc (s : State) (p : Nat) : Word :=
  let u := s.usbp p
  (s.dreg (usbReg p 0) &&& 0xE0050) ||| wd (u.connect.toNat + 4 * u.enabled.toNat + 0x80 * u.oc.toNat + 0x4000 * u.speed)

/-- Pipe `i` of port `p`. -/
def State.pipe (s : State) (p i : Nat) : Pipe := sget (fun _ => ({} : Pipe)) s.pipes (16 * p + i)

/-- Pipe `i` of port `p` replaced. -/
def State.setPipe (s : State) (p i : Nat) (x : Pipe) : State :=
  { s with pipes := sset (fun _ => ({} : Pipe)) s.pipes (16 * p + i) x }

/-- A range lies in the Orchard or the usable LP5X (R419). -/
def State.memRange (s : State) (a n : Nat) : Bool := n == 0 || (s.isMem a && s.isMem (a + n - 1))

/-- `PIPE_RECORD_END` (R419, R430): the record at HEAD ends with a code and a count, under over-current with timeout; what an IN transfer moved is
written to its buffer.
[log 137 DESIGN CHOICE, 153 DESIGN CHOICE] -/
def execPipeRecordEnd (p i : Nat) (code : BitVec 8) (moved : Nat) (data : List Byte) (s : State) : Res :=
  let x := s.pipe p i
  let ctl := s.dreg (pipeReg p i 8)
  let tail := fld (s.dreg (pipeReg p i 0xC)) 0 16
  if !bit ctl 31 || x.halted || tail == x.head || bit (s.dreg (usbReg p 0)) 4 || s.power.linksLow then .next s
  else
    let n := max 1 (min 12 (fld ctl 16 4))
    let rec_ := base40 (s.dreg (pipeReg p i 0)) (s.dreg (pipeReg p i 4)) + 16 * (x.head % 2 ^ n)
    let (bad, s) := s.readRanges [(rec_, 16)]
    let w0 := wd (s.le rec_ 4)
    let len := s.le (rec_ + 4) 4 % 65536
    let buf := s.le (rec_ + 8) 5
    let control := fld w0 11 2 == 0
    let room := if control then len + 8 else len
    let inside := s.memRange buf room && s.memRange rec_ 16 && bad.isEmpty
    let code := if !inside then 5 else if (s.usbp p).oc then 2 else code.toNat
    let moved := if inside then min moved len else 0
    let s := if inside && bit w0 13 then s.storeBytes (if control then buf + 8 else buf) (data.take moved) else s
    let s := if s.memRange rec_ 16 then s.storeBytes (rec_ + 0xD) (leBytes code 1 ++ leBytes moved 2) else s
    let s := s.setPipe p i { head := (x.head + 1) % 65536, halted := code != 0, code := code }
    .next (if bit w0 14 then s.modDreg (pipeReg p i 0x14) fun w => setBit w 9 true else s)

/-! ### PCIe -/

/-- PCIe port `p`. -/
def State.pep (s : State) (p : Nat) : PePort := vget {} s.pe p

/-- PCIe port `p` replaced. -/
def State.setPe (s : State) (p : Nat) (x : PePort) : State := { s with pe := vset s.pe p x }

/-- The drive behind a root port is gone and counts as failed (R340, R347): the descriptors that wait for it end with STORE_ERR,
and a Ledger block on its way is written again later.
[log 105 DEDUCED] -/
def State.driveLost (s : State) (d : Nat) : State :=
  let cmds := (s.drive d).out
  let ledger := cmds.any fun
    | .ledgerWrite _ _ | .ledgerFlush _ => true
    | _ => false
  let loading := cmds.any fun
    | .loadRead _ _ => true
    | _ => false
  let s := if ledger then
    { s with store := { s.store with inBlock := 0, block := [] } }.modDreg (qmReg 4) fun w => setBit w 25 true else s
  let s := (cmds.filterMap NvmeCmd.chan).eraseDups.foldl (fun s c => s.nvmeError d (.commitFlush c)) s
  let s := if loading then { s with load := { s.load with readErr := true } } else s
  ((s.modDrive d fun v => { v with out := [] }).driveState d 3).storeGo

/-- A new link state of PE `p`, or an AER event (R431). A drive behind a root port starts when its link comes up, until its
queues are built (R341). -/
def State.linkEvent (s : State) (p : Nat) (st : BitVec 11) (aerUnc aerCor : Word) : State :=
  let e := s.pep p
  let st := st &&& 0x77F
  let link := (st &&& 0x37F) != (e.status &&& 0x37F)
  let perst := st.getLsbD 10 != e.status.getLsbD 10
  let aer := aerUnc != 0 || aerCor != 0
  let sub := if !e.trained && st.getLsbD 0 then s.dreg (peReg p 0) else e.subsys
  let s := s.setPe p { e with status := st, trained := e.trained || st.getLsbD 0, subsys := sub }
  let s := s.modDreg (peReg p 0xC) fun w =>
    setFld w 16 3 (fld w 16 3 ||| (link.toNat + 2 * perst.toNat + 4 * aer.toNat))
  let s := if aer then (s.setDreg (peReg p 0x10) aerUnc).setDreg (peReg p 0x14) aerCor else s
  let lost := s.straps.getLsbD (1 + p) && e.status.getLsbD 0 && !st.getLsbD 0 && (s.drive p).state != 0
  let up := decide (p < 2) && s.straps.getLsbD (1 + p) && !e.status.getLsbD 0 && st.getLsbD 0 && bit (s.dreg (qmReg 0)) p &&
    ((s.drive p).state == 0 || (s.drive p).state == 3)
  (if lost then s.driveLost p else if up then s.driveState p 1 else s).hostSyncAll

/-- The links take the power state of the mode, 1 for L1 and 2 for L2 with USB suspended, or leave it with 0 (R395, R399,
R403).
[log 17 DESIGN CHOICE] -/
def State.linkPower (s : State) (k : Nat) : State :=
  let s := (List.range 2).foldl (fun s p =>
    let st := (s.pep p).status
    if st.getLsbD 0 then s.linkEvent p ((st &&& 0x4FF) ||| BitVec.ofNat 11 (0x100 * k)) 0 0 else s) s
  { s with power := { s.power with linksLow := k != 0 } }

/-- Vendor and Device ID of an endpoint port, and its class code (R414). -/
def State.pciIds (s : State) : Word := (0x4410 : BitVec 16) ++ s.fuses.pciVendor

/-- The class code of an endpoint port (R414). -/
def pciClass : Nat := 0x040000

/-- `PE_STATUS` as it reads (R431). -/
def State.peStatus (s : State) (p : Nat) : Word :=
  (s.dreg (peReg p 0xC) &&& 0xF0000) ||| (s.pep p).status.zeroExtend 32

/-! ### I2C and UART -/

/-- Register `o` of I2C controller `n` (R432). -/
def i2cReg (n o : Nat) : Nat := 0x13060000 + 0x100 * n + o

/-- Register `o` of the UART (R432). -/
def uartReg (o : Nat) : Nat := 0x13060200 + o

/-- Register `o` of the SPI flash controller (R432). -/
def spiReg (o : Nat) : Nat := 0x13060400 + o

/-- I2C controller `n`. -/
def State.i2cn (s : State) (n : Nat) : Fifo := vget {} s.i2c n

/-- I2C controller `n` replaced. -/
def State.setI2c (s : State) (n : Nat) (x : Fifo) : State := { s with i2c := vset s.i2c n x }

/-- A write of `I2C_CMD` (R432): START is ignored while BUSY. -/
def execI2cStart (n : Nat) (v : Word) (s : State) : Res :=
  let s := s.setDreg (i2cReg n 4) (v &&& 0x607F001F)
  let x := s.i2cn n
  .next (if bit v 31 && !x.busy && bit (s.dreg (i2cReg n 0)) 8 then s.setI2c n { x with busy := true } else s)

/-- Data bytes of the transfer programmed in `I2C_CMD` (R432). -/
def State.i2cLen (s : State) (n : Nat) : Nat := min 16 (fld (s.dreg (i2cReg n 4)) 0 5)

/-- `I2C_TRANSFER_END` (R432). How much of the transmit FIFO a transfer that failed has taken is free.
[log 24 DESIGN CHOICE, 136 DESIGN CHOICE, 138 DESIGN CHOICE] -/
def execI2cTransferEnd (n : Nat) (nack arbLost : Bool) (data : List Byte) (s : State) : Res :=
  let x := s.i2cn n
  if !x.busy then .next s
  else
    let (fv, s) := s.draw
    let read := bit (s.dreg (i2cReg n 4)) 29
    let len := s.i2cLen n
    let took := if nack || arbLost then Config.progress fv % (len + 1) else len
    let x := { x with
      busy := false
      tx := if read then x.tx else x.tx.drop took
      rx := if read then (x.rx ++ data.take len).take 16 else x.rx }
    .next ((s.setI2c n x).modDreg (i2cReg n 0xC) fun w =>
      w ||| wd (1 + 2 * nack.toNat + 4 * arbLost.toNat))

/-- `I2C_STATUS` as it reads (R432). -/
def State.i2cStatus (s : State) (n : Nat) : Word :=
  let x := s.i2cn n
  setBit (setFld (setFld (s.dreg (i2cReg n 0xC) &&& 7) 9 5 x.rx.length) 4 5 x.tx.length) 3 x.busy

/-- `UART_STATUS` bits 17 and 16 follow the FIFOs (R432). -/
def State.uartLevels (s : State) : State :=
  s.modDreg (uartReg 8) fun w => setBit (setBit w 16 (!s.uart.rx.isEmpty)) 17 (s.uart.tx.isEmpty && !s.uart.busy)

/-- `UART_RECEIVE` (R429, R432).
[log 24 DESIGN CHOICE] -/
def execUartReceive (b : Byte) (parityErr framing : Bool) (s : State) : Res :=
  let full := decide (16 ≤ s.uart.rx.length)
  let s := if full then s else { s with uart := { s.uart with rx := s.uart.rx ++ [b] } }
  let s := s.modDreg (uartReg 8) fun w =>
    w ||| wd (0x100000 * (parityErr && bit (s.dreg (uartReg 0)) 20).toNat + 0x80000 * framing.toNat + 0x40000 * full.toNat)
  .next s.uartLevels

/-- `UART_TX_EMPTY` (R432): the transmit FIFO and shifter have run empty. -/
def execUartTxEmpty (s : State) : Res := .next { s with uart := { s.uart with tx := [], busy := false } }.uartLevels

/-- `UART_STATUS` as it reads (R432). -/
def State.uartStatus (s : State) : Word :=
  setFld (setFld (s.dreg (uartReg 8) &&& 0x1F0000) 5 5 s.uart.tx.length) 0 5 s.uart.rx.length

/-! ### SPI flash -/

/-- What an unlisted byte of the flash reads as: erased.
[log 2 DESIGN CHOICE] -/
def flashDefault (_ : Nat) : Byte := 0xFF

/-- `n` bytes of the flash from `a` on. -/
def State.flashBytes (s : State) (a n : Nat) : List Byte := (List.range n).map fun k => sget flashDefault s.flash (a + k)

/-- Bytes written to the flash by `f` of the old byte and its place.
[log 139 DESIGN CHOICE] -/
def State.modFlash (s : State) (a n : Nat) (f : Nat → Byte → Byte) : State :=
  { s with flash := (List.range n).foldl (fun m k => sset flashDefault m (a + k) (f k (sget flashDefault m (a + k)))) s.flash }

/-- `SPI_START`: a write of `SPI_CMD`; START is ignored while BUSY (R432). -/
def execSpiStart (v : Word) (s : State) : Res :=
  let s := s.setDreg (spiReg 0) (v &&& 0xFFFFF)
  .next (if bit v 31 && !s.spiBusy then { s with spiBusy := true } else s)

/-- Bytes of the data phase (R432). -/
def State.spiLen (s : State) : Nat := min 256 (fld (s.dreg (spiReg 8)) 0 9)

/-- The effect of a flash command that ends (R427): reads fill `SPI_BUF` from the flash, or with `data` for a command
that reads no flash contents; page program clears bits and erases set them.
[log 139 DESIGN CHOICE] -/
def State.spiRun (s : State) (data : List Byte) : State :=
  let cmd := s.dreg (spiReg 0)
  let op := fld cmd 0 8
  let a := (s.dreg (spiReg 4)).toNat
  let n := s.spiLen
  let fill := fun (s : State) (bs : List Byte) =>
    (List.range (ceilDiv n 4)).foldl (fun s k =>
      let old := leBytes (s.dreg (spiReg (0x100 + 4 * k))).toNat 4
      s.setDreg (spiReg (0x100 + 4 * k)) (wd (leNat ((List.range 4).map fun j =>
        if 4 * k + j < n then bs.getD (4 * k + j) 0xFF else old.getD j 0)))) s
  if !bit cmd 9 && bit cmd 8 && (op == 0x13 || op == 0x6C) then fill s (s.flashBytes a n)
  else if bit cmd 9 && bit cmd 8 && op == 0x12 then
    let bs := s.regBytes (spiReg 0x100) n
    s.modFlash a n fun k old => old &&& bs.getD k 0xFF
  else if bit cmd 8 && op == 0x21 then s.modFlash (a / 0x1000 * 0x1000) 0x1000 fun _ _ => 0xFF
  else if bit cmd 8 && op == 0xDC then s.modFlash (a / 0x10000 * 0x10000) 0x10000 fun _ _ => 0xFF
  else if !bit cmd 9 then fill s data
  else s

/-- `SPI_COMMAND_END` (R432).
[log 139 DESIGN CHOICE] -/
def execSpiCommandEnd (data : List Byte) (s : State) : Res :=
  if s.spiBusy then .next ({ s.spiRun data with spiBusy := false }.modDreg (spiReg 0xC) fun w => setBit w 0 true)
  else .next s

end Sys2Proof.Machine
end

