-- ==== Sys2Proof/Machine/Frame.lean ====
section
/-!
DEFINITION. The raster of a stage in time: composing a line at its line-sample point, mixing a segment at its
boundary, the latch instant and the frame boundary (R31, R35, R111, R114, R120, R126, R158, R181).
-/

namespace Sys2Proof.Machine

/-- The stage shows its own picture: started, not stopped and not frozen (R102, R199). -/
def Stage.live (st : Stage) : Bool := st.phase = .running && !st.prism.frozen

/-! ### Composing a line -/

/-- FAB cycles per second in millions (R26, R28). -/
def State.fabMHz (s : State) : Nat := if s.slow then 600 else 1200

/-- The line budget B (R144). -/
def State.lineBudget (s : State) (t : Timing) : Nat := t.htotal * (s.fabMHz * 1000000) / t.pixclk

/-- W of R143: the FAB cycles of the latency tolerance, in native mode. -/
def State.latCycles (s : State) (t : Timing) : Nat := if t.compat then 0 else ceilDiv (t.latTol * s.fabMHz) 1000

/-- Register `o` in a line's snapshot (R127). -/
def LineCtx.reg (c : LineCtx) (o : Nat) : Word := sget stageDefault c.regs o

/-- What line `c` of layer `l` is composed from (R127). -/
def LineCtx.layerLine (c : LineCtx) (t : Timing) (fv l : Nat) : LayerLine :=
  { r := fun o => c.reg (layerBase l + o), hs := sget (fun _ => 0) c.hs l, y := c.y, w := t.hactive, fv := fv }

/-- One line of a layer composed at the positions of `keep`, counted from −64; the others stay transparent
and make no reads (R142).
[log 148 DESIGN CHOICE, 149 DESIGN CHOICE] -/
def LayerLine.composeSome (c : LayerLine) (m : Source) (keep : Nat → Bool) : Composed :=
  let (dx, dy, r1) := if c.mode < 2 then c.lscroll m else (0, 0, [])
  let (af, r2) := if c.mode < 2 then ([], []) else c.affine m
  let ps := (List.range (c.w + 128)).map fun (k : Nat) =>
    if keep k then c.position m (dx, dy) af ((k : Int) - 64) else ({}, [], false)
  let lost := (r1 ++ r2).any fun q => m.bad q.1 q.2
  { pix := ps.map fun p => if lost then {} else p.1
    reads := r1 ++ r2 ++ (ps.map fun p => p.2.1).flatten
    wrap := ps.any fun p => p.2.2 }

/-- The positions of a layer that cover-stop leaves composed (R142).
[log 71 DEDUCED] -/
def Stage.keepPos (st : Stage) (t : Timing) (stopped : List (Nat × Nat × Nat)) (l p : Nat) : Bool :=
  if !(stopped.any fun q => q.1 == l) then true
  else
    let h := st.halves
    let n := t.hactive / h
    (List.range (ceilDiv n (t.segPix st.twin))).any fun k =>
      (List.range h).any fun j =>
        let (a, b) := segRange (t.segPix st.twin) k n
        !stopped.contains (l, k, j) && decide (j * n + a ≤ p) && decide (p ≤ j * n + b + 127)

/-- Source `k` composes the line of snapshot `c` (R128, R158): bound, not shed, failed or suppressed, enabled or
standing by, and not kept by Conserve. -/
def Stage.composes (st : Stage) (c : LineCtx) (k : Nat) : Bool :=
  let w := c.reg (srcCtrl k)
  st.srcBound k && !st.prism.suppressed.getLsbD k && !st.prism.faulted.getLsbD k &&
    !(k < 16 && st.conserved.contains k) && (bit w 0 || bit w 1)

/-- Layer `l` composed into the line of snapshot `c`, with what its reads leave behind (R96, R126, R140). -/
def State.composeLayer (s : State) (i : Nat) (m : Source) (t : Timing) (fv : Nat) (stopped : List (Nat × Nat × Nat))
    (c : LineCtx) (l : Nat) : State × LineCtx :=
  let d := (c.layerLine t fv l).composeSome m ((s.stage i).keepPos t stopped l)
  let s := s.recordReads i 0 l m d.reads
  let s := s.modStage i fun st =>
    let st := if (m.met d.reads).isEmpty then st else st.setRegBit (layerBase l + 0x80) 1
    if d.wrap then st.setRegBit (layerBase l + 0x80) 3 else st
  (s, { c with layers := sset (fun _ => []) c.layers l d.pix })

/-- Sprite plane `p` drawn into the line of snapshot `c` (R154, R156, R158, R161). -/
def State.drawPlane (s : State) (i : Nat) (m : Source) (t : Timing) (fv : Nat) (c : LineCtx) (p : Nat) : State × LineCtx :=
  let b := spriteBase p
  let split := splitOf ((s.stage i).latched b)
  let x : SprLine := {
    r := fun o => c.reg (b + o)
    share := shareOf split (fld (c.reg (b + 0x10)) 0 13) (c.reg (b + 0x14)) (c.reg (b + 0x1C))
    y := c.y, w := t.hactive, budget := (s.lineBudget t : Int) - 16, lat := s.latCycles t
    attract := s.slow, fv := fv }
  let d := x.draw m
  let s := s.recordReads i 1 p m d.reads
  let s := s.modStage i fun st =>
    let st := if (m.met d.reads).isEmpty then st else st.setRegBit (b + 0x80) 2
    if d.far then st.setRegBit (b + 0x80) 3 else st
  (s, { c with sprites := sset (fun _ => []) c.sprites p d.pix
               sprRecs := c.sprRecs ++ [{ plane := p, cost := d.cost, drawn := d.drawn, dropped := d.dropped, ovf := d.ovf }] })

/-- The span entries of the line read (R174). -/
def State.readSpans (s : State) (i : Nat) (m : Source) (c : LineCtx) : State × LineCtx :=
  (upto 4 fun k => bit (c.reg (prismBase + 0x200 + 16 * k)) 0).foldl (fun (q : State × LineCtx) k =>
    let a := base40 (c.reg (prismBase + 0x240 + 8 * k)) (c.reg (prismBase + 0x244 + 8 * k)) + 4 * c.y
    let v := m.le a 4
    let e := if m.bad a 4 then (1, 0) else (v % 8192, v / 65536 % 8192)
    (q.1.recordReads i 2 0 m [(a, 4)], { q.2 with spans := sset (fun _ => (0, 0)) q.2.spans k e })) (s, c)

/-- The conserved plane's line read (R189, R195). -/
def State.readConserved (s : State) (i : Nat) (m : Source) (t : Timing) (c : LineCtx) : State × LineCtx :=
  if (s.stage i).prism.consState = 2 then
    let (fv, s) := s.draw
    let (es, rd, ue) := (s.stage i).readPlane m fv c.y t.hactive
    let s := s.recordReads i 2 0 m rd
    let s := if ue then s.modStage i fun st => (st.setRegBit (prismBase + 0x60C) 3).fireWatch else s
    (s, { c with plane := es })
  else (s, c)

/-- The layers and planes `ks` composed and drawn into the line of snapshot `c`, with cover-stop (R186, R187). -/
def State.composeSources (s : State) (i : Nat) (m : Source) (t : Timing) (ks : List Nat) (c : LineCtx) : State × LineCtx :=
  let (fv, s) := s.draw
  let s := { s with nonce := s.nonce + 23 }
  let st := s.stage i
  let ls := ks.filter (· < 16)
  let whole : Sparse (List Pix) := ls.map fun l => (l, ((c.layerLine t (fv + l) l).compose m).pix)
  let occl := st.occluders t ls
  let stopped := st.stoppedOf t c.reg whole occl (Config.coverKnown fv)
  let q := ls.foldl (fun (q : State × LineCtx) l => q.1.composeLayer i m t (fv + l) stopped q.2 l) (s, c)
  let q := (ks.filter (16 ≤ ·)).foldl (fun (q : State × LineCtx) k => q.1.drawPlane i m t (fv + k) q.2 (k - 16)) q
  (q.1, { q.2 with occl := occl, stopped := stopped })

/-- The line `y` composed at its line-sample point (R31, R126, R158). -/
def State.composeLine (s : State) (i y : Nat) (t : Timing) : State :=
  let st := s.stage i
  let (m, s) := s.source i
  let c : LineCtx := { y := y, regs := st.regs, hs := st.prism.hStart }
  let (s, c) := s.readSpans i m c
  let (s, c) := s.readConserved i m t c
  let (s, c) := s.composeSources i m t (upto 24 fun k => (s.stage i).composes c k) c
  s.modStage i fun st => { st with prism := { st.prism with comp := some c } }

/-- The line-sample point of line 0 (R120, R157, R191).
[log 89 DEDUCED] -/
def Stage.frameSample (st : Stage) (t : Timing) : Stage :=
  let st := { st with prism := { st.prism with suppressed := 0 } }
  let st := st.consSwitch t
  (List.range 8).foldl (fun st p => st.setReg (spriteBase p + 0x1C) (st.latched (spriteBase p + 0x1C))) st

/-- The beam reaches pixel 0 of its next line (R31, R104, R109, R223, R422). -/
def State.lineStart (s : State) (i : Nat) : State :=
  let b := (s.stage i).beam
  let now := s.root
  let s := s.modStage i fun st =>
    let st := { st with beam := { b with line := b.nextLine, nextLine := b.nextLine + 1, lineAt := now } }.lockLine
    if st.reg 0x408 = wd b.nextLine then st.setRegBit 0x40C 1 else st
  s.linePolls i b.nextLine

/-- `LINE_SAMPLE_POINT` (R31): pixel 0 of the next line of the raster; the line after it is composed. The last line
of the frame is the line-sample point of line 0, composed with a timing that waits for the frame boundary (R115). `ue` lists
words found with more than two symbol errors (R93).
[log 70 DESIGN CHOICE] -/
def execLineSamplePoint (s : Nat) (ue : List Nat) (st : State) : Res :=
  let b := (st.stage s).beam
  let n := b.inForce.lines b.field
  if !b.run || b.hold || decide (n ≤ b.nextLine) then .next st
  else
    let last := decide (b.nextLine + 1 = n)
    let y := if last then 0 else b.nextLine + 1
    let t := if last then b.nextTiming.getD b.inForce else b.inForce
    let st := ue.foldl (fun st a => st.upset a 3) (st.lineStart s)
    if !(st.stage s).live then .next st
    else
      let st := if last then st.modStage s (·.frameSample t) else st
      .next (if y < t.vactive then st.composeLine s y t else st)

/-! ### Mixing a segment -/

/-- Blanks and a freeze asked for take effect (R199). -/
def Stage.applyRind (st : Stage) : Stage :=
  let p := st.prism
  let st := { st with prism := { p with blanked := p.blanked ||| p.blankNext, blankNext := 0, frozen := p.frozen || p.freezeNext, freezeNext := false } }
  if p.freezeNext && !p.frozen then ((st.modChord fun c => { c.stop with reloading := false, reflex := [], edges := [] }).stopSound) else st

/-- Complete signatures judged (R198); whether an action 3 asks for FAULT_N.
[log 117 DESIGN CHOICE] -/
def Stage.judgeAll (st : Stage) : Stage × Bool :=
  if st.prism.frozen then (st, false)
  else (List.range 8).foldl (fun (q : Stage × Bool) r => let (x, f) := q.1.judgeRind r; (x, q.2 || f)) (st, false)

/-- FAULT_N asked for by a guarded region of stage `i` (R199, R394). -/
def State.rindFault (s : State) (i : Nat) : State :=
  { s with keeper := { s.keeper with faultPin := setBit s.keeper.faultPin (8 + i) true } }

/-- The boundary of segment 0: the line composed becomes the line mixed (R126), and what governs it is captured
(R127, R188, R198). -/
def Stage.mixStart (st : Stage) (t : Timing) : Stage :=
  let p := st.prism
  let old := match p.mix with | some c => c.stopped.length | none => 0
  let st := if p.mix.isSome then
      st.modReg (prismBase + 8) fun w => setFld (setFld w 0 16 (min old 0xFFFF)) 16 16 (max (fld w 16 16) (min old 0xFFFF))
    else st
  let mix := match p.comp with
    | some c => if c.y = p.mixLine then some c else none
    | none => none
  let p : Prism := { p with
    mix := mix
    comp := if mix.isSome then none else p.comp
    hStart := (List.range 16).foldl (fun h l => sset (fun _ => 0) h l (fld (st.reg (layerBase l + 4)) 0 16)) []
    rind := p.rind.map fun e => (e.1, { e.2 with cur := [], curR := [] }) }
  let p : Prism := if p.mixLine = 0 then p.rindFrame else p
  let st := { st with prism := p }
  if p.mixLine = t.vactive && st.live then st.sweepRind else st

/-- What the pixels of the segment are mixed from (R172, R181). -/
def Stage.mixOf (st : Stage) (t : Timing) (c : LineCtx) : Mix :=
  let r0 := sget stageDefault st.prism.segSnap
  let shows := fun k => st.srcLive r0 k
  { r1 := c.reg, r0 := r0, c := c
    layers := (upto 16 fun l => shows l && !st.conserved.contains l && c.layers.any fun e => e.1 == l)
    planes := (upto 8 fun p => shows (16 + p) && c.sprites.any fun e => e.1 == p)
    conserved := st.conserved.filter fun l => st.srcBound l && !st.prism.suppressed.getLsbD l
    w := t.hactive, bpc := t.bpc }

/-- Late shifts of the segment that read outside the margin (R129). -/
def Mix.clipped (m : Mix) (xs : List Nat) : List Nat :=
  m.layers.filter fun l => fld (m.r1 (layerBase l)) 2 2 < 2 && xs.any fun x => (m.readPos l x).isNone

/-- One segment of an active line mixed (R171, R189, R198, R199). -/
def State.mixSegment (s : State) (i : Nat) (t : Timing) (c : LineCtx) : State :=
  let st := s.stage i
  let xs := st.segPixels t st.prism.mixSeg
  let m := st.mixOf t c
  let codes := xs.map m.pixel
  let black := blackCode t
  let half := if st.twin then t.hactive / 2 else t.hactive
  let s := s.modStage i fun st =>
    let st := (m.clipped xs).foldl (fun st l => st.setRegBit (layerBase l + 0x80) 2) st
    let st := (List.range 8).foldl (fun st r => st.feedRind c.y xs codes half r) st
    let hide := fun x => (List.range 8).any fun r => st.prism.blanked.getLsbD r && st.inRind r x c.y
    { st with prism := { st.prism with out := (xs.zip codes).map fun e => if hide e.1 then black else e.2 } }
  if (s.stage i).prism.consState = 1 then
    let fm := { m with layers := m.layers.filter (s.stage i).marked.contains, planes := [], conserved := [] }
    s.writePlane i c.y t.hactive (xs.map fun x => (x, planeEntry ((fm.cands x).foldl frontTwo (none, none)).1))
  else s

/-- A segment without a picture: black (R102). -/
def Stage.mixBlack (st : Stage) (t : Timing) : Stage :=
  { st with prism := { st.prism with out := (st.segPixels t st.prism.mixSeg).map fun _ => blackCode t } }

/-- The mix moves to its next segment (R34, R35). -/
def Stage.mixNext (st : Stage) (t : Timing) : Stage :=
  let p := st.prism
  let n := t.lines st.beam.field
  let p := if p.mixSeg + 1 < st.segCount t then { p with mixSeg := p.mixSeg + 1 }
    else { p with mixSeg := 0, mixLine := if p.mixLine + 1 < n then p.mixLine + 1 else 0 }
  { st with prism := p }

/-- The mix is ahead of a frame boundary that will hold the raster for a relock (R115, R201). -/
def Stage.mixHeld (st : Stage) : Bool :=
  let b := st.beam
  st.prism.mixLine = 0 && b.nextLine == b.inForce.lines b.field &&
    (match b.nextTiming with | some t => decide (t.pixclk ≠ b.inForce.pixclk) | none => false)

/-- `SEGMENT_BOUNDARY` (R35, R120, R181): `late` names the sources whose pixels are not all in their buffers.
[log 70 DESIGN CHOICE] -/
def execSegmentBoundary (s : Nat) (late : BitVec 24) (st : State) : Res :=
  let x := st.stage s
  if !x.beam.run || x.beam.hold || x.mixHeld || decide (x.mixTiming.segPix x.twin = 0) then .next st
  else
    let t := x.mixTiming
    let (x, fault) := x.applyRind.judgeAll
    let x := if x.prism.mixSeg = 0 then x.mixStart t else x
    let x := { x with prism := { x.prism with segSnap := x.regs } }
    let active := decide (x.prism.mixLine < t.vactive) && !(x.segPixels t x.prism.mixSeg).isEmpty
    let r0 := sget stageDefault x.prism.segSnap
    let x := match x.prism.mix with
      | some c => if active && x.live then (x.resume late).underruns r0 c x.prism.mixSeg late else x
      | none => x
    let st := st.setStage s x
    let st := if fault then st.rindFault s else st
    let st := if !active then st.modStage s fun x => { x with prism := { x.prism with out := [] } }
      else if !x.live || x.prism.dead then st.modStage s (·.mixBlack t)
      else st.mixSegment s t (x.prism.mix.getD { y := x.prism.mixLine, regs := x.regs })
    .next (st.modStage s (·.mixNext t))

/-! ### The latch instant -/

/-- The class-2 state of the stage comes into force (R111, R146, R157, R168, R185, R197, R199).
[log 89 DEDUCED, 92 DEDUCED] -/
def Stage.commitClass2 (st : Stage) : Stage :=
  let st := { st with latch := st.regs, beam := { st.beam with waiting := st.beam.pending.orElse fun _ => st.beam.waiting, pending := none } }
  let ranks := (List.range 8).map fun p => (spriteBase p + 0x1C, st.rankWord (fun p => st.latched (spriteBase p)) p)
  let st := { st with latch := ranks.foldl (fun m (e : Nat × Word) => sset stageDefault m e.1 e.2) st.latch }
  let armed := st.prism.armed
  let met := st.chord.arrived ++ st.chord.others.map (·.1)
  let lost := upto 24 fun k => met.contains (st.flipTarget k)
  let targets := upto 24 (armed.getLsbD ·) |>.map fun k => (k, st.flipTarget k)
  let st := st.judgeFlips
  let flips := (targets.filter fun e => !st.prism.armed.getLsbD e.1).map (·.2)
  let st := st.modChord fun c => { c with flips := c.flips ++ flips }
  let st := (lost.filter fun k => armed.getLsbD k && !st.prism.armed.getLsbD k).foldl (fun st k =>
    let st := { st with hi := st.hi.filter fun (e : Nat × Word) => e.1 != st.flipTarget k }
    st.setRegBit (if k < 16 then layerBase k + 0x80 else spriteBase (k - 16) + 0x80) 4) st
  let st := (List.range 8).foldl (fun st r =>
    st.setReg (prismBase + 0x710 + 32 * r) (st.reg (prismBase + 0x70C + 32 * r))) st
  { st with
    beam := { st.beam with latchNow := true }
    prism := { st.prism with blanked := st.prism.blanked &&& ~~~st.prism.matched, matched := 0 } }

/-- What came in the FAB cycle of a latch instant commits at it (R112, R8): done as the cycle ends. -/
def Stage.commitLate (st : Stage) : Stage :=
  if st.beam.latchNow then
    let st := st.unmiss.commitClass2
    { st with beam := { st.beam with latchNow := false } }
  else st

/-- A latch instant of the raster is counted (R109). -/
def Stage.countLatch (st : Stage) : Stage :=
  { st with beam := { st.beam with latched := true, frame := st.beam.frame + 1 } }.setRegBit 0x40C 0

/-- The latch instant counted, if it has not been counted. -/
def Stage.countOnce (st : Stage) : Stage := if st.beam.latched then st else st.countLatch

/-- The regions whose lines have all been mixed when the stage begins are not regions of its first frame (R198).
[log 90 DEDUCED] -/
def Stage.skipRind (st : Stage) : Stage :=
  let gone := upto 8 fun r => decide (fld (st.rindReg r 8) 16 12 < st.prism.mixLine)
  { st with prism := gone.foldl (fun p r => p.setRun r { p.run r with judged := true, done := false }) st.prism }

/-- The stage begins, or begins again, to show its picture (R71 step 7, R400, R403).
[log 72 DEDUCED] -/
def Stage.begin (st : Stage) : Stage :=
  let st := { st with phase := .running, restart := false, stopReq := false }
  if st.prism.frozen then st.countOnce
  else ((st.commitClass2.skipRind.countOnce).chordLatch (st.beam.inForce.latchAt st.beam.field) st.beam.field).startSound

/-- What a stop ends in the stage's units, its bindings kept (R74 step 3, R363, R399).
[log 72 DEDUCED] -/
def Stage.halt (st : Stage) : Stage :=
  let st := { st with phase := .stopped, stopReq := false, restart := false }
  let st := st.modChord fun c => { c.stop with reloading := false, reflex := [], flight := [], edges := [] }
  let p := st.prism
  let st := { st with prism := { p with
    comp := none, mix := none, consState := 0, consFired := false, rind := [], blankNext := 0, freezeNext := false } }
  st.stopSound

/-- `LATCH_INSTANT` (R111): pixel 0 of the latch line. While the stage is frozen, stopped or not yet started nothing
commits (R199). A stop of mode entry (R399) and a restart (R400, R403) take place here.
[log 70 DESIGN CHOICE, 72 DEDUCED] -/
def State.latch (st : State) (s : Nat) : State :=
  let x := st.stage s
  let b := x.beam
  if !b.run || b.hold || b.latched || decide (b.line ≠ b.inForce.latchAt b.field) then st
  else if x.restart then st.modStage s (·.begin)
  else if x.stopReq then st.modStage s fun x => x.countLatch.halt
  else if x.live then st.modStage s fun x => (x.commitClass2.countLatch).chordLatch x.beam.line x.beam.field
  else st.modStage s (·.countLatch)

/-! ### The frame boundary -/

/-- `FRAME_BOUNDARY` (R106, R114, R115): the end of the last line of the frame. While a hold lasts the old rate of the sound
stays (R228). -/
def execFrameBoundary (s : Nat) (st : State) : Res :=
  let b := (st.stage s).beam
  if !b.run || b.hold || decide (b.nextLine ≠ b.inForce.lines b.field) then .next st
  else
    let attract := st.slow
    let now := st.root
    .next (st.modStage s fun x =>
      match b.nextTiming with
      | some t =>
        let x := (x.modBeam fun b => { (b.applyTiming t x.twin).showAt with nextLine := 0, latched := false }).timingEvent
        (if x.beam.hold then x else x.newRate t false now).fixLead attract
      | none => x.modBeam fun b => { b.showAt with field := b.inForce.interlace && !b.field, nextLine := 0, latched := false })

/-- The synthesizer relocks and the held raster resumes at line 0 (R115, R228). -/
def execHoldEnd (s : Nat) (st : State) : Res :=
  let b := (st.stage s).beam
  if b.run && b.hold then
    let now := st.root
    .next (st.modStage s fun x =>
      let x := x.modBeam fun b => { b with hold := false, locked := true, line := 0, nextLine := 0, lineAt := now, latched := false }
      (x.startMix.newRate x.beam.inForce true now).timingEvent)
  else .next st

end Sys2Proof.Machine
end

