-- ==== Sys2Proof/Machine/ChordRun.lean ====
section
/-!
DEFINITION. The arrival of Chord writes and fence signals (R207, R212), the delivery of reflex writes (R217, R218), and one
idle cycle of the block (R26, R372).
-/

namespace Sys2Proof.Machine

/-- One thing of a Chord on its way arrives (R207, R212, R218). -/
def State.arrive (s : State) (i : Nat) (w : ChordWrite) : State :=
  if w.isFence then s.modStage i fun st => st.signalFence 1 w.off (w.mask != 0) w.val
  else s.chordWrite (.chord i) i w.off w.val w.mask

/-- A FAB cycle ends at stage `i`, what came with its latch instant commits (R112), and what is due arrives, in the order it
was sent. -/
def State.deliver (s : State) (i : Nat) : State :=
  let x := s.stage i
  let c := x.chord
  let fl := c.flight
  let due := fl.filter fun w => decide (w.due ≤ s.fab)
  if due.isEmpty && c.arrived.isEmpty && c.others.isEmpty && c.flips.isEmpty && x.cyc == {} && !x.beam.latchNow then s
  else
    let s := s.modStage i fun st => { st.commitLate with cyc := {} }
    let s := s.modChord i fun c => { c with arrived := [], others := [], flips := [], flight := fl.filter fun w => decide (s.fab < w.due) }
    due.foldl (fun s w => s.arrive i w) s

/-- `REFLEX_DELIVERY`: the first group of fired entries that is due delivers all its writes (R217). -/
def execReflexDelivery (s : Nat) (st : State) : Res :=
  match (st.stage s).chord.reflex with
  | g :: r =>
    if g.due ≤ st.fab then
      .next ((g.entries.flatMap (·.2)).foldl (fun st w => st.arriveReflex s w) (st.modChord s fun c => { c with reflex := r }))
    else .next st
  | [] => .next st

/-- A FAB cycle ends for the Vine and the Ledger: what was to wait for the doorbells and the submits of the cycle has waited
(R331, R345). -/
def State.cycleEnd (s : State) : State := { s with store := { s.store with pfwNow := false } }.dropSynced

/-- The root ticks of one FAB cycle pass (R26, R372, R422): the Tally counts, and a BCAST may end. -/
def State.pass (s : State) : State :=
  let was := s.root
  let now := was + if s.slow then 4 else 2
  let s := { s with root := now, tally := { s.tally with count := s.tally.count + BitVec.ofNat 64 (now / 100 - was / 100) } }
  (s.spkTime was 0).spkTime was 1

/-- One FAB cycle in which no command comes: time passes, the Tally counts, and what the Chords have sent arrives (R26,
R207, R372, R395). In DOZE, SLEEP and M0 the same time passes without FAB; while the LPRC counts in place of the Tally, or
the crystal stands, nothing counts that State holds.
[log 3 DESIGN CHOICE, 22 DESIGN CHOICE] -/
def State.idle (s : State) : State :=
  if s.tally.lprc || !s.power.xtal then s
  else
    let s := s.pass
    if s.fabRuns then (List.range 4).foldl State.deliver { s.cycleEnd with fab := s.fab + 1 } else s

end Sys2Proof.Machine
end

