-- ==== Sys2Proof/Machine/Mailboxes.lean ====
section
/-!
DEFINITION. The mailboxes (R314-R317): claims, messages, acknowledgements and releases.
-/

namespace Sys2Proof.Machine

/-- A register of mailbox `m` (R317). -/
def mbAddr (m o : Nat) : Nat := 0x13010000 + 0x100 * m + o

/-- Target `t` may reach mailbox `m`: a stage Pip those of its stage's Pips and MB20-MB23 (R315). -/
def State.mbReach (s : State) (t m : Nat) : Bool :=
  if 20 ≤ t || 20 ≤ m then true
  else match s.pipOf t, s.pipOf m with
    | some (a, _), some (b, _) => a == b
    | _, _ => false

/-- The mailbox returned to IDLE (R314, R315). -/
def Mailbox.toIdle (b : Mailbox) : Mailbox := { b with state := .idle, hostRefused := false }

/-- The errors of an access that is not allowed (R315): `ok` = the state allows it.
[log 130 DEDUCED] -/
def Mailbox.refuse (b : Mailbox) (m t : Nat) (ok : Bool) : Mailbox :=
  let e := if t ≠ b.sender && t ≠ m then bset b.err 0 true else b.err
  { b with err := if ok then e else bset e 1 true }

/-- A write by target `t` to mailbox `m` through `f`; a stage Pip that may not reach the mailbox is
blocked and reported (R308, R315). -/
def State.mbWrite (s : State) (m t o : Nat) (f : Mailbox → Mailbox) : State :=
  if s.mbReach t m then s.setMb m (f (s.mb m)) else s.accViol (.pip t) (mbAddr m o)

/-- The claims of one PERI cycle judged together (R315): of an IDLE mailbox the lowest target number
is granted.
[log 130 DEDUCED] -/
def Mailbox.judge (b : Mailbox) (m : Nat) (ts : List Nat) : Mailbox :=
  let ok := ts.filter fun t => !(decide (t < 20) && (m == 20 || m == 21) && b.hostRefused)
  let win := if b.state = .idle then ok.min? else none
  let b := if ts.any (fun t => decide (22 ≤ t) && win != some t) then { b with hostRefused := true } else b
  match win with
  | some t => { b with state := .claimed, sender := t }
  | none => b

/-- Reads of `MB_CLAIM` (R314, R315); a stage Pip's read of a mailbox it may not reach claims nothing
(R308). -/
def execMbClaim (m : Nat) (claimants : List Nat) (s : State) : Res :=
  .next (s.setMb m ((s.mb m).judge m (claimants.filter fun t => s.mbReach t m)))

/-- A claim with no doorbell lapses 10 µs after the grant (R314). -/
def execMbClaimLapse (m : Nat) (s : State) : Res :=
  let b := s.mb m
  if b.state = .claimed then .next (s.setMb m { b.toIdle with err := bset b.err 3 true }) else .next s

/-- A doorbell (R314, R317): COUNT 0 acts as 1, 9-15 act as 8.
[log 130 DEDUCED] -/
def Mailbox.ring (b : Mailbox) (m t : Nat) (v tally : Word) : Mailbox :=
  if b.state = .claimed && t == b.sender then
    { b with
      state := .posted, ackPri := fld v 8 3
      count := if fld v 0 4 = 0 then 1 else min (fld v 0 4) 8
      posted := tally }
  else b.refuse m t (b.state = .claimed)

/-- A write of `MB_DOORBELL` (R314). -/
def execMbDoorbell (m t : Nat) (v : Word) (s : State) : Res :=
  .next (s.mbWrite m t 4 fun b => b.ring m t v s.tallyLo)

/-- An acknowledgement (R314, R317): RCOUNT 9-15 act as 8. -/
def Mailbox.ack (b : Mailbox) (m t : Nat) (v : Word) : Mailbox :=
  if b.state = .posted && t == m then
    { b with state := .done, result := setFld (v &&& 0xFFFF0000) 0 4 (min (fld v 0 4) 8) }
  else b.refuse m t (b.state = .posted)

/-- A write of `MB_ACK` (R314). -/
def execMbAck (m t : Nat) (v : Word) (s : State) : Res := .next (s.mbWrite m t 8 fun b => b.ack m t v)

/-- RELEASE by SENDER in CLAIMED or DONE (R314, R315). -/
def Mailbox.release (b : Mailbox) (m t : Nat) : Mailbox :=
  let ok := b.state = .claimed || b.state = .done
  if ok && t == b.sender then b.toIdle else b.refuse m t ok

/-- A write of `MB_RELEASE.RELEASE` (R314). -/
def execMbRelease (m t : Nat) (s : State) : Res := .next (s.mbWrite m t 0xC fun b => b.release m t)

/-- FORCE: to IDLE from any state, with ABANDONED (R316).
[log 155 DEDUCED] -/
def Mailbox.force (b : Mailbox) : Mailbox := { b.toIdle with err := bset b.err 2 true }

/-- The target number of an initiator; debug acts with the active Warden's rights (R314, R428). -/
def State.targetOf (s : State) : Initiator → Nat
  | .pip k => k
  | .warden w => 20 + w
  | .host p => 22 + p
  | .debug => 20 + s.activeWarden
  | _ => 31

/-- A command of Warden `w` is under way and not yet acknowledged (R318).
[log 29 DESIGN CHOICE, 155 DEDUCED] -/
def State.serving (s : State) (w : Nat) : Bool :=
  s.power.asker == some w || s.load.asker == some w || (s.load.update.map Prod.fst) == some w

/-- The command that Warden `w` works on, if it does, will not be acknowledged (R316, R318). -/
def State.forgetAsker (s : State) (w : Nat) : State :=
  if s.serving w then { s with load := { s.load with muted := vset s.load.muted w true } } else s

/-- A write of FORCE at mailbox `m`: the Warden's returns it to IDLE, another's is ignored and noted (R315, R316); a command
that came through it stays unanswered. -/
def State.mbForce (s : State) (ini : Initiator) (m t : Nat) : State :=
  if s.wardenMay ini then
    let s := s.setMb m (s.mb m).force
    if m = 20 ∨ m = 21 then s.forgetAsker (m - 20) else s
  else s.mbWrite m t 0xC fun b => b.refuse m t true

/-- A write of `MB_RELEASE.FORCE`, for the Warden only (R316); an initiator that is no target is blocked and reported
(R12). -/
def execMbReleaseForce (m : Nat) (i : Initiator) (s : State) : Res :=
  if 24 ≤ s.targetOf i then .next (s.accViol i (mbAddr m 0xC)) else .next (s.mbForce i m (s.targetOf i))

/-- A write of a message word: SENDER in CLAIMED (R315). -/
def Mailbox.setMsg (b : Mailbox) (m t k : Nat) (v : Word) : Mailbox :=
  if b.state = .claimed && t == b.sender then { b with msg := vset b.msg k v } else b.refuse m t (b.state = .claimed)

/-- A write of a reply word: the receiver in POSTED (R315). -/
def Mailbox.setReply (b : Mailbox) (m t k : Nat) (v : Word) : Mailbox :=
  if b.state = .posted && t == m then { b with reply := vset b.reply k v } else b.refuse m t (b.state = .posted)

/-- Mailbox state moved by a rebind of P`i` to P`j` (R317): every SENDER that names P`i` follows. -/
def State.moveMailbox (s : State) (i j : Nat) : State :=
  let a := s.mb i
  let s := (s.setMb j { a with err := (s.mb j).err }).setMb i a.toIdle
  { s with mbox := s.mbox.map fun b => if b.sender = i then { b with sender := j } else b }

/-- The two mailboxes exchanged (R317), SENDER fields following. -/
def State.swapMailbox (s : State) (i j : Nat) : State :=
  let a := s.mb i
  let b := s.mb j
  let s := (s.setMb j { a with err := b.err }).setMb i { b with err := a.err }
  { s with mbox := s.mbox.map fun b =>
      if b.sender = i then { b with sender := j } else if b.sender = j then { b with sender := i } else b }

/-- The mailboxes whose SENDER is one of the Pips `ps` return to IDLE (R317). -/
def State.idleSenders (s : State) (ps : List Nat) : State :=
  { s with mbox := s.mbox.map fun b => if b.state ≠ .idle && ps.contains b.sender then b.toIdle else b }

/-- RX_STATE of mailbox `m` (R317). -/
def State.rxState (s : State) (m : Nat) : Nat :=
  if m < 20 then
    (if s.targetPower m = 3 && !((s.pipOf m).isSome && (s.core m).parked && s.mode = .sleep) then 5 else s.targetPower m)
  else if m < 22 then (if s.targetPower m = 5 then 6 else s.targetPower m)
  else if s.straps.getLsbD (m - 21) then 5 else s.targetPower m

end Sys2Proof.Machine
end

