-- ==== Sys2Proof/Machine/Timers.lean ====
section
/-!
DEFINITION. The timer channels and the Tally (R364-R375).
-/

namespace Sys2Proof.Machine

/-! ### Channels -/

/-- The stage that holds TC`k`, if any; otherwise the channel is the Warden's (R364). -/
def State.timerOwner (s : State) (k : Nat) : Option Nat :=
  (List.range 4).find? fun i => (s.stage i).timers.contains k

/-- The event number of `TC_LINK.EV`: 5-7 act as 0 (R371). -/
def linkEv (w : Word) : Nat := if fld w 12 3 < 5 then fld w 12 3 else 0

/-- Events of channel `k` reach the channels linked to it, to act one PERI cycle later (R371): number 0 is
END, 1-4 are the matches. -/
def State.emit (s : State) (k : Nat) (evs : List Nat) : State :=
  { s with timers := s.timers.mapIdx fun j t =>
      let w := s.dreg (timerReg j 4)
      if fld w 0 5 == k && decide (2 ≤ fld w 8 2) && evs.contains (linkEv w) then { t with linked := (k, s.peri) :: t.linked } else t }

/-- What has happened at the channel in PERI cycle `now`. -/
def Timer.cycle (t : Timer) (now : Nat) : TimerCycle := if t.cyc.peri = now then t.cyc else { peri := now }

/-- The record of the present PERI cycle of channel `k` changed by `f`. -/
def State.modCyc (s : State) (k : Nat) (f : TimerCycle → TimerCycle) : State :=
  s.setTimer k { s.timer k with cyc := f ((s.timer k).cycle s.peri) }

/-- The register of compare `i` of channel `k`. -/
def cmpReg (k i : Nat) : Nat := timerReg k (0x20 + 4 * i)

/-- One compare of channel `k` judged against COUNT (R368, R369): the state, and whether it matched. -/
def State.judgeCmp (s : State) (k i : Nat) : State × Bool :=
  let t := s.timer k
  if t.elig.getLsbD i && s.dreg (cmpReg k i) == t.count then
    let s := s.modDreg (timerReg k 0x48) (setBit · i true)
    if bit (s.dreg (timerReg k 0)) (8 + i) then
      let v := s.dreg (cmpReg k i) + s.dreg (timerReg k (0x30 + 4 * i))
      let s := s.setDreg (cmpReg k i) v
      (s.setTimer k { t with elig := bset t.elig i (t.count.ult v) }, true)
    else (s.setTimer k { t with elig := bset t.elig i false }, true)
  else (s, false)

/-- Every compare of channel `k` judged; the events of those that matched (R368). -/
def State.judgeCmps (s : State) (k : Nat) : State × List Nat :=
  (List.range 4).foldl (fun (s, evs) i =>
    let (s, hit) := s.judgeCmp k i
    (s, if hit then evs ++ [i + 1] else evs)) (s, [])

/-- Compare `i` of channel `k` holds `v`: it is eligible when above COUNT, otherwise it waits (R368). -/
def State.putCmp (s : State) (k i : Nat) (v : Word) : State :=
  let t := s.timer k
  (s.setDreg (cmpReg k i) v).setTimer k { t with elig := bset t.elig i (t.count.ult v) }

/-- A compare as it stood before it was written: `e` gives which, its value, and whether it was eligible (R368). -/
def State.oldCmp (s : State) (k : Nat) (e : Nat × Word × Bool) : State :=
  (s.setDreg (cmpReg k e.1) e.2.1).setTimer k { s.timer k with elig := bset (s.timer k).elig e.1 e.2.2 }

/-- The tick of this PERI cycle is not counted, and no END or match comes from it: a command of the same cycle wins over it
(R367). A compare written in the cycle keeps what was written.
[log 140 DESIGN CHOICE] -/
def State.untick (s : State) (k : Nat) : State :=
  let c := (s.timer k).cycle s.peri
  match c.undo with
  | none => s
  | some u =>
    let s := (List.range 4).foldl (fun s i =>
      if c.writes.any (·.1 == i) then s else s.setDreg (cmpReg k i) (u.cmps.getD i 0)) s
    let s := s.modDreg (timerReg k 0x48) fun w => w &&& ~~~u.status
    let t := s.timer k
    let elig := (List.range 4).foldl (fun e i =>
      bset e i (if c.writes.any (·.1 == i) then u.count.ult (s.dreg (cmpReg k i)) else u.elig.getLsbD i)) t.elig
    let s := s.setTimer k { t with
      run := u.run, count := u.count, elig := elig, cap := if c.edge then u.count else t.cap, cyc := { c with undo := none } }
    { s with timers := s.timers.map fun t => { t with linked := t.linked.filter fun e => e != (k, s.peri) } }

/-- ARM: COUNT takes PHASE, the run starts, and every compare is eligible and judged (R366, R368); with a re-arm of the same
PERI cycle it is one ARM, and it wins over a tick (R367, R371). A channel that shows FAULT stands still (R364). -/
def State.armTimer (s : State) (k : Nat) : State :=
  if (s.timer k).fault || ((s.timer k).cycle s.peri).arm then s
  else
    let s := (s.untick k).modCyc k fun c => { c with cmd := true, arm := true }
    let s := s.setTimer k { s.timer k with run := true, count := s.dreg (timerReg k 0xC), elig := 0xF }
    let (s, evs) := s.judgeCmps k
    s.emit k evs

/-- STOP: the run ends and COUNT stays (R366); it wins over a tick of its PERI cycle (R367). -/
def State.stopTimer (s : State) (k : Nat) : State :=
  let s := (s.untick k).modCyc k fun c => { c with cmd := true, arm := false }
  s.setTimer k { s.timer k with run := false }

/-- The gate of a channel lets ticks count (R366, R371). -/
def State.gateOpen (s : State) (k : Nat) : Bool :=
  let w := s.dreg (timerReg k 4)
  fld w 8 2 != 1 || (s.timer (fld w 0 5)).run

/-- COUNT of a running channel taken on by one tick (R366, R368): the state and the events. -/
def State.countTimer (s : State) (k : Nat) : State × List Nat :=
  let t := s.timer k
  let top := s.dreg (timerReg k 0x10)
  if top.ule t.count then
    ((s.setTimer k { t with run := false }).modDreg (timerReg k 0x48) (fun w => setBit (setBit w 4 true) 5 true), [0])
  else
    let s := s.setTimer k { t with count := t.count + 1 }
    let (s, evs) := s.judgeCmps k
    if t.count + 1 = top then
      ((s.setTimer k { s.timer k with run := false }).modDreg (timerReg k 0x48) (setBit · 4 true), 0 :: evs)
    else (s, evs)

/-- One tick of channel `k` in a run (R366, R368): a compare written in the same PERI cycle matches by its old value, and what was
written stands and is judged against COUNT after the tick. A command of the same cycle wins (R367), and an edge of the same
cycle captures COUNT after the tick (R370).
[log 140 DESIGN CHOICE] -/
def State.tickTimer (s : State) (k : Nat) : State :=
  let c := (s.timer k).cycle s.peri
  if !(s.timer k).run || (s.timer k).fault || !s.gateOpen k || c.cmd then s
  else
    let news := c.writes.map fun e => (e.1, s.dreg (cmpReg k e.1))
    let s := c.writes.foldl (fun s e => s.oldCmp k e) s
    let t := s.timer k
    let u : TickUndo :=
      { run := t.run, count := t.count, elig := t.elig, cmps := (List.range 4).map fun i => s.dreg (cmpReg k i) }
    let st := s.dreg (timerReg k 0x48)
    let (s, evs) := s.countTimer k
    let s := s.modCyc k fun c => { c with undo := some { u with status := s.dreg (timerReg k 0x48) &&& ~~~st } }
    let s := news.foldl (fun s e => s.putCmp k e.1 e.2) s
    let s := if c.edge then s.setTimer k { s.timer k with cap := (s.timer k).count } else s
    s.emit k evs

/-- A write blocked unless the initiator owns channel `k` (R308, R364). -/
def State.timerWrite (s : State) (i : Initiator) (k o : Nat) (f : State → State) : State :=
  if s.mayWrite i (s.timerOwner k) then f s else s.accViol i (timerReg k o)

/-- `TC_CMD` written: STOP applies when both are written (R366, R367). -/
def State.tcCmd (s : State) (k : Nat) (v : Word) : State :=
  if bit v 1 then s.stopTimer k else if bit v 0 then s.armTimer k else s

/-- A write of `TC_CMD.ARM` (R366). -/
def execTcArm (i : Initiator) (k : Nat) (s : State) : Res := .next (s.timerWrite i k 8 (·.tcCmd k 1))

/-- A write of `TC_CMD.STOP` (R366). -/
def execTcStop (i : Initiator) (k : Nat) (s : State) : Res := .next (s.timerWrite i k 8 (·.tcCmd k 2))

/-- The raster of stage `i` gives line and frame ticks: the stage runs and its raster is not held (R115, R365). -/
def State.rasterTicks (s : State) (i : Nat) : Bool :=
  let st := s.stage i
  st.phase = .running && st.beam.run && !st.beam.hold

/-- A tick source runs in the present mode (R365); `i` is the stage that STAGE names. -/
def State.srcRuns (s : State) (src i : Nat) : Bool :=
  if (src == 4 || src == 5) && !s.rasterTicks i then false
  else if s.mode = .doze && s.power.step != 6 then src == 2 || src == 3
  else !((s.mode = .sleep && s.power.step != 6) || s.mode = .deep || s.mode = .off)

/-- The channel's own source ticks it: not with SRC 0 or 7, and not under a clock link (R365, R371). -/
def State.srcTicks (s : State) (k : Nat) : Bool :=
  let src := fld (s.dreg (timerReg k 0)) 0 3
  src != 0 && src != 7 && fld (s.dreg (timerReg k 4)) 8 2 != 3 && s.srcRuns src (fld (s.dreg (timerReg k 0)) 4 2)

/-- The quick input that a channel captures (R370). -/
def State.captureQi (s : State) (k : Nat) : Nat := fld (s.dreg (timerReg k 0x40)) 0 6

/-- The capture filter looks at its input at a tick (R370). -/
def State.seeInput (s : State) (k : Nat) : State :=
  let t := s.timer k
  if s.qi.getLsbD (s.captureQi k) == t.level then (if t.seen = 0 then s else s.setTimer k { t with seen := 0 })
  else s.setTimer k { t with seen := min (t.seen + 1) 255 }

/-- An event of the channel's source: one tick, however many events one PERI cycle has (R365, R366); the capture filter
looks at its input (R370). -/
def State.sourceTick (s : State) (k : Nat) : State :=
  if ((s.timer k).cycle s.peri).tick then s
  else ((s.modCyc k fun c => { c with tick := true }).tickTimer k).seeInput k

/-- A tick of the channel's source (R365, R366); with SRC 6 the capture chain gives it (R370).
[log 140 DESIGN CHOICE] -/
def execTcTick (k : Nat) (s : State) : Res :=
  .next (if s.srcTicks k && fld (s.dreg (timerReg k 0)) 0 3 != 6 then s.sourceTick k else s)

/-- The tick that ends a run: COUNT reaches TOP, or TOP is at or below it (R366). Where the next tick
does not end the run, no such event occurs. -/
def execTcEnd (k : Nat) (s : State) : Res :=
  .next (if s.srcTicks k && fld (s.dreg (timerReg k 0)) 0 3 != 6 &&
      decide ((s.dreg (timerReg k 0x10)).toNat ≤ (s.timer k).count.toNat + 1) then s.sourceTick k
    else s)

/-- Master events of earlier PERI cycles act on channel `k` (R371).
[log 140 DESIGN CHOICE] -/
def execTcLinkEvent (k : Nat) (s : State) : Res :=
  let t := s.timer k
  if t.linked.all fun e => decide (s.peri ≤ e.2) then .next s
  else
    let s := s.setTimer k { t with linked := t.linked.filter fun e => decide (s.peri ≤ e.2) }
    match fld (s.dreg (timerReg k 4)) 8 2 with
    | 2 => .next (s.armTimer k)
    | 3 => .next (s.sourceTick k)
    | _ => .next s

/-- A compare written (R368); a tick of the same PERI cycle still finds what stood before.
[log 140 DESIGN CHOICE] -/
def State.writeCmp (s : State) (k j : Nat) (v : Word) : State :=
  let c := (s.timer k).cycle s.peri
  let s := s.modCyc k fun _ =>
    if c.writes.any (·.1 == j) then c
    else { c with writes := c.writes ++ [(j, s.dreg (cmpReg k j), (s.timer k).elig.getLsbD j)] }
  s.putCmp k j v

/-- A write of `TC_CMP`j (R368). -/
def execTcCmpWrite (i : Initiator) (k j : Nat) (v : Word) (s : State) : Res :=
  .next (s.timerWrite i k (0x20 + 4 * j) (·.writeCmp k j v))

/-- The capture filter of channel `k` may accept `level` (R370): the input has it, and has had it at CFILT ticks of the
channel's source in a row, or for CFILT PERI cycles with SRC 6. -/
def State.mayCapture (s : State) (k : Nat) (level : Bool) : Bool :=
  let q := s.captureQi k
  let n := fld (s.dreg (timerReg k 0x40)) 16 8
  s.qi.getLsbD q == level && (s.timer k).level != level &&
    decide (n ≤ if fld (s.dreg (timerReg k 0)) 0 3 = 6 then s.peri - sget (fun _ => 0) s.qiAt q else (s.timer k).seen)

/-- The capture filter of channel `k` accepts `level` (R370): an edge of the selected kind counts in
the prescaler, and one that passes ticks a channel of SRC 6 and copies COUNT into TC_CAP. -/
def State.captureTimer (s : State) (k : Nat) (level : Bool) : State :=
  if !s.mayCapture k level then s
  else
    let t := { s.timer k with seen := 0 }
    let s := s.setTimer k { t with level := level }
    let cfg := s.dreg (timerReg k 0x40)
    let edge := bit cfg (if level then 8 else 9)
    if !edge then s
    else if t.presc < fld cfg 24 8 then s.setTimer k { t with level := level, presc := t.presc + 1 }
    else
      let s := s.setTimer k { t with level := level, presc := 0 }
      let s := if fld (s.dreg (timerReg k 0)) 0 3 = 6 && s.srcTicks k && !(t.cycle s.peri).tick then
        (s.modCyc k fun c => { c with tick := true }).tickTimer k else s
      let s := s.modCyc k fun c => { c with edge := true }
      let s := s.setTimer k { s.timer k with cap := (s.timer k).count }
      s.modDreg (timerReg k 0x48) fun w => setBit (if bit w 6 then setBit w 7 true else w) 6 true

/-- An edge at the capture input (R370). -/
def execTcCapture (k : Nat) (level : Bool) (s : State) : Res := .next (s.captureTimer k level)

/-- `TC_CAPCFG` written: the prescaler restarts (R370). -/
def State.writeCapcfg (s : State) (k : Nat) (v : Word) : State :=
  (s.setDreg (timerReg k 0x40) (v &&& 0xFFFF033F)).setTimer k { s.timer k with presc := 0 }

/-- A write of `TC_CAPCFG` (R370). -/
def execTcCapcfgWrite (i : Initiator) (k : Nat) (v : Word) (s : State) : Res :=
  .next (s.timerWrite i k 0x40 (·.writeCapcfg k v))

/-- `TC_CTRL` written: stage software may name only its own stage (R365). -/
def State.writeTcCtrl (s : State) (i : Initiator) (k : Nat) (v : Word) : State :=
  let v := v &&& 0xF37
  match s.initStage i with
  | some st =>
    if fld v 4 2 = st then s.setDreg (timerReg k 0) v
    else (s.setDreg (timerReg k 0) (setFld v 4 2 st)).modDreg (timerReg k 0x48) (setBit · 8 true)
  | none => s.setDreg (timerReg k 0) v

/-- `TC_LINK` written: stage software may name only a master its stage owns (R371). -/
def State.writeTcLink (s : State) (i : Initiator) (k : Nat) (v : Word) : State :=
  let v := v &&& 0x731F
  match s.initStage i with
  | some st =>
    if (s.stage st).timers.contains (fld v 0 5) then s.setDreg (timerReg k 4) v
    else (s.setDreg (timerReg k 4) (setFld v 8 2 0)).modDreg (timerReg k 0x48) (setBit · 8 true)
  | none => s.setDreg (timerReg k 4) v

/-- `TC_STATUS` as it reads. -/
def State.tcStatus (s : State) (k : Nat) : Word :=
  let t := s.timer k
  setBit (setBit (s.dreg (timerReg k 0x48)) 31 t.run) 9 t.fault

/-- Every register of a channel at its Reset value (R364); one whose Sector has failed still shows FAULT (R452). -/
def State.resetTimer (s : State) (k : Nat) : State :=
  { s with
    regs := s.regs.filter fun e => e.1 < timerReg k 0 || timerReg k 0x100 ≤ e.1
    timers := vset s.timers k { fault := (s.timer k).fault } }

/-! ### The Tally -/

/-- The alarm value (R373). -/
def State.alarmAt (s : State) : BitVec 64 := (s.dreg 0x13040024 ++ s.dreg 0x13040020 : BitVec 64)

/-- The alarm is due: ALARM_EN is 1 and the Tally is at or above it (R373). -/
def State.alarmDue (s : State) : Bool := bit (s.dreg 0x13040010) 0 && s.alarmAt.ule s.tally.count

/-- The alarm fires (R373). -/
def State.fireAlarm (s : State) : State := if s.alarmDue then { s with tally := { s.tally with alarm := true } } else s

/-- `TALLY_SET_LO` written (R130, R372): the staged high half, or the present one, is taken with it; EST, LOST and
TALLY_ERR clear. The alarm fires at once if it is then due (R373). -/
def State.setTally (s : State) (lo : Word) : State :=
  State.fireAlarm { s with tally := { s.tally with
    count := ((s.tally.setHi.getD s.tallyHi) ++ lo : BitVec 64), setHi := none, est := false, lost := false, err := 0 } }

/-- The Tally set by the Warden (R372). -/
def execTallySet (i : Initiator) (lo : Word) (s : State) : Res :=
  .next (if s.wardenMay i then s.setTally lo else s.accViol i 0x13040008)

/-- The Tally reaches the alarm (R373). -/
def execTallyAlarm (s : State) : Res := .next s.fireAlarm

/-- A measurement of the LPRC ends while the crystal runs (R374). -/
def execLprcCalibration (cal : Word) (s : State) : Res :=
  .next (if s.power.xtal && !s.tally.lprc then { s with tally := { s.tally with cal := cal } } else s)

/-- The crystal starts again after `n` LPRC cycles: the Tally, EST and TALLY_ERR (R374). -/
def Tally.resume (t : Tally) (n : Nat) : Tally :=
  let e := n * t.cal.toNat / 65536
  let err := (e + 999) / 1000 + 1465
  { t with
    count := t.count + BitVec.ofNat 64 e, est := true, lprc := false
    err := wd (min (t.err.toNat + err) 0xFFFFFFFF) }

end Sys2Proof.Machine
end

