-- ==== Sys2Proof/Machine/Units.lean ====
section
/-!
DEFINITION. The unit pool (R15, R16, R19), who holds a unit, spares and voice capacity (R51, R56, R72), the stop
and the unloading of a stage (R74, R75), rebinding a Pip (R311, R317), the Warden's replies (R318) and its journal
(R391, R458).
-/

namespace Sys2Proof.Machine

/-! ### The pool -/

/-- Units of a FLOORPLAN KIND in one Sector (R15): layer, sprite plane, Prism, Chord, Press, Pip, Bramble, timer. -/
def kindUnits (k : Nat) : Nat := [14, 5, 2, 2, 1, 5, 1, 8].getD k 0

/-- Logical indices of a KIND in a stage (R50). -/
def kindIndices (k : Nat) : Nat := [16, 8, 1, 1, 1, 8, 4, 1].getD k 0

/-- The binding index of logical unit `l` of a KIND (R20).
[log 135 DESIGN CHOICE] -/
def bindAt (k l : Nat) : Nat := [0, 16, 24, 25, 26, 27, 35].getD k 39 + l

/-- The KIND of a binding index.
[log 135 DESIGN CHOICE] -/
def kindOf (b : Nat) : Nat :=
  if b < 16 then 0 else if b < 24 then 1 else if b = 24 then 2 else if b = 25 then 3 else if b = 26 then 4
  else if b < 35 then 5 else 6

/-- The logical index of a binding index within its KIND.
[log 135 DESIGN CHOICE] -/
def lindexOf (b : Nat) : Nat := b - bindAt (kindOf b) 0

/-- The slot of a physical unit in its Sector window (R19). -/
def unitSlot (k u : Nat) : Nat := if k = 7 then 32 else slotOf (bindAt k 0) u

/-- The unit has not failed (R377). -/
def State.healthy (s : State) (k sec u : Nat) : Bool := !bit (s.sector sec).failed (unitSlot k u - 1)

/-- Stage `i` holds its units: loaded, and not between step 3 of its own replacement or unloading and the commit (R72,
R74, R75). -/
def State.holds (s : State) (i : Nat) : Bool :=
  (s.stage i).phase ≠ .empty &&
    !(s.load.busy && s.load.stage == i && decide (3 ≤ s.load.step) && decide (s.load.step < 5))

/-- The bound entries of the device: stage, binding index, entry. -/
def State.entries (s : State) : List (Nat × Nat × BindEntry) :=
  (upto 4 s.holds).flatMap fun i => ((s.stage i).binds.filter fun e => e.2.bound).map fun e => (i, e.1, e.2)

/-- The entries bound to a physical unit. -/
def State.holders (s : State) (k sec u : Nat) : List (Nat × Nat × BindEntry) :=
  s.entries.filter fun e => kindOf e.2.1 == k && e.2.2.sector == sec && e.2.2.unit == u

/-- The repair engine of Sector `sec` is loading the unit as a spare (R381, R457). -/
def State.loading (s : State) (k sec u : Nat) : Bool :=
  let x := s.sector sec
  x.busy && fld x.cmd 24 4 == k && fld x.cmd 0 5 == u

/-- A unit is free: healthy, bound to no stage (R72) and not being loaded as a spare (R42). Clusters are shared and never free
as a whole. -/
def State.isFree (s : State) (k sec u : Nat) : Bool :=
  decide (u < kindUnits k) && decide (sec < 4) && s.healthy k sec u && (s.holders k sec u).isEmpty && !s.loading k sec u

/-- The free units of a KIND in a Sector, ascending. -/
def State.freeUnits (s : State) (k sec : Nat) : List Nat := upto (kindUnits k) (s.isFree k sec)

/-- The spares of a KIND that POLICY reserves in a Sector (R51); for the Bramble, voice slots. -/
def State.reserved (s : State) (k sec : Nat) : Nat := (s.load.spares.getD sec []).getD ([0, 1, 2, 3, 5, 4, 6].getD k 7) 0

/-! ### Voice slots -/

/-- The voices of cluster `c` counted at their rates in Hz, the entry `(i, b)` left out (R56). -/
def State.voiceLoad (s : State) (c : Nat) (skip : Nat × Nat) : Rat :=
  (s.entries.filter fun e => kindOf e.2.1 == 6 && e.2.2.sector == c && (e.1, e.2.1) != skip).foldl
    (fun n e => n + e.2.2.count * (s.stage e.1).voiceRate) 0

/-- The capacity of a cluster in voices × Hz: 320 voices at 48 kHz (R56). -/
def clusterCap : Rat := 15360000

/-- The number of voices at a rate that a load leaves room for (R56). -/
def voicesIn (used rate : Rat) : Nat := if rate ≤ 0 then 320 else ((clusterCap - used) / rate).floor.toNat

/-- The number of voices of stage `i` that cluster `c` still has room for, its spare slots included (R382). -/
def State.voiceRoom (s : State) (c i : Nat) (skip : Nat × Nat) : Nat :=
  voicesIn (s.voiceLoad c skip) (s.stage i).voiceRate

/-! ### Spares -/

/-- The spare the Warden takes for a unit of Sector `sec` (R382): the lowest-indexed free unit there, else in the
lowest-numbered other Sector. -/
def State.spareUnit (s : State) (k sec : Nat) : Option (Nat × Nat) :=
  (sec :: upto 4 (· != sec)).findSome? fun n => (s.freeUnits k n).head?.map fun u => (n, u)

/-- The spare for entry `b` of stage `i` (R382): for a Bramble entry, the lowest-numbered other healthy cluster with
room for its voices. -/
def State.spareFor (s : State) (i b : Nat) : Option (Nat × Nat) :=
  let e := (s.stage i).bind b
  if kindOf b = 6 then
    (List.range 4).findSome? fun c =>
      if c != e.sector && s.healthy 6 c 0 && decide (e.count ≤ s.voiceRoom c i (i, b)) then some (c, 0) else none
  else s.spareUnit (kindOf b) e.sector

/-- The shadow of a physical unit is lost or stale (R379, R382, R389), or a word of it is uncorrectable (R381). -/
def State.noShadow (s : State) (k sec u : Nat) : Bool :=
  (s.sector sec).memFault || bit (s.sector sec).stale (unitSlot k u - 1)

/-! ### Cores -/

/-- The core stops and what it had not yet written is lost (R74, R377).
[log 74 DESIGN CHOICE] -/
def Core.quit (c : Core) (r : CoreRun) : Core :=
  { c with run := r, dcache := [], icache := [], fetchBuf := none, wbuf := [], pend := none, fencing := false
           taking := false, takeUnit := none, late := [], parked := false, repNew := false }

/-- The physical Pips bound to stage `i`. -/
def State.stagePips (s : State) (i : Nat) : List Nat := (List.range 8).filterMap (s.pipPhys i)

/-! ### Sources -/

/-- Configuration and state of a source at their reset values, its input as it is (R301, R312). -/
def State.resetSource (s : State) (n : Nat) : State :=
  (((s.setDreg (0x13000000 + 8 * n) (deviceDefault (0x13000000 + 8 * n))).setDreg (0x13000004 + 8 * n) 0).setIrq n {}).sampleIrq n

/-- The sources of stage `i` (R298). -/
def State.stageSources (s : State) (i : Nat) : List Nat :=
  (List.range 64).map (32 + 64 * i + ·) ++ (s.stage i).timers.map (288 + ·) ++ (List.range 7).map (368 + 7 * i + ·) ++
    (upto 64 fun q => (s.stage i).qiOwn.getLsbD q).map (416 + ·)

/-- The sources of stage `i` returned to reset (R312). -/
def State.resetSources (s : State) (i : Nat) : State :=
  ((s.stageSources i).foldl State.resetSource s).setDreg (0x13003100 + 4 * i) 0

/-- Every source that names Pip P`k` as its target is given target `t` (R311). -/
def State.retarget (s : State) (k t : Nat) : State :=
  (List.range 512).foldl (fun s n =>
    if 320 ≤ n && n < 368 then s
    else if fld (s.dreg (0x13000000 + 8 * n)) 8 5 = k then s.modDreg (0x13000000 + 8 * n) fun w => setFld w 8 5 t
    else s) s

/-- The services Pip P`k` had accepted end as by an EOI (R311). -/
def State.endServices (s : State) (k : Nat) : State :=
  ((s.irqs.filter fun e => e.2.active && e.2.accTgt == k).map Prod.fst).foldl State.endService s

/-- A logical Pip moved from P`k` to P`j` in the router and the mailboxes (R311, R317). -/
def State.movePip (s : State) (k j : Nat) : State := ((s.retarget k j).endServices k).moveMailbox k j

/-! ### Stopping and unloading a stage -/

/-- The general outputs of a stage that stops go low (R426). -/
def Stage.goLow (st : Stage) : Stage := st.setReg 0x500 0

/-- Step 3 of a stage load or unload (R74, R75, R247, R312, R317, R339, R363, R364). A committed timing that waits for
its frame boundary still applies there; a pending commit is discarded (R102).
[log 74 DESIGN CHOICE] -/
def State.stopStage (s : State) (i : Nat) : State :=
  let pips := s.stagePips i
  let s := pips.foldl (fun s k => s.modCore k (·.quit .stopped)) s
  let s := (s.resetSources i).idleSenders pips
  let s := (s.stage i).timers.foldl State.resetTimer s
  let s := s.resetVine i
  s.modStage i fun st =>
    let st := st.halt.pressDrop.goLow
    { st with beam := { st.beam with pending := none }, prism := { st.prism with armed := 0, caps := [] }
              held := [], heldWrites := [] }

/-- The partitions of stage `i` zeroed (R75).
[log 62 DESIGN CHOICE] -/
def State.zeroSegs (s : State) (i : Nat) : State := (s.stage i).segs.foldl (fun s g => s.zeroMem g.base g.size) s

/-- The slot is unloaded (R75, R387): at once if the stage makes no sound, else when its bus outputs have ramped to silence,
which the sample strobe finds. -/
def Stage.unload (st : Stage) : Stage :=
  if st.sound.stopRamp.isSome then
    { st with loaded := false, segs := [], windows := [], pipCode := [], timers := [], qiOwn := 0, goOwn := 0
              shedVoices := 0, drops := [], slots := [0, 0, 0, 0], slotPos := [], bindGen := st.bindGen + 1
              binds := st.binds.filter fun e => decide (35 ≤ e.1) }
  else st.vacate

/-- A stage dropped (R387): it stops, its slot is unloaded and its units become spares; its ports go off when its
bus outputs have ramped to silence, which the sample strobe finds.
[log 69 DEDUCED, 86 DEDUCED] -/
def State.dropStage (s : State) (i : Nat) : State :=
  if (s.stage i).phase = .empty then s
  else
    ((s.stopStage i).zeroSegs i).modStage i Stage.unload

/-! ### Modes -/

/-- The device takes a mode; FAULT_PIN.SHED goes when it leaves M5 (R394).
[log 14 DEDUCED] -/
def State.toMode (s : State) (m : Mode) : State :=
  if s.mode = .degraded && m ≠ .degraded then
    { s with mode := m, keeper := { s.keeper with faultPin := setBit s.keeper.faultPin 1 false } }
  else { s with mode := m }

/-- The device mode after a load, when ATTRACT is left, or after a wake (R41, R42): M5 if any unit is shed, or something was
shed since the device left M3 or M5; FAULT_PIN.SHED goes when the device leaves M5 (R394).
[log 14 DEDUCED] -/
def State.runMode (s : State) : State :=
  let shed := s.anyShed || s.power.shedAway
  let s := { s with power := { s.power with shedAway := false } }
  if shed then { s with mode := .degraded }
  else { s with mode := .run, keeper := { s.keeper with faultPin := setBit s.keeper.faultPin 1 false } }

/-- ML fixed anew in every stage, since FAB has changed (R201, R397). The held voices follow at the next block boundary. -/
def State.fixLeads (s : State) : State := (List.range 4).foldl (fun s i => s.modStage i (·.fixLead s.slow)) s

/-- A shed has taken place in Sector `sec` (R41, R42, R319, R394).
[log 63 DEDUCED] -/
def State.noteShed (s : State) (sec : Nat) : State :=
  let s := s.setSector sec { s.sector sec with sheds := (s.sector sec).sheds + 1 }
  let s := if s.load.shedFault then { s with keeper := { s.keeper with faultPin := setBit s.keeper.faultPin 1 true } } else s
  if s.mode = .run then { s with mode := .degraded }
  else if s.mode = .attract || s.asleep then { s with power := { s.power with shedAway := true } }
  else s

/-! ### The Warden -/

/-- An active Warden runs (R390, R392). -/
def State.wardenUp (s : State) : Bool :=
  !vget false s.keeper.lost s.activeWarden && (s.core (20 + s.activeWarden)).run != .stopped

/-- A fault that a bound unit still waits for (R381). -/
def State.faultsOpen (s : State) : Bool :=
  s.wardenUp && (s.faults.any fun f => !(s.holders f.2.1 f.1 f.2.2).isEmpty)

/-- The Warden acknowledges the command in its mailbox: word 0 of the reply repeats word 0 of the request (R318). -/
def State.reply (s : State) (w code : Nat) (words : List Word) : State :=
  let b := s.mb (20 + w)
  if b.state = .posted then
    let ws : List (Word × Nat) := (b.msg[0] :: words).zipIdx
    let b := { b with reply := ws.foldl (fun r (e : Word × Nat) => vset r e.2 e.1) b.reply }
    s.setMb (20 + w) (b.ack (20 + w) (20 + w) (wd (code * 0x10000 + ws.length)))
  else s

/-- The Warden that still owes an answer gives it, if it is not lost (R316) and FORCE has not released the message.
[log 155 DEDUCED] -/
def State.replyTo (s : State) (asker : Option Nat) (code : Nat) (words : List Word) : State :=
  match asker with
  | some w =>
    if vget false s.load.muted w then { s with load := { s.load with muted := vset s.load.muted w false } }
    else if vget false s.keeper.lost w then s else s.reply w code words
  | none => s

/-- What a journal entry records of a unit: VALID, SECTOR, UNIT (R458). -/
def journalUnit (u : Option (Nat × Nat)) : Nat :=
  match u with
  | some (sec, n) => 0x80000000 + sec * 0x4000000 + n * 0x10000
  | none => 0

/-- An entry written into the active Warden's journal (R391, R458): words 1-3 first, word 0 last.
[log 75 DESIGN CHOICE] -/
def State.journal (s : State) (op phase kind stage lindex : Nat) (failed spare : Option (Nat × Nat)) (step voices : Nat) :
    State :=
  if !s.wardenUp then s
  else
    let w := s.activeWarden
    let q := vget 0 s.keeper.jnext w
    let a := 0x10008000 + 0x1000 * w + 16 * (q % 256)
    let s := s.setDreg (a + 4) (wd (journalUnit failed + step * 0x100))
    let s := s.setDreg (a + 8) (wd (journalUnit spare + voices))
    let s := (s.setDreg (a + 12) s.tallyLo).setDreg a (wd (q % 256 * 0x1000000 + lindex * 0x10000 + stage * 0x1000 + kind * 0x100 + phase * 0x10 + op))
    { s with keeper := { s.keeper with jnext := vset s.keeper.jnext w ((q + 1) % 256) } }

end Sys2Proof.Machine
end

