-- ==== Sys2Proof/Machine/Faults.lean ====
section
/-!
DEFINITION. Faults, repair, shedding and the Keeper (R376-R394, R457, R458).
-/

namespace Sys2Proof.Machine

/-! ### Detection -/

/-- A fault recorded in its Sector (R319, R377): `SEC_FAULT` captures the first since it was cleared. -/
def State.recordFault (s : State) (sec kind unit det : Nat) : State :=
  let x := s.sector sec
  let f := satAdd x.fault 8 8 1
  let x := if bit f 31 then { x with fault := f }
    else { x with
      fault := setFld (setFld (setFld (setBit f 31 true) 28 3 det) 24 4 kind) 16 5 unit, faultTime := s.tally.count }
  s.setSector sec { x with lastKind := kind, lastUnit := unit, lastTime := s.tallyLo }

/-- What the Sector's fault logic does to a bound logical unit of the failed one (R377); a Pip that has not been started stays
stopped (R296). -/
def State.failEntry (s : State) (i b : Nat) (e : BindEntry) : State :=
  if b < 24 then s.modStage i fun st => { st with prism := { st.prism with faulted := bset st.prism.faulted b true } }
  else if b = 24 then s.modStage i fun st => { st with prism := { st.prism with dead := true } }
  else if b = 25 then s.modStage i fun st => st.modChord fun c => { c with faulted := true }
  else if b = 26 then s.modStage i fun st => st.modPress fun p => { p with faulted := true }
  else if b < 35 then s.modCore (5 * e.sector + e.unit) fun c => c.quit (if c.run = .stopped then .stopped else .halted)
  else s.modStage i fun st => st.modSound fun x => { x with faulted := bset x.faulted e.sector true }

/-- A spare that fails while it is being loaded ends its load (R382). -/
def Sector.spareLost (x : Sector) (kind u : Nat) : Sector :=
  if x.busy && fld x.cmd 24 4 == kind && fld x.cmd 0 5 == u then { x with busy := false } else x

/-- A physical unit fails: it is marked, its logical units are blanked or halted, and it waits for its repair (R377,
R381). A unit that had failed already changes nothing. -/
def State.failUnit (s : State) (sec kind u : Nat) : State :=
  if !s.healthy kind sec u then s
  else
    let hs := s.holders kind sec u
    let x := (s.sector sec).spareLost kind u
    let s := s.setSector sec { x with failed := setBit x.failed (unitSlot kind u - 1) true }
    let s := hs.foldl (fun s h => s.failEntry h.1 h.2.1 h.2.2) s
    if hs.isEmpty then s else { s with faults := s.faults ++ [(sec, kind, u)] }

/-- The timer channels of a Sector stop and show FAULT (R364). -/
def State.failTimers (s : State) (sec : Nat) : State :=
  (List.range 8).foldl (fun s j => s.setTimer (8 * sec + j) { s.timer (8 * sec + j) with run := false, fault := true }) s

/-- A logic-island fault: every unit of the Sector fails, in the order of R389. -/
def State.failLogic (s : State) (sec : Nat) : State :=
  let s := [2, 3, 6, 0, 1, 4, 5].foldl (fun s k => (List.range (kindUnits k)).foldl (fun s u => s.failUnit sec k u) s) s
  let s := s.failTimers sec
  s.setSector sec { s.sector sec with failed := setBit (s.sector sec).failed 31 true }

/-- Stage `i` has a segment in the Orchard of a Sector (R389). -/
def State.usesOrchard (s : State) (i sec : Nat) : Bool :=
  (s.stage i).segs.any fun g => isOrchard g.base && decide (g.base < (sec + 1) * 0x2000000) && decide (sec * 0x2000000 < g.base + g.size)

/-- A memory-island fault: Orchard and shadows of the Sector are lost, and the stages with a segment there are dropped
while a Warden runs (R389, R392), at the wake if the fault is found asleep (R395).
[log 79 DEDUCED, 83 DEDUCED] -/
def State.failMemory (s : State) (sec : Nat) : State :=
  let x := s.sector sec
  let s := s.setSector sec { x with memFault := true, failed := setBit x.failed 30 true }
  if s.wardenUp && !x.atWake then
    (upto 4 fun i => s.usesOrchard i sec).foldl (fun s i => (s.dropStage i).noteShed sec) s
  else s

/-! ### The Wardens -/

/-- Journal entry `k` of Warden `w` as it stands: its four words (R458). -/
def State.journalEntry (s : State) (w k : Nat) : List Word :=
  (List.range 4).map fun j => s.dreg (0x10008000 + 0x1000 * w + 16 * k + 4 * j)

/-- Fields of word 0 of a journal entry: OP, PHASE, KIND, STAGE, LINDEX (R458). -/
def journalHead (e : List Word) : Nat × Nat × Nat × Nat × Nat :=
  let w := e.getD 0 0
  (fld w 0 4, fld w 4 4, fld w 8 4, fld w 12 2, fld w 16 4)

/-- A unit recorded in word `j` of a journal entry: SECTOR, UNIT (R458). -/
def journalUnitOf (e : List Word) (j : Nat) : Nat × Nat := (fld (e.getD j 0) 26 2, fld (e.getD j 0) 16 5)

/-- An entry that begins work no later entry carries on (R391): same OP, KIND, STAGE and LINDEX. -/
def State.openEntry (s : State) (w k : Nat) : Bool :=
  let e := s.journalEntry w k
  let (op, ph, kd, st, l) := journalHead e
  op != 0 && ph == 1 && !((List.range 256).any fun j =>
    let (op', ph', kd', st', l') := journalHead (s.journalEntry w j)
    op' == op && decide (1 < ph') && kd' == kd && st' == st && l' == l &&
      decide ((fld ((s.journalEntry w j).getD 0 0) 24 8 + 256 - fld (e.getD 0 0) 24 8) % 256 < 128))

/-- A repair command (R457) as a word. -/
def repairWord (stage kind lindex fsec funit sunit : Nat) : Word :=
  wd (stage * 0x10000000 + kind * 0x1000000 + lindex * 0x100000 + fsec * 0x10000 + funit * 0x100 + sunit)

/-- The repair engine of Sector `sec` refuses a command (R457). -/
def State.repairRefused (s : State) (sec : Nat) (v : Word) : Bool :=
  let i := fld v 28 2
  let k := fld v 24 4
  let l := fld v 20 4
  let fs := fld v 16 2
  let fu := fld v 8 5
  let su := fld v 0 5
  let b := bindAt k l
  let e := (s.stage i).bind b
  decide (6 < k) || decide (kindIndices k ≤ l) || decide (kindUnits k ≤ fu) || decide (kindUnits k ≤ su) ||
    !(s.holds i && e.bound && e.sector == fs && e.unit == fu) ||
    (if k = 6 then sec == fs || !s.healthy 6 sec 0 || decide (s.voiceRoom sec i (i, b) < e.count)
     else !s.isFree k sec su)

/-- A write of `SEC_REPAIR` (R23, R381, R457): ERR clears where 1 is written; a command while BUSY is ignored.
[log 75 DESIGN CHOICE] -/
def State.startRepair (s : State) (sec : Nat) (v : Word) : State :=
  let x := s.sector sec
  let x := if bit v 30 then { x with err := false } else x
  if x.busy then s.setSector sec x
  else
    let x := { x with cmd := v &&& 0x3FF31F1F }
    if s.repairRefused sec v then s.setSector sec { x with err := true }
    else
      let i := fld v 28 2
      let k := fld v 24 4
      let l := fld v 20 4
      let b := bindAt k l
      let s := s.setSector sec { x with busy := true }
      let f := (fld v 16 2, fld v 8 5)
      let n := ((s.stage i).bind b).count
      let s := (s.journal 1 1 k i l (some f) (some (sec, fld v 0 5)) 0 n).journal 1 2 k i l (some f) (some (sec, fld v 0 5)) 0 n
      s.modStage i fun st => { st with held := if st.held.contains b then st.held else st.held ++ [b] }

/-- `SEC_REPAIR` (R457). -/
def execSecRepair (sector : Nat) (v : Word) (s : State) : Res := .next (if sector < 4 then s.startRepair sector v else s)

/-! ### Shedding -/

/-- A logical unit contributes nothing from now on (R167, R185, R311, R363, R387). -/
def State.shedUnit (s : State) (i b : Nat) : State :=
  let e := (s.stage i).bind b
  let s := if 27 ≤ b ∧ b < 35 ∧ e.bound then
      (s.modCore (5 * e.sector + e.unit) (·.quit .stopped)).retarget (5 * e.sector + e.unit) 31
    else s
  s.modStage i fun st =>
    let st := st.setBind b { shed := true }
    let st := if b < 24 then st.disarm b else st
    let st := if b = 26 then st.pressDrop else st
    let p := st.prism
    { st with held := st.held.filter (· != b), heldWrites := st.heldWrites.filter fun w => st.unitOf w.1 != some b
              prism := if b < 24 then { p with faulted := bset p.faulted b false, resuming := bset p.resuming b false } else p }

/-- `n` voices taken from the highest-numbered entries: counts from the last entry on (R249). -/
def takeVoices : List Nat → Nat → List Nat
  | [], _ => []
  | c :: r, n => (c - n) :: takeVoices r (n - c)

/-- The counts of the Bramble entries after the `n` highest-numbered voices are shed (R249). -/
def Stage.countsLess (st : Stage) (n : Nat) : List Nat := (takeVoices (st.brambles.map BindEntry.count).reverse n).reverse

/-- The `n` highest-numbered voices of the stage shed (R249).
[log 77 DESIGN CHOICE] -/
def Stage.lessVoices (st : Stage) (n : Nat) : Stage :=
  let cs := st.countsLess n
  let lost := st.voiceCount - cs.sum
  let st := (List.range 4).foldl (fun st j =>
    let e := st.bind (35 + j)
    let c := cs.getD j 0
    if e.count = c then st
    else st.setBind (35 + j) (if c = 0 then { shed := true } else { e with count := c })) st
  { st with shedVoices := st.shedVoices + lost }

/-- SHED_VOICES for a failed entry `b` of stage `i` (R388): at least `n` voices go, and more until a cluster that holds
the stage's other entries has room for what is left of the failed one. -/
def State.shedFailedVoices (s : State) (i b n : Nat) : State :=
  let st := s.stage i
  let cs := (List.range 4).filter fun c => s.healthy 6 c 0 && (List.range 4).any fun j =>
    35 + j != b && (st.bind (35 + j)).bound && (st.bind (35 + j)).sector == c
  let room := fun (k : Nat) =>
    let s' := s.modStage i (·.lessVoices k)
    let left := ((s'.stage i).bind b).count
    if left = 0 then some none
    else (cs.find? fun c => decide (left ≤ s'.voiceRoom c i (i, b))).map some
  match ((List.range (st.voiceCount + 1)).filter fun k => decide (n ≤ k) || k == st.voiceCount).findSome? fun k => (room k).map fun c => (k, c) with
  | none => s.modStage i (·.lessVoices st.voiceCount)
  | some (k, none) => s.modStage i (·.lessVoices k)
  | some (k, some c) =>
    (s.modStage i (·.lessVoices k)).modStage i fun st => st.setBind b { st.bind b with sector := c, unit := 0, repaired := true }

/-! ### Resuming a rebound unit -/

/-- A line's context composed again for source `k`, on its spare (R383).
[log 73 DEDUCED] -/
def State.recompose (s : State) (i k : Nat) (t : Timing) (c : LineCtx) : State × LineCtx :=
  if (s.stage i).composes c k then
    let (fv, s) := s.draw
    let (m, s) := s.source i
    if k < 16 then s.composeLayer i m t fv c.stopped c k
    else s.drawPlane i m t fv (c.recorded (k - 16)) (k - 16)
  else (s, c)

/-- The lines being shown and composed, composed again for source `k` (R383). It is shown again from the first
boundary at which the segment is in the spare's buffer.
[log 73 DEDUCED] -/
def State.recomposeLines (s : State) (i k : Nat) : State :=
  let s := s.modStage i fun st => { st with prism := { st.prism with
    faulted := bset st.prism.faulted k false, resuming := bset st.prism.resuming k true } }
  let st := s.stage i
  let t := st.beam.inForce
  let s := match st.prism.mix with
    | some c => let (s, c) := s.recompose i k st.mixTiming c
      s.modStage i fun st => { st with prism := { st.prism with mix := some c } }
    | none => s
  match st.prism.comp with
  | some c => let (s, c) := s.recompose i k (if c.y = 0 then st.beam.nextTiming.getD t else t) c
    s.modStage i fun st => { st with prism := { st.prism with comp := some c } }
  | none => s

/-- The Prism mixes again: a region whose signature was in progress is not judged for the frame (R383). -/
def Stage.resumePrism (st : Stage) : Stage :=
  let st := { st with prism := { st.prism with dead := false } }
  (List.range 8).foldl (fun st r =>
    let q := st.prism.run r
    if st.rindOn r && !q.judged && (q.fed != 0 || !q.cur.isEmpty || !q.curR.isEmpty || q.done) then
      { st.setRegBit (prismBase + 0x800) (18 + r) with prism := st.prism.setRun r { q with judged := true, done := false } }
    else st) st

/-- The Chord goes on (R383): a WAIT whose cycle has passed completes with WAIT_LATE, and the edges recorded fire their
reflexes in order.
[log 91 DEDUCED] -/
def Stage.resumeChord (st : Stage) (fab now rpf : Nat) : Stage :=
  let es := st.chord.edges
  let st := st.modChord fun c => { c with faulted := false, edges := [] }
  let st := match st.chord.waiting with
    | some (l, p) =>
      if st.chord.running && !st.chord.never && st.waitPassed now rpf l p then
        (st.chordFlag 2).modChord fun c => ({ c with waiting := none }).advance
      else st
    | none => st
  if st.reflexOn then es.foldl (fun st e => st.fireReflexes fab e.1 e.2 true) st else st

/-- A logical Pip restarted on P`j` from the checkpoint of P`k` (R384).
[log 80 DESIGN CHOICE] -/
def State.restartPip (s : State) (i n k j : Nat) : State :=
  let (fv, s) := s.draw
  let s := { s with nonce := s.nonce + 4 }
  let c := s.core k
  let p := c.ckpt
  let d : Core := {
    run := if c.run = .stopped then .stopped else .running
    gpr := p.gpr, pred := p.pred, lc := p.lc, au := p.au, pc := p.pc, status := p.status, repcnt := p.repcnt
    frames := p.frames, ecause := p.ecause, eaddr := p.eaddr, vbase := p.vbase, seed := p.seed, ckpt := p
    epc := Config.freeWord fv, estatus := Config.freeWord (fv + 1), retired := Config.freeWord (fv + 2)
    cycle := Config.freeWord (fv + 3) ++ Config.freeWord (fv + 4) }
  let s := (s.setCore j d).setCore k (c.quit .stopped)
  s.modStage i fun st => if d.run = .running then st.setRegBit 0x304 (8 + n) else st

/-- Entry `b` of stage `i` rebound to a unit, and what resumes with it (R381, R383, R384). -/
def State.rebind (s : State) (i b sec u : Nat) : State :=
  let e := (s.stage i).bind b
  let s := s.modStage i fun st => st.setBind b { e with bound := true, shed := false, repaired := true, sector := sec, unit := u }
  if b < 24 then s.recomposeLines i b
  else if b = 24 then s.modStage i Stage.resumePrism
  else if b = 25 then s.modStage i fun st => st.resumeChord s.fab s.root (if s.slow then 4 else 2)
  else if b = 26 then s.modStage i fun st => st.modPress fun p => { p with faulted := false }
  else if b < 35 then s.restartPip i (b - 27) (5 * e.sector + e.unit) (5 * sec + u)
  else s

/-- The held accesses to a unit released in order (R23, R381). -/
def State.release (s : State) (i b : Nat) : State :=
  let st := s.stage i
  let mine := st.heldWrites.filter fun w => st.unitOf w.1 == some b
  let s := s.modStage i fun st => { st with
    held := st.held.filter (· != b), heldWrites := st.heldWrites.filter fun w => st.unitOf w.1 != some b }
  mine.foldl (fun s w => s.applyWrite State.pressAbort w.2.2.2 i w.1 w.2.1 w.2.2.1) s

/-- The place of a unit's shadow in its Sector's shadow region, and its size (R378). -/
def shadowPlace (k u : Nat) : Nat × Nat :=
  match k with
  | 0 => (0x2000 * u, 0x2000)
  | 1 => (0x1C000 + 0x1000 * u, 0x1000)
  | 2 => (0x21000 + 0x8000 * u, 0x8000)
  | 3 => (0x31000 + 0x8000 * u, 0x8000)
  | 4 => (0x55000, 0x1000)
  | 5 => (0x58000 + 0x12000 * u, 0x12000)
  | _ => (0x41000, 0x14000)

/-- A unit's shadow read (R93, R96, R381): whether a word of it was reported uncorrectable; `ue` says that one of its words is
found with more than two symbol errors. -/
def State.readShadow (s : State) (sec k u : Nat) (ue : Bool) : Bool × State :=
  let p := shadowPlace k u
  let a := 0x2000000 * sec + 0x1F00000 + p.1
  let (fv, s) := s.draw
  let s := if ue then s.upset (a + 32 * (Config.progress fv % (p.2 / 32))) 3 else s
  let (ws, s) := s.readRanges [(a, p.2)]
  (!ws.isEmpty, s)

/-- `REPAIR_LOAD_COMPLETE` (R381): an uncorrectable word of the shadow is treated as no spare (R387). -/
def execRepairLoadComplete (sector : Nat) (ue : Bool) (s : State) : Res :=
  let x := s.sector sector
  if sector < 4 && x.busy then
    let v := x.cmd
    let i := fld v 28 2
    let k := fld v 24 4
    let l := fld v 20 4
    let b := bindAt k l
    let e := (s.stage i).bind b
    let s := s.setSector sector { x with busy := false }
    let (lost, s) := s.readShadow e.sector k e.unit ue
    if lost then
      let y := s.sector e.sector
      .next ((s.setSector e.sector { y with stale := setBit y.stale (unitSlot k e.unit - 1) true }).release i b)
    else
      let s := s.rebind i b sector (fld v 0 5)
      let s := if k = 5 then s.movePip (5 * e.sector + e.unit) (5 * sector + fld v 0 5) else s
      let y := s.sector e.sector
      let s := s.setSector e.sector { y with
        repairs := y.repairs + 1, mirror := y.mirror.filter fun m => m.1 != unitSlot k e.unit }
      let s := { s with faults := s.faults.filter (· != (e.sector, k, e.unit)) }
      .next ((s.release i b).journal 1 3 k i l (some (e.sector, e.unit)) (some (sector, fld v 0 5)) 0 e.count)
  else .next s

/-! ### Shedding per POLICY -/

/-- The KIND an ACTION of POLICY applies to (R52). -/
def actionKind (a : Nat) : Nat := [9, 0, 1, 6, 5, 4].getD a 9

/-- The first step of the shed list that serves a failed unit of a KIND, with the list as it leaves it (R52): a step
that names a unit already shed or not bound is passed over and counts as used. -/
def takeStep (st : Stage) (kind : Nat) : List ShedStep → List ShedStep × Option ShedStep
  | [] => ([], none)
  | p :: r =>
    if p.used || !(p.action == 6 || (actionKind p.action == kind && p.action != 0)) then
      let (r', q) := takeStep st kind r
      (p :: r', q)
    else if p.action != 3 && p.action != 6 &&
        (decide (kindIndices kind ≤ if p.action = 5 then 0 else p.lindex) ||
          !(st.bind (bindAt kind (if p.action = 5 then 0 else p.lindex))).bound) then
      let (r', q) := takeStep st kind r
      ({ p with used := true } :: r', q)
    else ({ p with used := true } :: r, some p)

/-- A step that names another unit than the failed one: that unit is shed and its healthy unit serves the failed index
(R52, R317).
[log 78 DEDUCED] -/
def State.shedFor (s : State) (i b other : Nat) : State :=
  let e := (s.stage i).bind b
  let o := (s.stage i).bind other
  let p := 5 * e.sector + e.unit
  let q := 5 * o.sector + o.unit
  let s := s.shedUnit i other
  let s := if kindOf b = 5 then ((s.swapMailbox p q).retarget p q).endServices p else s
  (s.rebind i b o.sector o.unit).release i b

/-- A step applied to the failed entry `b` of stage `i` (R52, R387, R388). -/
def State.applyStep (s : State) (i b : Nat) (p : ShedStep) : State :=
  match p.action with
  | 3 => (s.shedFailedVoices i b p.voices).release i b
  | 6 => s.dropStage i
  | a =>
    let other := bindAt (actionKind a) (if a = 5 then 0 else p.lindex)
    if other = b then s.shedUnit i b else s.shedFor i b other

/-- `SHED_PER_POLICY` (R52, R387): of a failed bound unit that no spare can serve, while a Warden runs (R392). -/
def execShedPerPolicy (s kind lindex : Nat) (st : State) : Res :=
  let b := bindAt kind lindex
  let e := (st.stage s).bind b
  if decide (s < 4) && decide (kind < 7) && decide (lindex < kindIndices kind) && st.holds s && e.bound && st.wardenUp &&
      !st.healthy kind e.sector e.unit && ((st.spareFor s b).isNone || st.noShadow kind e.sector e.unit) then
    let (steps, p) := takeStep (st.stage s) kind (st.stage s).shedList
    let p := p.getD { action := 6 }
    let st := st.modStage s fun x => { x with shedList := steps }
    let st := st.journal 2 1 kind s lindex (some (e.sector, e.unit)) none p.action p.voices
    let st := (st.applyStep s b p).noteShed e.sector
    let st := { st with faults := st.faults.filter (· != (e.sector, kind, e.unit)) }
    .next (st.journal 2 3 kind s lindex (some (e.sector, e.unit)) none p.action p.voices)
  else .next st

/-! ### Loss of a Warden -/

/-- The device enters M6 (R392, R410); FAB runs at its full rate again. -/
def State.enterOrphan (s : State) : State :=
  match s.mode with
  | .run | .retune | .degraded | .attract => ((s.toMode .orphan).modDreg 0x10007100 fun w => setBit w 8 true).fixLeads
  | _ => s

/-- Replay of one journal entry of the lost Warden (R391): a repair begun without its command is commanded, a shed begun
is completed.
[log 84 DESIGN CHOICE] -/
def State.replayEntry (s : State) (w k : Nat) : State :=
  if !s.openEntry w k then s
  else
    let e := s.journalEntry w k
    let (op, _, kd, i, l) := journalHead e
    let f := journalUnitOf e 1
    let u := journalUnitOf e 2
    match op with
    | 1 => s.startRepair u.1 (repairWord i kd l f.1 f.2 u.2)
    | 2 =>
      let b := bindAt kd l
      let p : ShedStep := { action := fld (e.getD 1 0) 8 8, lindex := l, voices := fld (e.getD 2 0) 0 9 }
      if s.holds i && ((s.stage i).bind b).bound then (s.applyStep i b p).noteShed f.1 else s
    | _ => s

/-- A LOAD_STAGE or UNLOAD_STAGE of the lost Warden fails with WARDEN_LOST (R391); its slot is left as R42 and R74
state for its step.
[log 84 DESIGN CHOICE] -/
def State.failLoadLost (s : State) : State :=
  if s.load.busy && s.load.stage != 15 then
    let i := s.load.stage
    let s := if 3 ≤ s.load.step then (s.zeroSegs i).modStage i Stage.unload else s
    let s := { s with load := { s.load with busy := false, code := 0x44, phase := 6, asker := none, unload := false } }.dropReads
    (if s.mode = .retune then s.runMode else s).pulse 6
  else s

/-- The management sources that name Warden `w` name the other one (R390). -/
def State.takeOver (s : State) (w : Nat) : State :=
  (List.range 32).foldl (fun s n =>
    if fld (s.dreg (0x13000000 + 8 * n)) 8 5 = 20 + w then s.modDreg (0x13000000 + 8 * n) fun v => setFld v 8 5 (21 - w)
    else s) s

/-- Warden `w` is marked lost (R390-R393): the standby is promoted, or the device is without one. A mode entry it was
asked for is unwound at its next abort point and never acknowledged (R406).
[log 84 DESIGN CHOICE] -/
def State.loseWarden (s : State) (w : Nat) : State :=
  if vget true s.keeper.lost w then s
  else
    let active := s.activeWarden == w
    let other := 1 - w
    let k := s.keeper
    let up := !vget false k.lost other && (other == 0 || k.wbReleased)
    let s := { s with keeper := { k with lost := vset k.lost w true, faultPin := setBit k.faultPin 3 true } }
    let s := (s.modCore (20 + w) (·.quit .halted)).pulse 8
    if !active then s
    else
      let p := s.power
      let s := { s with
        power := { p with asker := none, wakes := if p.step = 0 then p.wakes else p.wakes ++ [(0, 0)] }
        load := { s.load with update := none } }
      if !up then s.enterOrphan
      else
        let k := s.keeper
        let s := { s with keeper := { k with activeB := other == 1, promotions := min 255 (k.promotions + 1) } }
        let from' := vget 0 k.jnext w
        (((List.range 256).foldl (fun s j => s.replayEntry w ((from' + j) % 256)) s).failLoadLost).takeOver w

/-- `KEEPER_HB` (R390): the heartbeat of a Warden.
[log 85 DEDUCED] -/
def execKeeperHb (w : Nat) (s : State) : Res := .next { s with keeper := { s.keeper with beat := vset s.keeper.beat w true } }

/-- `WARDEN_LOST` (R390): the window of Warden `w` expires. A heartbeat in the window, or in the cycle of its expiry,
counts.
[log 85 DEDUCED] -/
def execWardenLost (w : Nat) (s : State) : Res :=
  if decide (2 ≤ w) || !s.keeper.checking || (s.core (20 + w)).run == .stopped then .next s
  else if vget false s.keeper.beat w then .next { s with keeper := { s.keeper with beat := vset s.keeper.beat w false } }
  else .next (s.loseWarden w)

/-- `FAULT_PIN` (R394): FORCE as the Warden writes it. -/
def execFaultPin (v : Word) (s : State) : Res :=
  .next { s with keeper := { s.keeper with faultPin := setBit s.keeper.faultPin 0 (bit v 0) } }

/-- `FAULT_PIN` as it reads (R394). -/
def State.faultPinWord (s : State) : Word := setBit s.keeper.faultPin 4 (s.mode = .orphan)

/-- FAULT_N is asserted (R394). -/
def State.faultN (s : State) : Bool := s.faultPinWord != 0

/-- `KEEPER_STATUS` as it reads (R394). -/
def State.keeperStatus (s : State) : Word :=
  let k := s.keeper
  let la := vget false k.lost 0
  let lb := vget false k.lost 1
  wd (k.promotions * 0x1000000 + (s.mode = .orphan : Bool).toNat * 0x100 + lb.toNat * 0x20 + la.toNat * 0x10 +
    (k.activeB && !lb).toNat * 2 + (!k.activeB && !la).toNat)

/-- The Warden that stands in a Sector: WA in Sector 0, WB in Sector 2 (R13, R16).
[log 81 DEDUCED] -/
def wardenIn : Nat → Option Nat
  | 0 => some 0
  | 2 => some 1
  | _ => none

/-- The Warden of a Sector, if there is one, is lost (R390).
[log 81 DEDUCED] -/
def State.loseWardenIn (s : State) (sec : Nat) : State :=
  match wardenIn sec with
  | some w => s.loseWarden w
  | none => s

/-- A detector watches the named unit, which has not failed (R376, R377): KIND 0-7 a unit, 8 a Warden, 9 the whole Sector,
by its logic monitor (4) or its memory monitor (5).
[log 82 DEDUCED] -/
def State.watched (s : State) (sec kind unit det : Nat) : Bool :=
  if kind = 9 then unit == 0 && (det == 4 || det == 5)
  else if kind = 8 then unit == 0 && decide (det < 4) && (wardenIn sec).any fun w => !vget true s.keeper.lost w
  else if kind = 7 then decide (unit < 8) && decide (det < 4) && !(s.timer (8 * sec + unit)).fault
  else decide (unit < kindUnits kind) && decide (det < 4) && s.healthy kind sec unit

/-- A timer channel fails (R364, R377).
[log 83 DEDUCED] -/
def State.failTimer (s : State) (sec k : Nat) : State :=
  let s := s.setTimer (8 * sec + k) { s.timer (8 * sec + k) with run := false, fault := true }
  s.setSector sec { s.sector sec with failed := setBit (s.sector sec).failed 31 true }

/-- `UNIT_FAULT_DETECT` (R376, R377, R389, R390, R395). In DOZE and SLEEP, and after AP1 of an entry (R406), only the
Sector monitors run, and their fault is repaired at the wake. A logic-island fault is a fault of every unit of the Sector,
its Warden too.
[log 81 DEDUCED] -/
def execUnitFaultDetect (sector kind unit detector : Nat) (s : State) : Res :=
  let asleep := s.asleep && s.power.step != 6 || s.power.step == 3 || s.power.step == 4
  if decide (4 ≤ sector) || decide (9 < kind) || !s.watched sector kind unit detector || (asleep && kind != 9) ||
      s.mode = .off || s.mode = .deep then .next s
  else
    let s := s.recordFault sector kind unit detector
    let s := if asleep then s.setSector sector { s.sector sector with atWake := true } else s
    .next (
      if kind = 9 then (if detector = 5 then s.failMemory sector else (s.failLogic sector).loseWardenIn sector)
      else if kind = 8 then s.loseWardenIn sector
      else if kind = 7 then s.failTimer sector unit
      else s.failUnit sector kind unit)

/-! ### The mirror buffer -/

/-- Where the shadow of a slot's registers stands in its Sector's shadow region, and its size (R378); the Bramble and
the Pips are kept otherwise.
[log 76 DEDUCED] -/
def shadowOf (slot : Nat) : Option (Nat × Nat) :=
  if 1 ≤ slot ∧ slot ≤ 14 then some (shadowPlace 0 (slot - 1))
  else if 15 ≤ slot ∧ slot ≤ 19 then some (shadowPlace 1 (slot - 15))
  else if slot = 20 ∨ slot = 21 then some (shadowPlace 2 (slot - 20))
  else if slot = 22 ∨ slot = 23 then some (shadowPlace 3 (slot - 22))
  else if slot = 30 then some (shadowPlace 4 0)
  else none

/-- The stage and binding index whose unit fills a slot. -/
def State.slotHolder (s : State) (sec slot : Nat) : Option (Nat × Nat) :=
  (s.entries.find? fun e => e.2.2.sector == sec && slotOf e.2.1 e.2.2.unit == slot).map fun e => (e.1, e.2.1)

/-- The stage-window block of a binding index (R18). -/
def unitBase (b : Nat) : Nat :=
  if b < 16 then layerBase b else if b < 24 then spriteBase (b - 16) else if b = 24 then prismBase
  else if b = 25 then chordBase else pressBase

/-- One 64-byte word of a unit's registers written into its shadow (R378, R379).
[log 76 DEDUCED] -/
def State.shadowWord (s : State) (sec slot k : Nat) : State :=
  match shadowOf slot, s.slotHolder sec slot with
  | some (off, size), some (i, b) =>
    if 64 * k < size then
      let base := 0x2000000 * sec + 0x1F00000 + off + 64 * k
      s.storeBytes base ((List.range 16).flatMap fun j => leBytes ((s.stage i).reg (unitBase b + 64 * k + 4 * j)).toNat 4)
    else s
  | _, _ => s

/-- A stale unit's whole block copied from the unit, which has not failed, once the buffer has space (R379).
[log 76 DEDUCED] -/
def State.copyStale (s : State) (sec : Nat) : State :=
  let x := s.sector sec
  match (upto 32 fun n => bit x.stale n && !bit x.failed n).head? with
  | none => s
  | some n =>
    let s := match shadowOf (n + 1) with
      | some (_, size) => (List.range (size / 64)).foldl (fun (s : State) (k : Nat) => s.shadowWord sec (n + 1) k) s
      | none => s
    s.setSector sec { s.sector sec with stale := setBit x.stale n false }

/-- `MIRROR_BUFFER_DRAIN` (R379): the oldest word of the buffer reaches the shadow; then a stale unit is copied. A Sector
whose memory island has failed has no shadow (R389). -/
def execMirrorBufferDrain (sector : Nat) (s : State) : Res :=
  let x := s.sector sector
  if decide (4 ≤ sector) || x.memFault then .next s
  else
    let s := match x.mirror with
      | [] => s
      | e :: r => (s.setSector sector { x with mirror := r }).shadowWord sector e.1 (e.2 % 0x400)
    .next (s.copyStale sector)

end Sys2Proof.Machine
end

