-- ==== Sys2Proof/Machine/Crypto.lean ====
section
/-!
DEFINITION. The algorithms that R62, R63 and R428 name and the spec does not spell out: SHA-256, AES-256-GCM and
ECDSA on P-256. PRESUMED: the public standards (FIPS 180-4, FIPS 197, SP 800-38D, SEC 1 and SEC 2); see the
assumption log.
-/

namespace Sys2Proof.Machine

/-! ### SHA-256 -/

/-- The round constants of SHA-256. -/
def shaK : List Word :=
  [0x428A2F98, 0x71374491, 0xB5C0FBCF, 0xE9B5DBA5, 0x3956C25B, 0x59F111F1, 0x923F82A4, 0xAB1C5ED5] ++
  [0xD807AA98, 0x12835B01, 0x243185BE, 0x550C7DC3, 0x72BE5D74, 0x80DEB1FE, 0x9BDC06A7, 0xC19BF174] ++
  [0xE49B69C1, 0xEFBE4786, 0x0FC19DC6, 0x240CA1CC, 0x2DE92C6F, 0x4A7484AA, 0x5CB0A9DC, 0x76F988DA] ++
  [0x983E5152, 0xA831C66D, 0xB00327C8, 0xBF597FC7, 0xC6E00BF3, 0xD5A79147, 0x06CA6351, 0x14292967] ++
  [0x27B70A85, 0x2E1B2138, 0x4D2C6DFC, 0x53380D13, 0x650A7354, 0x766A0ABB, 0x81C2C92E, 0x92722C85] ++
  [0xA2BFE8A1, 0xA81A664B, 0xC24B8B70, 0xC76C51A3, 0xD192E819, 0xD6990624, 0xF40E3585, 0x106AA070] ++
  [0x19A4C116, 0x1E376C08, 0x2748774C, 0x34B0BCB5, 0x391C0CB3, 0x4ED8AA4A, 0x5B9CCA4F, 0x682E6FF3] ++
  [0x748F82EE, 0x78A5636F, 0x84C87814, 0x8CC70208, 0x90BEFFFA, 0xA4506CEB, 0xBEF9A3F7, 0xC67178F2]

/-- The initial hash value of SHA-256. -/
def shaH : List Word :=
  [0x6A09E667, 0xBB67AE85, 0x3C6EF372, 0xA54FF53A, 0x510E527F, 0x9B05688C, 0x1F83D9AB, 0x5BE0CD19]

/-- The number of a byte string, most significant byte first (R61).
[log 48 DEDUCED] -/
def beNat (bs : List Byte) : Nat := bs.foldl (fun n b => n * 256 + b.toNat) 0

/-- A number as `n` bytes, most significant first (R61). -/
def beBytes (v n : Nat) : List Byte := (leBytes v n).reverse

/-- The message padded to whole blocks of 64 bytes. -/
def shaPad (m : List Byte) : List Byte :=
  m ++ 0x80 :: List.replicate ((119 - m.length % 64) % 64) 0 ++ beBytes (8 * m.length) 8

/-- The message schedule, newest word first, extended by one word. -/
def shaNext (w : List Word) : List Word :=
  let a := w.getD 14 0
  let b := w.getD 1 0
  (w.getD 15 0 + (a.rotateRight 7 ^^^ a.rotateRight 18 ^^^ (a >>> 3)) + w.getD 6 0 +
    (b.rotateRight 17 ^^^ b.rotateRight 19 ^^^ (b >>> 10))) :: w

/-- One round on the eight working words. -/
def shaRound (v : List Word) (kw : Word) : List Word :=
  let g (i : Nat) : Word := v.getD i 0
  let t1 := g 7 + ((g 4).rotateRight 6 ^^^ (g 4).rotateRight 11 ^^^ (g 4).rotateRight 25) +
    ((g 4 &&& g 5) ^^^ (~~~(g 4) &&& g 6)) + kw
  let t2 := ((g 0).rotateRight 2 ^^^ (g 0).rotateRight 13 ^^^ (g 0).rotateRight 22) +
    ((g 0 &&& g 1) ^^^ (g 0 &&& g 2) ^^^ (g 1 &&& g 2))
  [t1 + t2, g 0, g 1, g 2, g 3 + t1, g 4, g 5, g 6]

/-- One block folded into the hash value. -/
def shaBlock (h : List Word) (blk : List Byte) : List Word :=
  let w := (List.range 16).map fun i => wd (beNat ((blk.drop (4 * i)).take 4))
  let w := (Nat.repeat shaNext 48 w.reverse).reverse
  List.zipWith (· + ·) h ((List.zipWith (· + ·) shaK w).foldl shaRound h)

/-- SHA-256 of a byte string: 32 bytes.
[log 47 PRESUMED] -/
def sha256 (m : List Byte) : List Byte :=
  let p := shaPad m
  ((List.range (p.length / 64)).foldl (fun h i => shaBlock h ((p.drop (64 * i)).take 64)) shaH).flatMap
    fun w => beBytes w.toNat 4

/-! ### AES-256 and GCM -/

/-- Multiplication by x in the field of AES. -/
def aesX (a : Byte) : Byte := (a <<< 1) ^^^ (if a.getLsbD 7 then 0x1B else 0)

/-- Multiplication in the field of AES. -/
def aesMul (a b : Byte) : Byte :=
  ((List.range 8).foldl (fun (e : Byte × Byte) i => (if b.getLsbD i then e.1 ^^^ e.2 else e.1, aesX e.2)) (0, a)).1

/-- The inverse in the field of AES, 0 of 0: the power 254. -/
def aesInv (a : Byte) : Byte :=
  ((List.range 7).foldl (fun (e : Byte × Byte) _ => let q := aesMul e.2 e.2; (aesMul e.1 q, q)) (1, a)).1

/-- SubBytes of one byte. -/
def aesSub (a : Byte) : Byte :=
  let v := aesInv a
  v ^^^ v.rotateLeft 1 ^^^ v.rotateLeft 2 ^^^ v.rotateLeft 3 ^^^ v.rotateLeft 4 ^^^ 0x63

/-- The key schedule of AES-256, words newest first, extended by one word; `i` is its index. -/
def aesExpand (w : List (List Byte)) (i : Nat) : List (List Byte) :=
  let t := w.headD []
  let t := if i % 8 = 0 then
      List.zipWith (· ^^^ ·) ((t.drop 1 ++ t.take 1).map aesSub) [Nat.repeat aesX (i / 8 - 1) 1, 0, 0, 0]
    else if i % 8 = 4 then t.map aesSub else t
  List.zipWith (· ^^^ ·) (w.getD 7 []) t :: w

/-- The 15 round keys of AES-256, 16 bytes each. -/
def aesKeys (key : List Byte) : List (List Byte) :=
  let w := (List.range 8).map fun i => (key.drop (4 * i)).take 4
  let w := ((List.range 52).foldl (fun w i => aesExpand w (8 + i)) w.reverse).reverse
  (List.range 15).map fun r => ((w.drop (4 * r)).take 4).flatten

/-- ShiftRows: byte `r + 4 c` comes from column `c + r`. -/
def aesShift (s : List Byte) : List Byte := (List.range 16).map fun i => s.getD ((i + 4 * (i % 4)) % 16) 0

/-- MixColumns. -/
def aesMix (s : List Byte) : List Byte :=
  (List.range 16).map fun i =>
    let g (k : Nat) : Byte := s.getD (i / 4 * 4 + (i + k) % 4) 0
    aesX (g 0) ^^^ aesX (g 1) ^^^ g 1 ^^^ g 2 ^^^ g 3

/-- AES-256 of one block of 16 bytes under the round keys.
[log 47 PRESUMED] -/
def aesBlock (ks : List (List Byte)) (blk : List Byte) : List Byte :=
  let s := List.zipWith (· ^^^ ·) blk (ks.headD [])
  let s := ((ks.drop 1).take 13).foldl (fun s k => List.zipWith (· ^^^ ·) (aesMix (aesShift (s.map aesSub))) k) s
  List.zipWith (· ^^^ ·) (aesShift (s.map aesSub)) (ks.getD 14 [])

/-- Multiplication in the field of GHASH, bit 127 of the number first. -/
def ghashMul (x y : BitVec 128) : BitVec 128 :=
  ((List.range 128).foldl (fun (e : BitVec 128 × BitVec 128) i =>
    (if x.getMsbD i then e.1 ^^^ e.2 else e.1,
      (e.2 >>> 1) ^^^ (if e.2.getLsbD 0 then 0xE1000000000000000000000000000000 else 0))) (0, y)).1

/-- A byte string in blocks of 16 bytes, the last filled with zeros. -/
def blocks16 (m : List Byte) : List (List Byte) :=
  (List.range ((m.length + 15) / 16)).map fun i =>
    let b := (m.drop (16 * i)).take 16
    b ++ List.replicate (16 - b.length) 0

/-- A payload of R63 opened under IMAGE_KEY: IV, ciphertext and tag, with the header bytes as additional data;
`none` when the tag fails.
[log 47 PRESUMED] -/
def gcmOpen (key : BitVec 256) (aad stored : List Byte) : Option (List Byte) :=
  let ks := aesKeys (beBytes key.toNat 32)
  let n := stored.length - 28
  let iv := stored.take 12
  let ct := (stored.drop 12).take n
  let tag := stored.drop (12 + n)
  let ctr (i : Nat) : List Byte := aesBlock ks (iv ++ beBytes (i + 1) 4)
  let h : BitVec 128 := BitVec.ofNat 128 (beNat (aesBlock ks (List.replicate 16 0)))
  let blks := blocks16 aad ++ blocks16 ct ++ [beBytes (8 * aad.length) 8 ++ beBytes (8 * n) 8]
  let g := blks.foldl (fun (y : BitVec 128) b => ghashMul (y ^^^ BitVec.ofNat 128 (beNat b)) h) 0
  if List.zipWith (· ^^^ ·) (beBytes g.toNat 16) (ctr 0) = tag then
    some ((List.range ((n + 15) / 16)).flatMap fun i =>
      List.zipWith (· ^^^ ·) ((ct.drop (16 * i)).take 16) (ctr (i + 1)))
  else none

/-! ### ECDSA on P-256 -/

/-- The prime of the field of P-256. -/
def p256P : Nat := 0xFFFFFFFF00000001000000000000000000000000FFFFFFFFFFFFFFFFFFFFFFFF

/-- The order of the base point of P-256. -/
def p256N : Nat := 0xFFFFFFFF00000000FFFFFFFFFFFFFFFFBCE6FAADA7179E84F3B9CAC2FC632551

/-- The coefficient b of P-256. -/
def p256B : Nat := 0x5AC635D8AA3A93E7B3EBBD55769886BC651D06B0CC53B0F63BCE3C3E27D2604B

/-- The base point of P-256. -/
def p256G : Nat × Nat :=
  (0x6B17D1F2E12C4247F8BCE6E563A440F277037D812DEB33A0F4A13945D898C296,
    0x4FE342E2FE1A7F9B8EE7EB4A7C0F9E162BCE33576B315ECECBB6406837BF51F5)

/-- `b` to the power `e`, of 256 bits, modulo `m`. -/
def powMod (b e m : Nat) : Nat :=
  (List.range 256).foldl (fun r i => let q := r * r % m; if e.testBit (255 - i) then q * b % m else q) 1

/-- Addition on P-256; `none` is the point at infinity. -/
def p256Add (a b : Option (Nat × Nat)) : Option (Nat × Nat) :=
  match a, b with
  | none, q => q
  | some p, none => some p
  | some (x1, y1), some (x2, y2) =>
    if x1 = x2 ∧ (y1 + y2) % p256P = 0 then none
    else
      let num := if x1 = x2 then 3 * x1 * x1 + p256P - 3 else y2 + p256P - y1
      let den := if x1 = x2 then 2 * y1 else x2 + p256P - x1
      let l := num % p256P * powMod (den % p256P) (p256P - 2) p256P % p256P
      let x := (l * l + 2 * p256P - x1 - x2) % p256P
      some (x, (l * (x1 + p256P - x) + p256P - y1) % p256P)

/-- Multiplication of a point of P-256 by a number of 256 bits. -/
def p256Mul (k : Nat) (p : Nat × Nat) : Option (Nat × Nat) :=
  (List.range 256).foldl (fun r i =>
    let q := p256Add r r
    if k.testBit (255 - i) then p256Add q (some p) else q) none

/-- The signature (r, s) over the message verifies against the public key X ‖ Y (R61, R62).
[log 47 PRESUMED] -/
def ecdsaOk (pub msg sr ss : List Byte) : Bool :=
  let x := beNat (pub.take 32)
  let y := beNat ((pub.drop 32).take 32)
  let r := beNat sr
  let s := beNat ss
  let e := beNat (sha256 msg)
  let w := powMod s (p256N - 2) p256N
  decide (x < p256P) && decide (y < p256P) && decide (y * y % p256P = (x * x % p256P * x + (p256P - 3) * x + p256B) % p256P) &&
    decide (1 ≤ r) && decide (r < p256N) && decide (1 ≤ s) && decide (s < p256N) &&
    match p256Add (p256Mul (e * w % p256N) p256G) (p256Mul (r * w % p256N) (x, y)) with
    | some (x1, _) => decide (x1 % p256N = r)
    | none => false

end Sys2Proof.Machine
end

