-- ==== Sys2Proof/Machine/Image.lean ====
section
/-!
DEFINITION. Pynal images: the records (R45-R61) and the checks of pass 1 in the order of R69. A check of an image
answers the code it fails with.
-/

namespace Sys2Proof.Machine

/-! ### Records -/

/-- One record of an image (R45). -/
structure Rec where
  /-- TYPE -/
  ty : Nat := 0
  /-- FLAGS -/
  flags : Nat := 0
  /-- STAGE -/
  stage : Nat := 0
  /-- the reserved byte 0x03 -/
  rsv : Nat := 0
  /-- LENGTH -/
  len : Nat := 0
  /-- SEQ -/
  seq : Nat := 0
  /-- CRC -/
  crc : Word := 0
  /-- header bytes 0x00-0x0B -/
  head : List Byte := []
  /-- offset of the header in the image -/
  pos : Nat := 0
  /-- the payload as stored -/
  stored : List Byte := []
  /-- it extends beyond TOTAL_LEN -/
  cut : Bool := false
  /-- the payload after decryption (R63) -/
  data : List Byte := []
  /-- the payload can be read: it is not encrypted, or its tag is right -/
  known : Bool := true

/-- An image as the load engine reads it. -/
structure Image where
  /-- KIND: 0 full, 1 stage -/
  kind : Nat := 0
  /-- TARGET -/
  target : Nat := 0
  /-- IMAGE_VERSION -/
  version : Word := 0
  /-- RECORDS of the HEADER -/
  records : Nat := 0
  /-- the bytes of the image, TOTAL_LEN of them -/
  bytes : List Byte := []
  /-- the records in image order -/
  recs : List Rec := []

/-- A little-endian field of `n` bytes at an offset; bytes beyond the end read 0. -/
def fieldAt (p : List Byte) (o n : Nat) : Nat := leNat ((p.drop o).take n)

/-- The payload of a record decrypted (R63).
[log 51 DEDUCED] -/
def Rec.opened (key : Option (BitVec 256)) (r : Rec) : Rec :=
  if r.flags % 2 = 0 then { r with data := r.stored, known := !r.cut }
  else if r.cut || decide (r.len < 28) then { r with known := false }
  else
    match key.bind fun k => gcmOpen k r.head r.stored with
    | some d => { r with data := d }
    | none => { r with known := false }

/-- The records of `bs`, at most `n` of them, from offset `pos`. A record that extends beyond the end is the last.
[log 50 DEDUCED] -/
def readRecs (key : Option (BitVec 256)) : Nat → Nat → List Byte → List Rec
  | 0, _, _ => []
  | n + 1, pos, bs =>
    if bs.isEmpty then []
    else
      let len := fieldAt bs 4 4
      let cut := decide (bs.length < 16 + len)
      let r : Rec :=
        { ty := fieldAt bs 0 1, flags := fieldAt bs 1 1, stage := fieldAt bs 2 1, rsv := fieldAt bs 3 1, len := len
          seq := fieldAt bs 8 4, crc := wd (fieldAt bs 12 4), head := bs.take 12, pos := pos
          stored := if cut then [] else (bs.drop 16).take len, cut := cut }
      r.opened key :: (if cut then [] else readRecs key n (pos + 16 + len) (bs.drop (16 + len)))

/-- TOTAL_LEN of the HEADER at the start of `bs` (R48). -/
def totalLen (bs : List Byte) : Nat := fieldAt bs 32 8

/-- The image at the start of `bs`.
[log 161 DESIGN CHOICE] -/
def readImage (key : Option (BitVec 256)) (bs : List Byte) : Image :=
  let b := bs.take (totalLen bs)
  { kind := fieldAt bs 22 1, target := fieldAt bs 23 1, version := wd (fieldAt bs 24 4), records := fieldAt bs 28 4
    bytes := b, recs := readRecs key (b.length / 16 + 1) 0 b }

/-- The records of a TYPE for a STAGE, in image order. -/
def Image.of (m : Image) (ty i : Nat) : List Rec := m.recs.filter fun r => r.ty == ty && r.stage == i

/-- The payload of the first record of a TYPE for a STAGE. -/
def Image.one (m : Image) (ty i : Nat) : Option (List Byte) := (m.of ty i).head?.map Rec.data

/-- The stages of an image, in the order of their FLOORPLAN records (R73). -/
def Image.stages (m : Image) : List Nat := ((m.recs.filter fun r => r.ty == 2 && decide (r.stage < 4)).map Rec.stage).eraseDups

/-- The rank of a TYPE (R47). -/
def rankOf (ty : Nat) : Nat := [14, 0, 1, 3, 10, 5, 11, 2, 4, 6, 8, 9, 7, 14, 12, 13].getD ty 14

/-- The TYPE is reserved (R46). -/
def typeReserved (ty : Nat) : Bool := rankOf ty == 14

/-! ### Fields -/

/-- An entry of a FLOORPLAN record (R48, R50). -/
structure FloorEntry where
  /-- KIND -/
  kind : Nat := 0
  /-- LINDEX -/
  lindex : Nat := 0
  /-- SECTOR, 0xFF for any -/
  sector : Nat := 0xFF
  /-- UNIT, 0xFF for any -/
  unit : Nat := 0xFF
  /-- COUNT -/
  count : Nat := 0
  deriving DecidableEq, Repr

/-- Items of `size` bytes from offset `o` that the payload holds whole, at most `n`. -/
def items (p : List Byte) (o size n : Nat) : List (List Byte) :=
  (List.range (min n ((p.length - o) / size))).map fun k => (p.drop (o + size * k)).take size

/-- The entries of a FLOORPLAN. -/
def floorEntries (p : List Byte) : List FloorEntry :=
  (items p 24 8 (fieldAt p 1 1)).map fun e =>
    { kind := fieldAt e 0 1, lindex := fieldAt e 1 1, sector := fieldAt e 2 1, unit := fieldAt e 3 1, count := fieldAt e 4 2 }

/-- The raster timing of a PORT_TIMING payload (R53). -/
def timingOf (p : List Byte) : Timing :=
  let f : Word := wd (fieldAt p 6 2)
  { pixclk := fieldAt p 8 4, htotal := fieldAt p 12 2, hactive := fieldAt p 14 2, hss := fieldAt p 16 2, hse := fieldAt p 18 2
    vtotal := fieldAt p 20 2, vactive := fieldAt p 22 2, vss := fieldAt p 24 2, vse := fieldAt p 26 2
    outputs := fieldAt p 2 1, lanes := fieldAt p 3 1, rate := fieldAt p 4 1, bpc := fieldAt p 5 1
    interlace := bit f 0, hpos := bit f 1, vpos := bit f 2, sync := fld f 3 2, late := bit f 5, compat := bit f 6
    colour := fld f 7 2, latchLine := fieldAt p 28 2, latTol := fieldAt p 32 4 }

/-- The window of an entry of a WINDOW_MAP payload. -/
def windowOf (e : List Byte) : Window :=
  let a : Word := wd (fieldAt e 10 1)
  { base := fieldAt e 0 8, mib := fieldAt e 8 2, valid := bit a 0, r := bit a 1, w := bit a 2, x := bit a 3, c := bit a 4 }

/-- A run of a UNIT_INIT payload: OFFSET, COUNT, the words. -/
def initRuns : Nat → List Byte → List (Nat × Nat × List Byte)
  | 0, _ => []
  | n + 1, p =>
    if p.length < 8 then []
    else
      let c := fieldAt p 4 4
      (fieldAt p 0 4, c, (p.drop 8).take (4 * c)) :: initRuns n (p.drop (8 + 4 * c))

/-- The runs of a UNIT_INIT record. -/
def Rec.runs (r : Rec) : List (Nat × Nat × List Byte) := initRuns (r.data.length / 8 + 1) r.data

/-- A stage as the image defines it, before its bindings are formed (R48-R60). -/
def Image.plan (m : Image) (i : Nat) : Stage :=
  let fp := (m.one 2 i).getD []
  let ports : Word := wd (fieldAt fp 0 1)
  let tim (role : Nat) : Option Timing := ((m.of 3 i).find? fun r => fieldAt r.data 1 1 == role).map fun r => timingOf r.data
  let au := m.one 9 i
  let pol := m.one 7 i
  { loaded := true, phase := .loaded, portA := fld ports 0 2, portB := fld ports 2 2, twin := bit ports 4
    lpxWeight := fieldAt fp 2 1, slots := (List.range 4).map fun k => fieldAt fp (4 + k) 1
    qiOwn := BitVec.ofNat 64 (fieldAt fp 8 8), goOwn := BitVec.ofNat 32 (fieldAt fp 16 4)
    beam := { primary := (tim 0).getD {}, fallback := tim 1 }
    windows := (m.of 8 i).foldl (fun w r => sset (fun _ => ([] : List Window)) w (fieldAt r.data 0 1) ((items r.data 8 16 16).map windowOf)) []
    segs := (m.of 5 i).map fun r => { idx := fieldAt r.data 1 1, base := fieldAt r.data 8 8, size := fieldAt r.data 16 8 }
    pipCode := (m.of 6 i).foldl (fun c r => sset (fun _ => ({} : PipCode)) c (fieldAt r.data 0 1)
      { entry := wd (fieldAt r.data 4 4), stack := wd (fieldAt r.data 8 4), fmode := bit (wd (fieldAt r.data 1 1)) 0 }) []
    rateCode := (au.map fun p => fieldAt p 0 1).getD 0, lockNum := (au.map fun p => fieldAt p 4 2).getD 0
    lockDen := (au.map fun p => fieldAt p 6 2).getD 0
    dests := (au.map fun p => (items p 8 4 (fieldAt p 1 1)).map fun e => fieldAt e 1 1).getD []
    drops := (m.of 12 i).flatMap fun r => (items r.data 4 4 (fieldAt r.data 1 1)).map fun e =>
      (fieldAt r.data 0 1, fieldAt e 0 1, bit (wd (fieldAt e 2 1)) 0)
    shedList := (pol.map fun p => ((List.range 8).map fun k =>
      ({ action := fieldAt p (4 * k) 1, lindex := fieldAt p (4 * k + 1) 1, voices := fieldAt p (4 * k + 2) 2 } : ShedStep)).filter (·.action != 0)).getD [] }

/-- The spares of the POLICY device part: rows of FACET, DRUPE, PRISM, CHORD, PIP, PRESS, VOICES (R51). -/
def Image.spares (m : Image) : List (List Nat) :=
  match m.one 7 0xFF with
  | some p => (List.range 4).map fun s => ((List.range 6).map fun k => fieldAt p (8 * s + k) 1) ++ [fieldAt p (8 * s + 6) 2]
  | none => []

/-! ### Structure: BAD_MAGIC to BAD_LENGTH -/

/-- `MAGIC` and FORMAT (R48). -/
def badMagic (bs : List Byte) : Bool := fieldAt bs 16 4 != 0x4C4E5950 || fieldAt bs 20 2 != 1

/-- KIND and TARGET suit the load: a full load, or a load of stage `tgt` (R69, R451).
[log 158 DESIGN CHOICE] -/
def badKind (bs : List Byte) (tgt : Option Nat) : Bool :=
  match tgt with
  | none => fieldAt bs 22 1 != 0 || fieldAt bs 23 1 != 0xFF
  | some i => fieldAt bs 22 1 != 1 || fieldAt bs 23 1 != i

/-- The CRC of a record fails (R45). -/
def Rec.badCrc (r : Rec) : Bool := !r.cut && r.crc != crc32c (r.head ++ r.stored)

/-- BAD_TYPE (R46, R63). -/
def Rec.badType (r : Rec) : Bool :=
  typeReserved r.ty || (r.flags % 2 == 1 && (r.ty == 1 || r.ty == 14 || r.ty == 15))

/-- The bits of a byte at an offset under a mask are not all 0. -/
def dirty (p : List Byte) (o mask : Nat) : Bool := (fieldAt p o 1) &&& mask != 0

/-- Some of `n` bytes at an offset is not 0. -/
def dirtyN (p : List Byte) (o n : Nat) : Bool := ((p.drop o).take n).any (· != 0)

/-- A reserved bit of the payload is not 0 (R46, R48-R60). -/
def Rec.badBits (r : Rec) : Bool :=
  let p := r.data
  match r.ty with
  | 1 => dirtyN p 0x1C 4
  | 2 => dirty p 0 0xE0 || dirtyN p 3 1 || dirtyN p 0x14 4 || (items p 24 8 (fieldAt p 1 1)).any fun e => dirtyN e 6 2
  | 3 => dirty p 2 0xF8 || dirty p 7 0xFE || dirtyN p 0x1E 2 || dirtyN p 0x24 4
  | 5 => dirtyN p 3 5 || dirty p 0x1B 0xC0 || dirtyN p 0x1C 4
  | 6 => dirty p 1 0xFC || dirtyN p 2 2 || dirtyN p 0xC 4 || dirtyN p 0x1C 4 || dirtyN p (0x20 + fieldAt p 0x18 4) ((4 - fieldAt p 0x18 4 % 4) % 4)
  | 7 => r.stage == 0xFF && (dirty p 0x20 0xFE || dirtyN p 0x21 3)
  | 8 => dirtyN p 1 7 || (items p 8 16 16).any fun e => dirty e 10 0xE0 || dirtyN e 11 5
  | 9 => dirtyN p 2 2 || (items p 8 4 (fieldAt p 1 1)).any fun e => dirtyN e 3 1
  | 10 => dirtyN p 0 4 || (items p 4 16 8).any fun e => dirty e 0 0xFC || dirtyN e 1 1 || dirtyN e 10 2
  | 11 => dirtyN p 1 1
  | 12 => if r.stage = 0xFF then dirtyN p 3 1
      else dirtyN p 2 2 || (items p 4 4 (fieldAt p 1 1)).any fun e => dirty e 2 0xFE || dirtyN e 3 1
  | 14 => dirtyN p 1 3
  | 15 => dirtyN p 4 4
  | _ => false

/-- A field that R451 rejects with BAD_RESERVED.
[log 54 DESIGN CHOICE] -/
def Rec.badValue (r : Rec) : Bool :=
  let p := r.data
  match r.ty with
  | 3 => decide (1 < fieldAt p 1 1)
  | 5 => decide (1 < fieldAt p 0 1) || decide (15 < fieldAt p 1 1) || decide (3 < fieldAt p 2 1)
  | 9 =>
    let rate := fieldAt p 0 1
    decide (2 < rate) || decide (8 < fieldAt p 1 1) ||
      (if rate = 2 then decide (8 ≤ p.length) && fieldAt p 6 2 == 0 else dirtyN p 4 4) ||
      (items p 8 4 (fieldAt p 1 1)).any fun e =>
        let d := fieldAt e 1 1
        decide (3 < fieldAt e 0 1) || decide (3 < fieldAt e 2 1) || ((d == 4 || d == 5) && fieldAt e 2 1 != 0)
  | 12 =>
    decide (1 < fieldAt p 0 1) ||
      if r.stage = 0xFF then (decide (4 ≤ fieldAt p 1 1) && fieldAt p 1 1 != 0xFF) || decide (2 < fieldAt p 2 1)
      else (decide (4 ≤ p.length) && fieldAt p 1 1 == 0) || decide (31 < fieldAt p 1 1) ||
        (items p 4 4 (fieldAt p 1 1)).any fun e =>
          fieldAt e 0 1 == 0 || decide (31 < fieldAt e 0 1) || decide (fieldAt e 1 1 < 2)
  | 4 => r.runs.any fun u => u.1 % 4 != 0 || u.2.1 == 0
  | _ => false

/-- BAD_RESERVED (R46, R451). -/
def Rec.badReserved (r : Rec) : Bool :=
  decide (1 < r.flags) || r.rsv != 0 || (r.known && (r.badBits || r.badValue))

/-- STAGE of a record is one its TYPE and the image allow (R47). -/
def Image.badStage (m : Image) (r : Rec) : Bool :=
  if r.ty = 1 ∨ r.ty = 14 ∨ r.ty = 15 then r.stage != 0xFF
  else if m.kind = 1 then r.stage != m.target
  else if (r.ty = 7 ∨ r.ty = 12) ∧ r.stage = 0xFF then false
  else !m.stages.contains r.stage

/-- BAD_ORDER (R47). -/
def Image.badOrder (m : Image) : Bool :=
  m.recs.zipIdx.any (fun e => e.1.seq != e.2 || m.badStage e.1) ||
    (m.recs.zip (m.recs.drop 1)).any fun e => decide (rankOf e.2.ty < rankOf e.1.ty)

/-- A list holds a value twice. -/
def repeats (l : List Nat) : Bool := l.eraseDups.length != l.length

/-- The counts of one stage (R47). What stands in a payload that cannot be read is not counted; `whole` says that no record
extends beyond TOTAL_LEN, so that none is missing.
[log 51 DEDUCED] -/
def Image.badStageCount (m : Image) (whole : Bool) (i : Nat) : Bool :=
  let n (ty : Nat) := (m.of ty i).length
  let read (ty : Nat) := (m.of ty i).filter Rec.known
  let all (ty : Nat) := whole && (m.of ty i).all Rec.known
  let roles := (read 3).map fun r => fieldAt r.data 1 1
  let pips := ((floorEntries ((m.one 2 i).getD [])).filter (·.kind == 5)).map FloorEntry.lindex
  let maps := (read 8).map fun r => fieldAt r.data 0 1
  decide (1 < n 2) || decide (1 < n 7) || decide (16 < n 5) || decide (1 < n 9) || decide (1 < n 10) ||
    decide (1 < roles.count 0) || (all 3 && roles.count 0 == 0) || decide (1 < roles.count 1) ||
    repeats ((read 5).map fun r => fieldAt r.data 1 1) || repeats ((read 12).map fun r => fieldAt r.data 0 1) || repeats maps ||
    (all 2 && (!maps.all pips.contains || (all 8 && !pips.all maps.contains)))

/-- BAD_COUNT (R47, R451). While a record extends beyond TOTAL_LEN the image has no END to count to (R48), and no record counts
as missing.
[log 50 DEDUCED, 161 DESIGN CHOICE] -/
def Image.badCount (m : Image) : Bool :=
  let whole := !m.recs.any Rec.cut
  let n (ty : Nat) := (m.recs.filter (·.ty == ty)).length
  let last := m.recs.getLast?
  (m.recs.head?.map Rec.ty) != some 1 || decide (1 < n 1) || decide (1 < n 15) || decide (1 < n 14) ||
    (m.recs.dropLast.any fun r => r.ty == 15) || decide (m.records < m.recs.length) ||
    (whole && ((last.map Rec.ty) != some 15 || m.records != m.recs.length || (last.map fun r => fieldAt r.data 0 4) != some m.records)) ||
    (if m.kind = 1 then whole && m.stages != [m.target]
     else decide (1 < (m.of 7 0xFF).length) || (whole && (m.of 7 0xFF).length == 0)) ||
    repeats ((m.of 12 0xFF).filter Rec.known |>.map fun r => fieldAt r.data 0 1) || m.stages.any (m.badStageCount whole)

/-- The payload has the length its TYPE requires (R48, R54, R60).
[log 159 DESIGN CHOICE] -/
def Rec.lengthOk (r : Rec) : Bool :=
  let p := r.data
  let n := p.length
  match r.ty with
  | 1 => n == 32
  | 2 => n == 24 + 8 * fieldAt p 1 1
  | 3 => n == 40
  | 4 => decide (0 < n) && (r.runs.foldl (fun k u => k + 8 + 4 * u.2.1) 0) == n
  | 5 => if fieldAt p 2 1 = 2 then decide (32 ≤ n) && n % 4 == 0 && decide (n ≤ 32 + fieldAt p 16 8) else n == 32
  | 6 => decide (32 ≤ n) && n == 32 + (fieldAt p 24 4 + 3) / 4 * 4
  | 7 => if r.stage = 0xFF then n == 36 else n == 40
  | 8 => n == 264
  | 9 => n == 8 + 4 * fieldAt p 1 1
  | 10 => n == 132
  | 11 => decide (4 ≤ n) && n == 4 + 4 * fieldAt p 2 2
  | 12 => if r.stage = 0xFF then n == 4 else decide (4 ≤ n) && n == 4 + 4 * fieldAt p 1 1
  | 14 => n == 132
  | 15 => n == 8
  | _ => true

/-- The length of the payload after decryption (R48, R63). -/
def Rec.plainLen (r : Rec) : Nat := if r.flags % 2 = 1 then r.len - 28 else r.len

/-- BAD_LENGTH (R48).
[log 50 DEDUCED, 161 DESIGN CHOICE] -/
def Image.badLength (m : Image) : Bool :=
  m.recs.any (fun r => r.cut || r.len % 4 != 0 || (r.flags % 2 == 1 && decide (r.len < 28)) || (r.known && !r.lengthOk)) ||
    decide (0x10000 < (m.recs.filter fun r => decide (1 ≤ rankOf r.ty) && decide (rankOf r.ty ≤ 9)).foldl (fun n r => n + r.plainLen) 0)

/-! ### Signing and encryption (R62, R63) -/

/-- The codes KEY_FUSE to BAD_SIGNATURE (R62).
[log 48 DEDUCED] -/
def Image.badSign (m : Image) (f : Fuses) : Option Nat :=
  match f.secure, f.keyHash, m.recs.find? (·.ty == 14) with
  | true, none, _ => some 0x10
  | _, some _, none => some 0x11
  | _, none, none => none
  | _, k, some r =>
    let pub := (r.data.drop 4).take 64
    if (k.map fun h => beNat (sha256 pub) != h.toNat) = some true then some 0x12
    else if fieldAt r.data 0 1 != 1 || !ecdsaOk pub (m.bytes.take r.pos) ((r.data.drop 0x44).take 32) ((r.data.drop 0x64).take 32) then
      some 0x13
    else none

/-! ### The pool: UNIT_COUNT to SPARE_SHORT -/

/-- The stages that are not replaced, as they are bound (R69). -/
def State.others (s : State) (m : Image) : List Stage :=
  (upto 4 fun j => m.kind = 1 && j != m.target && s.holds j).map s.stage

/-- The spares in force for the checks: the image's own, or those of the last full load (R51). -/
def State.sparesFor (s : State) (m : Image) : List (List Nat) := if m.kind = 1 then s.load.spares else m.spares

/-- Spares of a KIND in a Sector. -/
def spareOf (sp : List (List Nat)) (k sec : Nat) : Nat := (sp.getD sec []).getD ([0, 1, 2, 3, 5, 4, 6].getD k 7) 0

/-- The entries of a stage in the image. -/
def Image.entries (m : Image) (i : Nat) : List FloorEntry := floorEntries ((m.one 2 i).getD [])

/-- A field of an entry is out of range (R50, R451).
[log 52 DESIGN CHOICE] -/
def FloorEntry.bad (e : FloorEntry) : Bool :=
  decide (7 < e.kind) || decide (kindIndices e.kind ≤ e.lindex) || (decide (3 < e.sector) && e.sector != 0xFF) ||
    (e.sector == 0xFF && e.unit != 0xFF && e.kind != 6) || (e.kind == 6 && e.unit != 0 && e.unit != 0xFF) ||
    (e.unit != 0xFF && decide (kindUnits e.kind ≤ e.unit)) ||
    (if e.kind = 6 then e.count == 0 || decide (320 < e.count) else e.count != 0)

/-- Bound units of a KIND in the other stages, in a Sector or in all. -/
def boundUnits (others : List Stage) (k : Nat) (sec : Option Nat) : Nat :=
  others.foldl (fun n st => n + (st.binds.filter fun e => e.2.bound && kindOf e.1 == k && (sec.isNone || sec == some e.2.sector)).length) 0

/-- UNIT_COUNT (R50, R69, R451, R452). -/
def State.badUnits (s : State) (m : Image) : Bool :=
  let all := m.stages.flatMap m.entries
  m.stages.any (fun i =>
    let es := m.entries i
    let n (k : Nat) := (es.filter (·.kind == k)).length
    es.isEmpty || decide (72 < es.length) || es.any FloorEntry.bad || n 2 != 1 || n 3 != 1 ||
      (List.range 7).any (fun k => repeats ((es.filter (·.kind == k)).map FloorEntry.lindex)) || decide (32 < n 7)) ||
  (List.range 6).any (fun k =>
    decide (4 * kindUnits k < (all.filter (·.kind == k)).length + boundUnits (s.others m) k none +
      (List.range 4).foldl (fun n c => n + spareOf (s.sparesFor m) k c) 0)) ||
  decide (32 < (all.filter (·.kind == 7)).length + (s.others m).foldl (fun n st => n + st.timers.length) 0)

/-- STAGE_MAX (R15, R69). -/
def Image.badVoiceMax (m : Image) : Bool :=
  m.stages.any fun i => decide (1024 < ((m.entries i).filter (·.kind == 6)).foldl (fun n e => n + e.count) 0)

/-- SPARE_SHORT (R69).
[log 53 DESIGN CHOICE] -/
def State.badSpares (s : State) (m : Image) : Bool :=
  let all := m.stages.flatMap m.entries
  (List.range 6).any fun k => (List.range 4).any fun c =>
    decide (kindUnits k < (all.filter fun e => e.kind == k && e.sector == c).length + boundUnits (s.others m) k (some c) +
      spareOf (s.sparesFor m) k c)

/-! ### Ports, timing, partitions and windows -/

/-- The ports of a stage. -/
def Stage.ports (st : Stage) : List Nat := if st.twin then [st.portA, st.portB] else [st.portA]

/-- PORT_CONFLICT (R50, R69, R451). -/
def State.badPorts (s : State) (m : Image) : Bool :=
  let mine := m.stages.map m.plan
  repeats ((s.others m ++ mine).flatMap Stage.ports) ||
    mine.any (fun st => if st.twin then st.portA % 2 != 0 || st.portB != st.portA + 1 else st.portB != st.portA) ||
    m.stages.any fun i => (m.of 3 i).any fun r => fieldAt r.data 0 1 != (m.plan i).portA

/-- PORT_TIMING (R53, R105). -/
def Image.badTiming (m : Image) : Bool :=
  m.stages.any fun i => (m.of 3 i).any fun r => !((timingOf r.data).ok53 (m.plan i).twin && (timingOf r.data).ok105 (m.plan i).twin)

/-- Two ranges of addresses meet. -/
def meet (a n b k : Nat) : Bool := decide (0 < n) && decide (0 < k) && decide (a < b + k) && decide (b < a + n)

/-- Some two of the segments overlap. -/
def segsOverlap : List Seg → Bool
  | [] => false
  | g :: r => (r.any fun h => meet g.base g.size h.base h.size) || segsOverlap r

/-- PARTITION_OVERLAP (R54, R68); `src` is the range of an LP5X source. -/
def State.badOverlap (s : State) (m : Image) (src : Option (Nat × Nat)) : Bool :=
  let mine := m.stages.flatMap fun i => (m.plan i).segs
  segsOverlap ((s.others m).flatMap Stage.segs ++ mine) ||
    match src with
    | some (a, n) => mine.any fun g => meet g.base g.size a n
    | none => false

/-- A range of the Orchard touches a shadow region (R36, R78). -/
def touchesShadow (a n : Nat) : Bool := (List.range 4).any fun k => meet a n (k * 0x2000000 + 0x1F00000) 0x100000

/-- A segment out of range, with usable LP5X of `raw` GiB, or a run of asset blocks beyond the 2^30 that a block number can name
(R54, R451).
[log 164 DESIGN CHOICE] -/
def segBad (raw : Nat) (r : Rec) : Bool :=
  let base := fieldAt r.data 8 8
  let size := fieldAt r.data 16 8
  base % 0x1000 != 0 || size % 0x1000 != 0 || size == 0 ||
    (fieldAt r.data 2 1 == 3 && decide (0x40000000 < fieldAt r.data 0x18 4 + size / 0x1000)) ||
    if fieldAt r.data 0 1 = 0 then decide (0x8000000 < base + size) || touchesShadow base size
    else decide (base < 0x100000000) || decide (0x100000000 + lpxUsable raw < base + size)

/-- PARTITION_RANGE (R54). -/
def Image.badRange (m : Image) (raw : Nat) : Bool := m.stages.any fun i => (m.of 5 i).any (segBad raw)

/-- What a list of segments leaves of a list of ranges. -/
def leftOver (segs : List Seg) (rs : List (Nat × Nat)) : List (Nat × Nat) :=
  segs.foldl (fun (rs : List (Nat × Nat)) g => (rs.flatMap fun (r : Nat × Nat) =>
    [(r.1, min r.2 (g.base - r.1)), (max r.1 (g.base + g.size), r.1 + r.2 - max r.1 (g.base + g.size))]).filter fun r => decide (0 < r.2)) rs

/-- The part of the range `a … a + n - 1` within `b … b + k - 1`. -/
def clip (a n b k : Nat) : Nat × Nat := (max a b, min (a + n) (b + k) - max a b)

/-- A window of stage `i` breaks R38 or R39. -/
def windowBad (i : Nat) (segs : List Seg) (w : Window) : Bool :=
  let n := w.mib * 0x100000
  w.base % 0x100000 != 0 || decide (0x10000000000 ≤ w.base) ||
    if !w.valid then w.mib != 0
    else
      w.mib == 0 || decide (256 < w.mib) || decide (0x10000000000 < w.base + n) || meet w.base n 0x10000000 0x2000000 ||
        meet w.base n 0x20000000 0x40000 || touchesShadow w.base n ||
        (List.range 4).any (fun j => j != i && meet w.base n (0x12000000 + 0x400000 * j) 0x400000) ||
        !(leftOver segs ([clip w.base n 0 0x8000000, clip w.base n 0x100000000 0x800000000].filter fun r => decide (0 < r.2))).isEmpty

/-- WINDOW_ILLEGAL (R38, R39, R451). -/
def Image.badWindows (m : Image) : Bool :=
  m.stages.any fun i => (m.of 8 i).any fun r =>
    decide (7 < fieldAt r.data 0 1) || ((items r.data 8 16 16).map windowOf).any (windowBad i (m.plan i).segs)

/-! ### Shares, voices and owners -/

/-- BANDWIDTH (R69, R451). -/
def State.badBandwidth (s : State) (m : Image) : Bool :=
  let mine := m.stages.map m.plan
  mine.any (fun st => st.lpxWeight == 0 || st.slots.any fun n => decide (63 < n)) ||
    (List.range 4).any fun c => decide (63 < (s.others m ++ mine).foldl (fun n st => n + st.slots.getD c 0) 0)

/-- A Bramble entry placed in the clusters, whose loads in voices × Hz stand in `used`: the named cluster first,
then the lowest that can hold it; `can` says which clusters may be taken (R56, R73). -/
def placeVoices (used : List Rat) (can : Nat → Bool) (e : FloorEntry) (rate : Rat) : Option Nat :=
  (e.sector :: List.range 4).find? fun c => decide (c < 4) && can c && decide (used.getD c 0 + e.count * rate ≤ clusterCap)

/-- The loads of the clusters by the spare slots and the other stages (R56). -/
def State.baseVoices (s : State) (m : Image) : List Rat :=
  (List.range 4).map fun c => (s.others m).foldl (fun n st =>
    (st.binds.filter fun e => kindOf e.1 == 6 && e.2.bound && e.2.sector == c).foldl (fun n e => n + e.2.count * st.voiceRate) n)
      ((spareOf (s.sparesFor m) 6 c : Nat) * 48000 : Rat)

/-- VOICE_CAPACITY (R56): every cluster counts as healthy.
[log 53 DESIGN CHOICE] -/
def State.badVoices (s : State) (m : Image) : Bool :=
  let base := s.baseVoices m
  let es := m.stages.flatMap fun i => ((m.entries i).filter (·.kind == 6)).map fun e => (e, (m.plan i).voiceRate)
  base.any (fun n => decide (clusterCap < n)) ||
    (es.foldl (fun (u : Option (List Rat)) (e : FloorEntry × Rat) => u.bind fun used =>
      (placeVoices used (fun _ => true) e.1 e.2).map fun c => used.set c (used.getD c 0 + e.1.count * e.2)) (some base)).isNone

/-- The channel a timer entry names (R452). -/
def FloorEntry.channel (e : FloorEntry) : Option Nat :=
  if e.kind = 7 ∧ e.sector < 4 ∧ e.unit < 8 then some (8 * e.sector + e.unit) else none

/-- OWNER_CONFLICT (R55, R57, R452). -/
def State.badOwners (s : State) (m : Image) : Bool :=
  let mine := m.stages.map m.plan
  let all := s.others m ++ mine
  let named := (m.stages.flatMap m.entries).filterMap FloorEntry.channel
  repeats (((s.others m).flatMap Stage.timers).eraseDups ++ named) ||
    repeats (all.flatMap fun st => upto 64 fun k => st.qiOwn.getLsbD k) ||
    repeats (all.flatMap fun st => upto 32 fun k => st.goOwn.getLsbD k) ||
    repeats (all.flatMap fun st => (st.drops.map fun d => 32 * d.1 + d.2.1).eraseDups) ||
    repeats (all.flatMap fun st => (st.dests.filter fun d => decide (d ≤ 5)).eraseDups) ||
    mine.any fun st => st.dests.any (fun d => decide (6 < d)) ||
      (st.rateCode == 2 && !(decide (32000 ≤ st.voiceRate) && decide (st.voiceRate ≤ 96000)))

/-! ### The rest: BAD_POLICY to BAD_PIP_CODE -/

/-- The enabled regions of a stage: number and payload (R58). -/
def Image.regions (m : Image) (i : Nat) : List (Nat × List Byte) :=
  ((List.range 8).zip (items ((m.one 10 i).getD []) 4 16 8)).filter fun e => fieldAt e.2 0 1 % 2 == 1

/-- Logical units that the step of an ACTION can name by LINDEX (R50): layers, sprite planes, Pips. -/
def stepIndices : Nat → Option Nat
  | 1 => some 16
  | 2 => some 8
  | 4 => some 8
  | _ => none

/-- The shed steps of a POLICY stage part, ACTION and LINDEX, are defined, and none follows an unused one (R50, R451). -/
def stepsOk : List (Nat × Nat) → Bool
  | [] => true
  | a :: r => decide (a.1 ≤ 6) && (a.1 != 0 || r.all (·.1 == 0)) && (stepIndices a.1).all (fun n => decide (a.2 < n)) && stepsOk r

/-- BAD_POLICY (R50-R52, R451). -/
def Image.badPolicy (m : Image) : Bool :=
  m.spares.any (fun row => decide (1 < row.getD 5 0) || decide (320 < row.getD 6 0)) ||
    m.stages.any fun i =>
      let on := (m.regions i).map Prod.fst
      match m.one 7 i with
      | none => !on.isEmpty
      | some p => !stepsOk ((List.range 8).map fun k => (fieldAt p (4 * k) 1, fieldAt p (4 * k + 1) 1)) ||
          (List.range 8).any fun r => decide (3 < fieldAt p (0x20 + r) 1) || (fieldAt p (0x20 + r) 1 == 0 && on.contains r)

/-- BAD_GUARD (R58). -/
def Image.badGuard (m : Image) : Bool :=
  m.stages.any fun i =>
    let t := (m.plan i).beam.primary
    (m.regions i).any fun e =>
      !(decide (fieldAt e.2 2 2 ≤ fieldAt e.2 6 2) && decide (fieldAt e.2 4 2 ≤ fieldAt e.2 8 2) &&
        decide (fieldAt e.2 6 2 < t.hactive) && decide (fieldAt e.2 8 2 < t.vactive))

/-- A word at a stage-window offset lies where UNIT_INIT may write (R59). -/
def initAllowed (es : List FloorEntry) (o : Nat) : Bool :=
  es.any fun e => if e.kind = 6 then decide (0x200000 ≤ o) && decide (o < 0x300000)
    else decide (e.kind < 5) && o / 0x10000 == [1, 0x11, 0x19, 0x1A, 0x1B].getD e.kind 0 + e.lindex

/-- BAD_INIT (R59).
[log 54 DESIGN CHOICE] -/
def Image.badInit (m : Image) : Bool :=
  m.stages.any fun i => (m.of 4 i).any fun r => r.runs.any fun u =>
    !(List.range u.2.1).all fun k => initAllowed (m.entries i) (u.1 + 4 * k)

/-- BAD_FENCE (R451). -/
def Image.badFence (m : Image) : Bool :=
  m.stages.any fun i => (m.of 11 i).any fun r =>
    let c := fieldAt r.data 2 2
    c == 0 || decide (256 < c) || decide (256 < fieldAt r.data 0 1 + c)

/-- ENTRY lies in the seed or maps to a valid executable window (R60). -/
def entryOk (ws : List Window) (entry : Nat) : Bool :=
  entry % 4 == 0 && (decide (0xFFFF0000 ≤ entry) ||
    let w := ws.getD (entry / 0x10000000) {}
    w.valid && w.x && decide (entry % 0x10000000 < w.mib * 0x100000))

/-- BAD_PIP_CODE (R60).
[log 160 DESIGN CHOICE] -/
def Image.badPipCode (m : Image) : Bool :=
  m.stages.any fun i =>
    let st := m.plan i
    let pips := ((m.entries i).filter (·.kind == 5)).map FloorEntry.lindex
    (m.of 6 i).any fun r =>
      let p := r.data
      let n := fieldAt p 0 1
      let dest := fieldAt p 0x10 8
      let len := fieldAt p 0x18 4
      let same := ((m.of 6 i).find? fun q => fieldAt q.data 0 1 == n).map fun q =>
        fieldAt q.data 1 1 % 2 == fieldAt p 1 1 % 2 && fieldAt q.data 4 8 == fieldAt p 4 8
      !pips.contains n || same == some false || !entryOk (sget (fun _ => []) st.windows n) (fieldAt p 4 4) ||
        !(if fieldAt p 1 1 / 2 % 2 = 1 then decide (dest + len ≤ 0x10000)
          else st.segs.any fun g => decide (g.base ≤ dest) && decide (dest + len ≤ g.base + g.size))

/-! ### Pass 1 -/

/-- The first code whose check fails.
[log 51 DEDUCED] -/
def firstBad : List (Nat × Bool) → Option Nat
  | [] => none
  | (c, b) :: r => if b then some c else firstBad r

/-- Raw LP5X in GiB as pass 1 counts it: before the first training the largest the device supports, and the segments
are checked again when training has found it (R54, R71, R85).
[log 49 DEDUCED] -/
def State.rawNow (s : State) : Nat := if s.lpx.rawGib = 0 then 32 else s.lpx.rawGib

/-- The checks of R69 on an image whose HEADER has passed its own, in the order of the table.
[log 55 DEDUCED] -/
def State.judge (s : State) (m : Image) (src : Option (Nat × Nat)) : Option Nat :=
  match firstBad [(3, m.recs.any Rec.badCrc), (4, m.recs.any Rec.badType), (5, m.recs.any Rec.badReserved),
      (6, m.badOrder), (7, m.badCount), (8, m.badLength)] with
  | some c => some c
  | none =>
    match m.badSign s.fuses with
    | some c => some c
    | none =>
      let enc := m.recs.filter fun r => r.flags % 2 == 1
      firstBad [(0x14, !enc.isEmpty && s.fuses.imageKey.isNone), (0x15, enc.any fun r => !r.known),
        (0x20, s.badUnits m), (0x21, m.badVoiceMax), (0x22, s.badSpares m), (0x23, s.badPorts m), (0x24, m.badTiming),
        (0x25, s.badOverlap m src), (0x26, m.badRange s.rawNow), (0x27, m.badWindows), (0x28, s.badBandwidth m),
        (0x29, s.badVoices m), (0x2A, s.badOwners m), (0x2B, m.badPolicy), (0x2C, m.badGuard), (0x2D, m.badInit),
        (0x2E, m.badFence), (0x2F, m.badPipCode)]

/-- Pass 1 (R69, R70, R454) of the bytes read from a source that can supply `avail` of them: the code of the first
failure, if any. `tgt` is the stage of a stage load.
[log 162 DESIGN CHOICE] -/
def State.pass1 (s : State) (bs : List Byte) (avail : Nat) (tgt : Option Nat) (src : Option (Nat × Nat)) : Option Nat :=
  if bs.length < 48 ∨ avail < 48 then some 0x30
  else if badMagic bs then some 1
  else if badKind bs tgt then some 2
  else if ((readRecs none 1 0 bs).any Rec.badCrc) then some 3
  else if avail < totalLen bs ∨ bs.length < totalLen bs then some 0x30
  else s.judge (readImage s.fuses.imageKey bs) src

end Sys2Proof.Machine
end

