-- ==== Sys2Proof/Machine/Load.lean ====
section
/-!
DEFINITION. Image loads (R65-R77, R452-R454): the sources of a full load, the two passes, the forming of the binding
tables, the commit, the start of a stage, and the stop of a stage that is replaced or unloaded.
-/

namespace Sys2Proof.Machine

/-! ### Boot slots (R66) -/

/-- The first byte of boot slot `n` in the flash (R66). -/
def slotBase (n : Nat) : Nat := 0x10000 + 0x1000000 * n

/-- The bytes a boot slot holds (R66). -/
def slotSize : Nat := 16320 * 1024

/-- Control copy `c`: its SEQUENCE and the slot it names, if it is valid (R66). -/
def State.slotCopy (s : State) (c : Nat) : Option (Nat × Nat) :=
  let b := s.flashBytes (0x1000000 * c) 16
  if fieldAt b 0 4 = 0x544F4C53 ∧ wd (fieldAt b 12 4) = crc32c (b.take 12) ∧ fieldAt b 8 1 ≤ 1 ∧ fieldAt b 9 3 = 0 then
    some (fieldAt b 4 4, fieldAt b 8 1)
  else none

/-- The control copy that names the active slot, if any is valid (R66). -/
def State.slotWinner (s : State) : Option Nat :=
  match s.slotCopy 0, s.slotCopy 1 with
  | none, none => none
  | some _, none => some 0
  | none, some _ => some 1
  | some a, some b =>
    let d := (b.1 + 2 ^ 32 - a.1) % 2 ^ 32
    if 1 ≤ d ∧ d < 2 ^ 31 then some 1 else some 0

/-- The active slot and its SEQUENCE; slot A when no copy is valid (R66). -/
def State.activeSlot (s : State) : Nat × Nat :=
  match s.slotWinner.bind s.slotCopy with
  | some (q, a) => (a, q)
  | none => (0, 0)

/-! ### Sources (R65, R68, R453, R454) -/

/-- The bytes that a load's source can supply (R454).
[log 55 DEDUCED] -/
def State.sourceLen (s : State) (given : Nat) : Nat :=
  let l := s.load
  let n := match l.source with
    | 0 | 1 => slotSize
    | 2 => (s.storeCap - l.addr) * 4096
    | 3 => (vget ({} : PePort) s.pe 0).stageLen - l.addr
    | 4 => (vget ({} : PePort) s.pe 1).stageLen - l.addr
    | 6 => l.maxLen
    | _ => given
  if l.stage = 15 then n else min n l.maxLen

/-- What a pass reads: `image` is what the asset store, a staging area or JTAG supplies; a boot slot and LP5X are read
by the engine itself, no further than TOTAL_LEN.
[log 55 DEDUCED] -/
def State.sourceBytes (s : State) (image : List Byte) : List Byte :=
  let l := s.load
  let read (f : Nat → Nat → List Byte) (a : Nat) : List Byte :=
    let avail := s.sourceLen 0
    let h := f a (min 48 avail)
    if badMagic h then h
    else
      let n := max 48 (totalLen h)
      if avail < n then h else f a n
  if l.source ≤ 1 then read s.flashBytes (slotBase l.source)
  else if l.source = 6 then read s.bytes l.addr
  else image

/-- A drive of an enabled root port starts or scans the Ledger, or the link has not come up and less than 2 s have passed since
the effective release of RESET_N (R453). -/
def State.driveMayCome (s : State) : Bool :=
  (List.range 2).any fun d =>
    s.straps.getLsbD (d + 1) && bit (s.dreg (qmReg 0)) d &&
      ((s.drive d).state == 1 || (s.drive d).state == 5 ||
        (!(vget ({} : PePort) s.pe d).trained && decide (s.root < 4800000000)))

/-- The load engine waits for a drive: in a full load, while one may still come (R453). -/
def State.awaitsDrive (s : State) : Bool := s.readyDrives.isEmpty && s.load.stage == 15 && s.driveMayCome

/-- A port strapped as endpoint has its link up (R453). -/
def State.hostLinked (s : State) : Bool :=
  (List.range 2).any fun p => !s.straps.getLsbD (p + 1) && (vget ({} : PePort) s.pe p).status.getLsbD 0

/-- The blocks that pass 1 may read, as long as the asset store is the source: the engine reads ahead from the first block, and
asks for no more once the pass has ended (R343, R454). -/
def State.beginPass1 (s : State) : State :=
  s.askReads (if s.load.source = 2 then [(s.load.addr, s.storeCap - s.load.addr)] else [])

/-- Source `x` of a full load is taken: pass 1 begins (R71 step 3).
[log 58 DEDUCED] -/
def State.takeSource (s : State) (x : Nat) : State :=
  State.beginPass1 { s with load := { s.load with
    busy := true, source := x, stage := 15, phase := 1, step := 3, addr := 0, waitAsset := false, waitHost := false
    finalWait := false, ready := if x = 3 then vset s.load.ready 0 false else if x = 4 then vset s.load.ready 1 false else s.load.ready } }

/-- The next source of a full load (R65, R453). Source 3 is the turn of the endpoint host; 4 is its other port after
PE0's image has failed.
[log 56 DEDUCED, 57 DESIGN CHOICE, 59 DESIGN CHOICE] -/
def State.nextSource : Nat → State → State
  | 0, s => s
  | n + 1, s =>
    let rdy (p : Nat) : Bool := vget false s.load.ready p
    match s.load.sources with
    | [] =>
      if rdy 0 then s.takeSource 3
      else if rdy 1 then s.takeSource 4
      else { s with load := { s.load with busy := false, phase := 6, finalWait := true }
                    keeper := { s.keeper with faultPin := setBit s.keeper.faultPin 2 true } }
    | x :: r =>
      let s := { s with load := { s.load with sources := r } }
      let failed (c : Nat) : State := { s with load := { s.load with source := x, code := c } }
      match x with
      | 2 =>
        if !s.readyDrives.isEmpty then s.takeSource 2
        else if s.driveMayCome then { s with load := { s.load with busy := false, waitAsset := true } }
        else State.nextSource n (failed 0x30)
      | 3 =>
        if rdy 0 then { s with load := { s.load with sources := 4 :: r } }.takeSource 3
        else if rdy 1 then s.takeSource 4
        else if s.hostLinked then { s with load := { s.load with busy := false, waitHost := true } }
        else State.nextSource n s
      | 4 => if rdy 1 then s.takeSource 4 else State.nextSource n s
      | 5 => if s.fuses.secure && !s.jtag.unlocked then State.nextSource n (failed 0x43) else s.takeSource 5
      | _ => s.takeSource x

/-- A full load from the present source fails: the next source is tried (R41, R65). -/
def State.failFull (s : State) (code : Nat) : State :=
  State.nextSource 8 { s with load := { s.load with busy := false, code := code, phase := 6, step := 0, image := [] } }.dropReads

/-- `FULL_LOAD_START` (R65, R71 step 2, R80): the Orchard is zero-filled, the device enters M2 and the first source is
picked. A JTAG boot request of SERVICE puts JTAG first for this boot.
[log 60 DEDUCED] -/
def execFullLoadStart (s : State) : Res :=
  if s.mode = .boot && !s.power.inReset && (s.core 20).run = .running && !s.load.busy then
    let a := s.activeSlot.1
    let order := if s.straps.getLsbD 0 then [3, a, 1 - a, 2] else [a, 1 - a, 2, 3]
    let s := s.zeroMem 0 0x8000000
    .next (State.nextSource 8 { s with
      mode := .config, jtag := { s.jtag with bootReq := false }
      load := { s.load with sources := if s.jtag.bootReq then 5 :: order else order, jtag := s.jtag.bootReq } })
  else .next s

/-- `HOST_READY_WAIT_END` (R453): the source is passed over, and no code is recorded. -/
def execHostReadyWaitEnd (s : State) : Res :=
  if s.mode = .config && s.load.waitHost then
    .next (State.nextSource 8 { s with load := { s.load with waitHost := false } })
  else .next s

/-- READY accepted from the host behind PE `p` (R417, R453): taken at the host's turn or in the final wait, held
otherwise.
[log 45 DEDUCED, 56 DEDUCED] -/
def State.stageReady (s : State) (p : Nat) : State :=
  if p < 2 && s.mode = .config && !s.straps.getLsbD (p + 1) then
    let s := { s with load := { s.load with ready := vset s.load.ready p true } }
    let s := s.modDreg (peReg p 0xC) fun w => setBit w 19 true
    if s.load.finalWait then { s with load := { s.load with finalWait := false } }.nextSource 8
    else if s.load.waitHost then { s with load := { s.load with waitHost := false, sources := 3 :: s.load.sources } }.nextSource 8
    else s
  else s

/-- `PE_STAGE_READY` (R417, R453). -/
def execPeStageReady (p : Nat) (s : State) : Res := .next (s.stageReady p)

/-! ### The end of a stage load or unload -/

/-- A stage load or unload ends with a code (R41, R69, R74, R319). -/
def State.endStageLoad (s : State) (code : Nat) : State :=
  let l := s.load
  let s := s.journal (if l.unload then 4 else 3) 3 8 l.stage 0 none none (if code = 0 then (if l.unload then 3 else 6) else 0) 0
  let s := { s with load := { s.load with
    busy := false, code := code, phase := if code = 0 then 5 else 6, asker := none, unload := false, step := 0, image := [] } }.dropReads
  ((if s.mode = .retune then s.runMode else s).replyTo l.asker code []).pulse 6

/-- A stage load fails (R70, R74): after step 3 every byte of the partitions is zeroed and the slot stays unloaded.
[log 62 DESIGN CHOICE] -/
def State.failStage (s : State) (code : Nat) : State :=
  let l := s.load
  let i := l.stage
  if l.step < 3 then s.endStageLoad code
  else
    let mine := ((readImage s.fuses.imageKey l.image).plan i).segs
    let s := (s.zeroSegs i).modStage i Stage.unload
    (mine.foldl (fun s g => s.zeroMem g.base g.size) s).endStageLoad code

/-- The load in progress fails with a code. -/
def State.failLoad (s : State) (code : Nat) : State := if s.load.stage = 15 then s.failFull code else s.failStage code

/-- Pass 1 or pass 2 of a load is in progress, in the mode of that load; a stage load pauses while a repair is due (R42). -/
def State.inPass (s : State) (phase : Nat) : Bool :=
  s.load.busy && !s.load.unload && s.load.phase == phase &&
    (if s.load.stage = 15 then decide (s.mode = .config) else decide (s.mode = .retune) && !s.faultsOpen)

/-- A pass that reads is on: pass 1 before its end, or pass 2. -/
def State.reading (s : State) : Bool := (s.inPass 1 && decide (s.load.step ≠ 4)) || s.inPass 3

/-- A Read of the load engine has failed: the load fails at that point (R454). -/
def State.readFailed (s : State) : State :=
  if s.load.readErr then
    let s := { s with load := { s.load with readErr := false } }
    if s.reading then s.failLoad 0x30 else s
  else s

/-- `ASSET_STORE_WAIT_END` (R453): at the asset store's position, or of a read of a full load that has still to be made.
[log 58 DEDUCED] -/
def execAssetStoreWaitEnd (s : State) : Res :=
  if s.mode = .config && s.load.waitAsset then
    let s := { s with load := { s.load with waitAsset := false } }
    if s.readyDrives.isEmpty then .next (State.nextSource 8 { s with load := { s.load with source := 2, code := 0x30 } })
    else .next (s.takeSource 2)
  else if s.reading && s.load.stage == 15 && !s.load.reads.isEmpty && s.readyDrives.isEmpty then .next (s.failFull 0x30)
  else .next s

/-- `NVME_COMMAND_COMPLETE` (R341, R344, R349, R454). -/
def execNvmeCommandComplete (d idx : Nat) (status : BitVec 16) (s : State) : Res := .next (s.nvmeEnd d idx status).readFailed

/-- `PE_LINK_EVENT` (R340, R431, R454).
[log 105 DEDUCED] -/
def execPeLinkEvent (p : Nat) (st : BitVec 11) (aerUnc aerCor : Word) (s : State) : Res :=
  .next (s.linkEvent p st aerUnc aerCor).readFailed

/-! ### Asset blocks of pass 2 -/

/-- The runs of asset blocks that the segments with INIT = 3 are filled from: first block, blocks (R54). -/
def Image.assetRuns (m : Image) : List (Nat × Nat) :=
  (m.recs.filter fun r => r.ty == 5 && fieldAt r.data 2 1 == 3).map fun r => (fieldAt r.data 0x18 4, fieldAt r.data 16 8 / 4096)

/-- Pass 2 begins: the image is read again, and the segments with INIT = 3 (R54, R70, R343). -/
def State.beginPass2 (s : State) (step : Nat) : State :=
  let m := readImage s.fuses.imageKey s.load.image
  let image := if s.load.source = 2 then [(s.load.addr, ceilDiv s.load.image.length 4096)] else []
  State.askReads { s with load := { s.load with step := step, phase := 3 } } (image ++ m.assetRuns)

/-- Pass 2 asks for asset blocks that no drive or no store can give: `none` while it waits for a drive (R453, R454).
[log 58 DEDUCED] -/
def State.assetsLost (s : State) : Option Bool :=
  if s.load.reads.isEmpty then some false
  else if s.awaitsDrive then none
  else some (s.readyDrives.isEmpty || s.load.reads.any fun r => decide (s.storeCap < r.1 + r.2))

/-- The bytes that a load reads from LP5X (R68), and whether a word of them was reported uncorrectable (R96). -/
def State.readLpxSource (s : State) (n : Nat) : Bool × State :=
  if s.load.source = 6 then
    let (ws, s) := s.readRanges [(s.load.addr, n)]
    (!ws.isEmpty, s)
  else (false, s)

/-! ### Pass 1 -/

/-- Step 4 of a full load (R71, R312): the registers, fences and sources of every stage at their reset values.
[log 67 DEDUCED] -/
def State.resetStages (s : State) : State :=
  let s := (List.range 4).foldl (fun s i => (s.resetSources i).resetVine i) s
  let s := (List.range 32).foldl State.resetTimer s
  let s := (List.range 20).foldl (fun s k => s.modCore k fun _ => {}) s
  let s := (List.range 4).foldl (fun s i => s.setStage i {}) s
  (List.range 256).foldl (fun s n => s.modDreg (0x13000000 + 8 * (32 + n)) fun w => setFld w 8 5 31) s

/-- What pass 1 has of its source may be judged: of the asset store, what the drives have given (R343). -/
def State.passRead (s : State) (n : Nat) : Bool := s.load.source != 2 || decide (n ≤ 4096 * s.load.got)

/-- Pass 1 has found no fault (R70, R71, R74). -/
def State.pass1Ok (s : State) (m : Image) : State :=
  let s := { s with load := { s.load with image := m.bytes, version := m.version } }.dropReads
  if s.load.stage = 15 then
    let s := s.resetStages
    if s.lpx.filled then s.beginPass2 5 else { s with load := { s.load with step := 4 } }
  else if (s.stage s.load.stage).phase = .empty then s.beginPass2 3
  else { s with load := { s.load with step := 2, phase := 2 } }

/-- `LOAD_PASS1_END` (R69-R71, R74, R453, R454): nothing ends while a drive is waited for, or while the asset store has not given
the bytes.
[log 58 DEDUCED] -/
def execLoadPass1End (image : List Byte) (s : State) : Res :=
  if !s.inPass 1 || s.load.step == 4 then .next s
  else if !s.passRead image.length then
    .next (if s.readyDrives.isEmpty && !s.awaitsDrive then s.failLoad 0x30 else s)
  else
    let full := decide (s.load.stage = 15)
    let (lost, s) := s.readLpxSource (s.sourceBytes image).length
    let bs := s.sourceBytes image
    let m := readImage s.fuses.imageKey bs
    if lost then .next (s.failLoad 0x30)
    else
      match s.pass1 bs (s.sourceLen bs.length) (if full then none else some s.load.stage)
        (if s.load.source = 6 then some (s.load.addr, s.load.maxLen) else none) with
      | some c => .next (s.failLoad c)
      | none =>
        if !full && !m.assetRuns.isEmpty && s.readyDrives.isEmpty then .next (s.failLoad 0x30) else .next (s.pass1Ok m)

/-- `SOURCE_READ_ERROR` (R54, R454). -/
def execSourceReadError (s : State) : Res :=
  if s.reading then .next (s.failLoad 0x30) else .next s

/-- `LP5X_TRAINED` (R71 step 4, R85, R87): the segments are checked against the capacity found (R54).
[log 49 DEDUCED] -/
def execLp5xTrained (mts rawGib : Nat) (s : State) : Res :=
  if s.inPass 1 && s.load.step == 4 && !s.lpx.trained && [8533, 7500, 6400].contains mts && [8, 16, 32].contains rawGib then
    let s := { s.zeroMem 0x100000000 0x800000000 with lpx := { s.lpx with trained := true, mts := mts, rawGib := rawGib, state := 0 } }
    if (readImage s.fuses.imageKey s.load.image).badRange rawGib then .next (s.failFull 0x26) else .next s
  else .next s

/-- `LP5X_ZERO_FILL_END` (R87): pass 2 of the first full load begins. -/
def execLp5xZeroFillEnd (s : State) : Res :=
  if s.lpx.trained && !s.lpx.filled then
    let s := { s.zeroMem 0x100000000 0x800000000 with lpx := { s.lpx with filled := true } }
    if s.inPass 1 && s.load.step == 4 then .next (s.beginPass2 5) else .next s
  else .next s

/-! ### Forming the binding tables (R72, R73, R452) -/

/-- The lowest free unit of a Sector that leaves the Sector's spares free (R72). -/
def State.lowestFree (s : State) (k sec : Nat) : Option Nat :=
  let free := s.freeUnits k sec
  if free.length ≤ s.reserved k sec then none else free.head?

/-- The unit an entry is bound to, and REPAIRED (R73). -/
def State.formUnit (s : State) (e : FloorEntry) : Option (Nat × Nat × Bool) :=
  if e.sector < 4 ∧ s.isFree e.kind e.sector e.unit ∧ s.reserved e.kind e.sector < (s.freeUnits e.kind e.sector).length then
    some (e.sector, e.unit, false)
  else
    let order := (if e.sector < 4 then [e.sector] else []) ++ List.range 4
    (order.findSome? fun c => (s.lowestFree e.kind c).map fun u => (c, u)).map fun p =>
      (p.1, p.2, decide (e.sector < 4) && (e.unit != 0xFF || p.1 != e.sector))

/-- The cluster a Bramble entry of stage `i` is bound to, and REPAIRED (R56, R73). -/
def State.formVoices (s : State) (i : Nat) (e : FloorEntry) : Option (Nat × Nat × Bool) :=
  let used := (List.range 4).map fun c => s.voiceLoad c (i, 35 + e.lindex) + ((s.reserved 6 c : Nat) * 48000 : Rat)
  (placeVoices used (fun c => s.healthy 6 c 0) e (s.stage i).voiceRate).map fun c =>
    (c, 0, decide (e.sector < 4) && c != e.sector)

/-- An entry that a full load can bind nowhere is served by the stage's shed list (R52, R73).
[log 63 DEDUCED] -/
def State.shedAtLoad (s : State) (i : Nat) (e : FloorEntry) : State :=
  let b := bindAt e.kind e.lindex
  let (steps, p) := takeStep (s.stage i) e.kind (s.stage i).shedList
  let s := (s.modStage i fun st => { st with shedList := steps }).noteShed (if e.sector < 4 then e.sector else 0)
  match (p.getD { action := 6 }).action with
  | 6 => s.setStage i {}
  | 3 =>
    (s.shedFailedVoices i b ((p.getD {}).voices)).modStage i fun st =>
      let x := st.bind b
      if x.shed then st else st.setBind b { x with bound := true }
  | a =>
    let other := bindAt e.kind (if a = 5 then 0 else (p.getD {}).lindex)
    let o := (s.stage i).bind other
    if other = b then s.modStage i fun st => st.setBind b { shed := true }
    else s.modStage i fun st => (st.setBind other { shed := true }).setBind b { o with repaired := true }

/-- One entry of stage `i` bound in entry order (R73); `none` is SPARES_TAKEN.
[log 63 DEDUCED] -/
def State.formEntry (full : Bool) (i : Nat) (s : Option State) (e : FloorEntry) : Option State :=
  s.bind fun s =>
    let b := bindAt e.kind e.lindex
    let x := (s.stage i).bind b
    if (s.stage i).phase = .empty ∨ e.kind = 7 ∨ x.shed then some s
    else
      let e := if e.kind = 6 then { e with count := x.count } else e
      match if e.kind = 6 then s.formVoices i e else s.formUnit e with
      | some (sec, u, rep) =>
        some (s.modStage i fun st => st.setBind b { bound := true, sector := sec, unit := u, repaired := rep, count := e.count })
      | none => if full then some (s.shedAtLoad i e) else none

/-- The lowest-numbered channel a timer entry takes from those not held (R452). -/
def takeChannel (held : List Nat) (e : FloorEntry) : Option Nat :=
  let free (c : Nat) : Bool := !held.contains c
  ((if e.sector < 4 then (List.range 8).map fun k => 8 * e.sector + k else []) ++ List.range 32).find? free

/-- The timer channels of the stages of an image: stage and channel, those named first (R452). -/
def Image.channels (m : Image) (held : List Nat) : List (Nat × Nat) :=
  let es := m.stages.flatMap fun i => ((m.entries i).filter (·.kind == 7)).map fun e => (i, e)
  let named := es.filterMap fun e => e.2.channel.map fun c => (e.1, c)
  (es.filter fun e => e.2.channel.isNone).foldl (fun (a : List (Nat × Nat)) e =>
    match takeChannel (held ++ a.map Prod.snd) e.2 with
    | some c => a ++ [(e.1, c)]
    | none => a) named

/-- Orchard positions for `n` slots in Sector `c`, taken one by one on the bank that holds fewest, from those no
other stage holds; (15, 3) is the repair slot (R81, R82).
[log 64 DESIGN CHOICE] -/
def takePositions (c : Nat) (held : List (Nat × Nat × Nat)) : Nat → List (Nat × Nat × Nat)
  | 0 => []
  | n + 1 =>
    let mine := takePositions c held n
    let free (b : Nat) : Option (Nat × Nat × Nat) :=
      ((List.range 16).map fun k => (c, k, b)).find? fun p => p != (c, 15, 3) && !held.contains p && !mine.contains p
    let load (b : Nat) : Nat := (mine.filter fun p => p.2.2 == b).length
    let best := (List.range 4).foldl (fun (a : Option Nat) b =>
      if (free b).isNone then a
      else match a with
        | some x => if load b < load x then some b else a
        | none => some b) none
    match best.bind free with
    | some p => mine ++ [p]
    | none => mine

/-! ### Applying the records (R71 step 5, R74 step 4) -/

/-- The GUARD and POLICY fields of the guarded regions (R50, R58, R196). -/
def Image.guards (m : Image) (i : Nat) (st : Stage) : Stage :=
  let g := items ((m.one 10 i).getD []) 4 16 8
  let pol := (m.one 7 i).getD []
  (List.range 8).foldl (fun st r =>
    let e := g.getD r []
    let a := prismBase + 0x700 + 32 * r
    let st := st.setReg a (wd (fieldAt pol (0x20 + r) 1 % 4 * 0x10 + fieldAt e 0 1 % 4))
    let st := st.setReg (a + 4) (wd (fieldAt e 6 2 * 0x10000 + fieldAt e 2 2) &&& 0x1FFF1FFF)
    let st := st.setReg (a + 8) (wd (fieldAt e 8 2 * 0x10000 + fieldAt e 4 2) &&& 0xFFF0FFF)
    (st.setReg (a + 0xC) (wd (fieldAt e 12 4))).setReg (a + 0x10) (wd (fieldAt e 12 4))) st

/-- The routes of the AUDIO_ROUTE record in the `ROUTE` registers (R55, R251). -/
def Image.routes (m : Image) (i : Nat) (st : Stage) : Stage :=
  let p := (m.one 9 i).getD []
  ((items p 8 4 (fieldAt p 1 1)).zipIdx).foldl (fun st (e : List Byte × Nat) =>
    st.setReg (0x260100 + 4 * e.2) (wd (0x80000000 + fieldAt e.1 2 1 * 0x400 + fieldAt e.1 0 1 * 0x100 + fieldAt e.1 1 1))) st

/-- A segment's contents at a load (R54); `assets` is what the asset store still has to give.
[log 61 DESIGN CHOICE] -/
def State.fillSeg (s : State) (r : Rec) (assets : List Byte) : State × List Byte :=
  let base := fieldAt r.data 8 8
  let size := fieldAt r.data 16 8
  match fieldAt r.data 2 1 with
  | 0 =>
    let (fv, s) := s.draw
    ({ s with mem := s.mem.filter fun e => e.1 < base || base + size ≤ e.1 || Config.initKeeps fv e.1 }, assets)
  | 2 => ((s.zeroMem base size).setBytes base (r.data.drop 0x20), assets)
  | 3 => ((s.zeroMem base size).setBytes base (assets.take size), assets.drop size)
  | _ => (s.zeroMem base size, assets)

/-- The words of a UNIT_INIT run written through the binding (R59).
[log 61 DESIGN CHOICE] -/
def State.initRun (s : State) (i o : Nat) (p : List Byte) : State :=
  (List.range (p.length / 4)).foldl (fun s k =>
    s.stageWrite .loader i (o + 4 * k) (wd (fieldAt p (4 * k) 4)) 0xFFFFFFFF) s

/-- The mirror buffers drained (R71 step 5, R379).
[log 65 DESIGN CHOICE] -/
def State.drainMirrors (s : State) : State :=
  (List.range 4).foldl (fun s c =>
    let x := s.sector c
    let s := s.setSector c { x with mirror := [] }
    if x.memFault then s
    else x.mirror.foldl (fun (s : State) e => s.shadowWord c e.1 (e.2 % 0x400)) s) s

/-- A record of a stage applied (R71 step 5). The others stand in the stage that the plan made.
[log 65 DESIGN CHOICE] -/
def State.applyRec (sa : State × List Byte) (r : Rec) : State × List Byte :=
  let (s, assets) := sa
  let i := r.stage
  let p := r.data
  if 4 ≤ i ∨ (s.stage i).phase = .empty then
    (s, if r.ty = 5 ∧ fieldAt p 2 1 = 3 then assets.drop (fieldAt p 16 8) else assets)
  else
    match r.ty with
    | 5 => s.fillSeg r assets
    | 11 =>
      let f := fieldAt p 0 1
      (s.modStage i fun st => (List.range (fieldAt p 2 2)).foldl (fun st k =>
        st.setReg (fenceReg (f + k)) (wd (fieldAt p (4 + 4 * k) 4))) st, assets)
    | 4 => (r.runs.foldl (fun s u => s.initRun i u.1 u.2.2) s, assets)
    | 6 =>
      let code := (p.drop 0x20).take (fieldAt p 0x18 4)
      let dest := fieldAt p 0x10 8
      if fieldAt p 1 1 / 2 % 2 = 0 then (s.storeBytes dest code, assets)
      else
        match s.pipPhys i (fieldAt p 0 1) with
        | some k =>
          let put (m : Sparse Byte) : Sparse Byte :=
            (code.zipIdx).foldl (fun (m : Sparse Byte) (e : Byte × Nat) => sset memDefault m (dest + e.2) e.1) m
          (s.modCore k fun c => { c with seed := put c.seed }, assets)
        | none => (s, assets)
    | _ => (s, assets)

/-- The slot of stage `i` filled from an image, its bindings still to be formed. The port goes on scanning if the stopped
stage drove it (R116); the fence table stays (R74).
[log 66 DEDUCED, 67 DEDUCED, 69 DEDUCED] -/
def State.installStage (s : State) (m : Image) (i : Nat) (chans : List (Nat × Nat)) : State :=
  let old := s.stage i
  let p := m.plan i
  let t := p.beam.primary
  let scanning := old.phase ≠ .empty && old.portA == p.portA && old.twin == p.twin && old.beam.run
  let beam := if scanning then
      { old.beam with primary := t, fallback := p.beam.fallback, fbTried := false, pending := none, waiting := some t, linkNext := none, frame := 0 }
    else { p.beam with inForce := t, audioOff := t.audioOff p.twin }
  let held := (upto 4 (· != i)).flatMap fun j => (s.stage j).slotPos
  let slots := (List.range 4).flatMap fun c => takePositions c held (p.slots.getD c 0)
  let binds := ((m.entries i).filter (·.kind == 6)).foldl (fun (l : Sparse BindEntry) (e : FloorEntry) =>
    sset (fun _ => ({} : BindEntry)) l (35 + e.lindex) { count := e.count }) []
  let st : Stage := { p with
    beam := beam, regs := old.regs.filter (fun e => decide (e.1 < 0x10000)), hi := [], bindGen := old.bindGen
    timers := (chans.filter (fun e => e.1 == i)).map Prod.snd, slotPos := slots, binds := binds
    prism := if scanning then { mixLine := old.prism.mixLine, mixSeg := old.prism.mixSeg } else {} }
  s.setStage i ((m.guards i (m.routes i (st.stageTiming t))).fixLead (s.mode = .attract))

/-- The bindings of the stages of an image formed (R73); `none` is SPARES_TAKEN.
[log 63 DEDUCED] -/
def State.formImage (s : State) (m : Image) (full : Bool) : Option State :=
  let chans := m.channels ((s.others m).flatMap Stage.timers)
  let s := m.stages.foldl (fun s i => s.installStage m i chans) s
  m.stages.foldl (fun s i => (m.entries i).foldl (State.formEntry full i) s) (some s)

/-- The seeds of the Pips of stage `i` zero-filled, and the Pips at rest (R277). -/
def State.clearPips (s : State) (i : Nat) : State :=
  (s.stagePips i).foldl (fun s k => s.modCore k fun _ => {}) s

/-- The Spoke registers that the SPOKE_MAP records of an image set at commit (R57, R424): TIMEOUT of the drops, and EN
of the bus. -/
def State.applySpoke (s : State) (m : Image) : State :=
  (m.recs.filter fun r => r.ty == 12 && (decide (4 ≤ r.stage) || (s.stage r.stage).phase ≠ .empty)).foldl (fun s r =>
    let b := fieldAt r.data 0 1
    let s := if r.stage < 4 then (items r.data 4 4 (fieldAt r.data 1 1)).foldl (fun (s : State) e =>
        s.modDreg (spkReg b (fieldAt e 0 1) 0x24) fun w => setFld w 8 8 (fieldAt e 1 1)) s else s
    (s.modDreg (spkReg b 0 0x80) fun w => setBit w 0 true).spkKick b 0) s

/-- Pass 2 applied: bindings, records and shadows (R71 steps 5 and 6, R74 steps 4 and 5).
[log 66 DEDUCED] -/
def State.applyImage (s : State) (m : Image) (full : Bool) (assets : List Byte) : Option State :=
  let gens := (List.range 4).map fun i => (s.stage i).bindGen
  (s.formImage m full).map fun s =>
    let s := m.stages.foldl State.clearPips s
    let s := ((m.recs.foldl State.applyRec (s, assets)).1.drainMirrors).applySpoke m
    m.stages.foldl (fun s i => s.modStage i fun st => { st with bindGen := if full then 1 else gens.getD i 0 + 1 }) s

/-- Bytes of asset-store data the image asks for (R54). -/
def Image.assetBytes (m : Image) : Nat :=
  (m.recs.filter fun r => r.ty == 5 && fieldAt r.data 2 1 == 3).foldl (fun n r => n + fieldAt r.data 16 8) 0

/-- The device part of an image in force: spares, SHED_FAULT and the Spoke buses (R51, R57). -/
def State.installDevice (s : State) (m : Image) : State :=
  let s := { s with load := { s.load with
    spares := m.spares, shedFault := bit (wd (fieldAt ((m.one 7 0xFF).getD []) 0x20 4)) 0 } }
  { s with spoke := (m.of 12 0xFF).foldl (fun v r =>
      vset v (fieldAt r.data 0 1) { vget ({} : Spoke) s.spoke (fieldAt r.data 0 1) with
        sync := fieldAt r.data 1 1, wake := fieldAt r.data 2 1 }) s.spoke }

/-- WB released as standby once every loaded stage runs (R71 step 8).
[log 68 DEDUCED] -/
def State.releaseStandby (s : State) : State :=
  if !s.keeper.wbReleased && !vget false s.keeper.lost 1 && s.mode.stagesRun &&
      (List.range 4).all fun i => (s.stage i).phase ≠ .loaded then
    { s.modCore 21 fun c => { c with run := .running } with keeper := { s.keeper with wbReleased := true } }
  else s

/-- The image of a full load is applied and committed (R71 steps 5 and 6). -/
def State.commitFull (s : State) (m : Image) (assets : List Byte) : State :=
  match (s.installDevice m).applyImage m true assets with
  | none => s.failLoad 0x42
  | some t =>
    let shed := t.anyShed || m.stages.any fun i => (t.stage i).phase = .empty
    let k := t.keeper
    let t := { t with
      mode := if shed then .degraded else .run, goDriven := true
      keeper := { k with faultPin := setBit k.faultPin 2 false }
      load := { t.load with busy := false, code := 0, phase := 5, step := 0, image := [], sources := [] } }
    (t.pulse 6).releaseStandby

/-- The image of a stage load is applied and committed (R74 steps 4 and 5). -/
def State.commitStage (s : State) (m : Image) (assets : List Byte) : State :=
  let i := s.load.stage
  let s' := { s with load := { s.load with step := 5 } }
  let s' := s'.modStage i fun st => { st with segs := [] }
  let s' := (s.stage i).segs.foldl (fun t g =>
    let keep := (m.plan i).segs
    { t with mem := t.mem.filter fun e => e.1 < g.base || g.base + g.size ≤ e.1 ||
        keep.any fun h => decide (h.base ≤ e.1) && decide (e.1 < h.base + h.size) }) s'
  match s'.applyImage m false assets with
  | none => s.failLoad 0x42
  | some t => { t with load := { t.load with phase := 4 } }

/-- Pass 2 of a stage load is over: the sound of the old stage has ramped to silence before (R74 step 3).
[log 87 DEDUCED] -/
def State.rampDone (s : State) : Bool := s.load.stage == 15 || (s.stage s.load.stage).sound.stopRamp.isNone

/-- `LOAD_PASS2_END` (R54, R70-R74, R453): the hashes are compared, the bindings formed, the records applied and the entries
committed. Nothing ends while a drive is waited for, while Reads are out, or while the stage that is replaced still ramps to
silence.
[log 62 DESIGN CHOICE, 68 DEDUCED, 97 DESIGN CHOICE] -/
def execLoadPass2End (image assets : List Byte) (s : State) : Res :=
  if !s.inPass 3 || !s.rampDone then .next s
  else
    match s.assetsLost with
    | none => .next s
    | some true => .next (s.failLoad 0x30)
    | some false =>
      if !s.load.reads.isEmpty || s.loadOut then .next s
      else
        let (lost, s) := s.readLpxSource s.load.image.length
        let bs := (s.sourceBytes image).take (totalLen s.load.image)
        let m := readImage s.fuses.imageKey s.load.image
        if lost then .next (s.failLoad 0x30)
        else if bs ≠ s.load.image && sha256 bs ≠ sha256 s.load.image then .next (s.failLoad 0x31)
        else if assets.length < m.assetBytes then .next (s.failLoad 0x30)
        else .next (if s.load.stage = 15 then s.commitFull m assets else s.commitStage m assets)

/-! ### Stop and start of a stage -/

/-- The latch line of stage `i` is being reached (R111).
[log 68 DEDUCED] -/
def State.atLatch (s : State) (i : Nat) : Bool :=
  let b := (s.stage i).beam
  b.run && !b.hold && (b.line == b.inForce.latchAt b.field || b.nextLine == b.inForce.latchAt b.field)

/-- Step 3 of a stage load or unload (R74, R75, R394): the stage stops and its FAULT_N bit goes.
[log 68 DEDUCED] -/
def State.stopForLoad (s : State) (i : Nat) : State :=
  let s := s.stopStage i
  { s with keeper := { s.keeper with faultPin := setBit s.keeper.faultPin (8 + i) false } }

/-- `STAGE_STOP` (R74 step 3, R75): at the latch line of a stage that is replaced or unloaded, or at once
if the slot has come to be empty. One that is replaced frees its
Orchard positions (R82).
[log 163 DESIGN CHOICE] -/
def execStageStop (s : Nat) (st : State) : Res :=
  if st.mode = .retune && st.load.busy && st.load.stage == s && st.load.step == 2 && (st.atLatch s || (st.stage s).phase = .empty) then
    let st := st.stopForLoad s
    if st.load.unload then .next { st with load := { st.load with step := 3, phase := 2 } }
    else .next ((st.modStage s fun x => { x with slotPos := [] }).beginPass2 3)
  else .next st

/-- A load that waits to stop the stage of slot `i` finds the slot empty (R74).
[log 87 DEDUCED] -/
def State.slotLeft (s : State) (i : Nat) : State :=
  if (s.stage i).phase = .empty && s.load.busy && s.load.stage == i && s.load.step == 2 then
    if s.load.unload then { s with load := { s.load with step := 3 } } else s.beginPass2 3
  else s

/-- `SAMPLE_STROBE` (R223, R224, R247): the sample belongs to the block of the last boundary. -/
def execSampleStrobe (s : Nat) (st : State) : Res :=
  let x := st.stage s
  if x.sound.started && x.strobeDue && x.sound.blocks == x.sound.strobe / 16 + 1 then
    let (fv, st) := st.draw
    .next ((st.modStage s fun x => ((x.takeStrobe st.root).strobe fv).leave).slotLeft s)
  else .next st

/-- A Pip starts at ENTRY, and its first checkpoint is taken (R254, R290, R380). -/
def Core.start (c : Core) (p : PipCode) : Core :=
  let g : Vector Word 32 := vset (Vector.replicate 32 0) 30 p.stack
  let w : Word := setBit 1 2 p.fmode
  let vb := p.entry &&& 0xFFFFFC00
  { run := .running, gpr := g, pc := p.entry, status := w, estatus := w, vbase := vb, seed := c.seed
    ckpt := { gpr := g, pc := p.entry, status := w, vbase := vb, seed := c.seed } }

/-- The Pips of stage `i` that have code start (R254); a failed one halts instead (R296, R377). -/
def State.startPips (s : State) (i : Nat) : State :=
  (s.stage i).pipCode.foldl (fun s e =>
    match s.pipPhys i e.1 with
    | some k =>
      let up := s.healthy 5 (k / 5) (k % 5)
      s.modCore k fun c => if up then c.start e.2 else { c.start e.2 with run := .halted }
    | none => s) s

/-- `STAGE_START` (R71 step 7, R74 step 6): at the first latch line after the commit. While a mode entry is under way no
stage starts; and none that was under RETUNE when both Wardens were lost (R42).
[log 15 DESIGN CHOICE] -/
def execStageStart (s : Nat) (st : State) : Res :=
  let x := st.stage s
  if x.phase = .loaded && st.mode.stagesRun && st.power.step == 0 && st.atLatch s &&
      !(st.load.busy && st.load.stage == s && (decide (st.load.step ≠ 5) || st.mode = .orphan)) then
    let st := (st.modStage s Stage.begin).startPips s
    let st := if st.load.busy && st.load.stage == s then st.endStageLoad 0 else st
    .next st.releaseStandby
  else .next st

/-- `UNLOAD_STAGE_END` (R75): the partitions are zeroed, the registers of the units reset, and units and ports free; the sound
has ramped to silence before (R74 step 3). -/
def execUnloadStageEnd (s : Nat) (st : State) : Res :=
  if st.mode = .retune && st.load.busy && st.load.unload && st.load.stage == s && st.load.step == 3 && st.rampDone then
    .next (((st.zeroSegs s).modStage s Stage.vacate).endStageLoad 0)
  else .next st

end Sys2Proof.Machine
end

