-- ==== Sys2Proof/Machine/Flags.lean ====
section
/-!
DEFINITION. The flags of F-mode, the conditions of `b.cc` and the compares (R263-R265).
-/

namespace Sys2Proof.Machine

/-- `STATUS` with N and Z of a result (R263). -/
def flagsNZ (st r : Word) : Word := setBit (setBit st 31 (r.getLsbD 31)) 30 (r = 0)

/-- `STATUS` with N, Z, C and V (R263). -/
def flagsNZCV (st r : Word) (c v : Bool) : Word := setBit (setBit (flagsNZ st r) 29 c) 28 v

/-- `STATUS` after `a + b + cin` (R263). -/
def flagsAdd (st a b : Word) (cin : Bool) : Word :=
  let r := a + b + wd cin.toNat
  flagsNZCV st r (decide (2 ^ 32 ≤ a.toNat + b.toNat + cin.toNat))
    (r.toInt ≠ a.toInt + b.toInt + cin.toNat)

/-- `STATUS` after `a − b − (1 − cin)` (R263): C is 1 when no borrow occurs. -/
def flagsSub (st a b : Word) (cin : Bool) : Word :=
  let r := a - b - wd (1 - cin.toNat)
  flagsNZCV st r (decide (b.toNat + (1 - cin.toNat) ≤ a.toNat))
    (r.toInt ≠ a.toInt - b.toInt - (1 - (cin.toNat : Int)))

/-- `STATUS` after a shift with result `r` whose last bit out is `out`; a shift by 0 keeps C (R263). -/
def flagsShift (st r : Word) (amt : Nat) (out : Bool) : Word :=
  if amt = 0 then flagsNZ st r else setBit (flagsNZ st r) 29 out

/-- The condition of `b.cc` holds (R264). -/
def condHolds (st : Word) (cond : BitVec 4) : Bool :=
  let n := bit st 31
  let z := bit st 30
  let c := bit st 29
  let v := bit st 28
  match cond.toNat with
  | 0 => true
  | 1 => z
  | 2 => !z
  | 3 => c
  | 4 => !c
  | 5 => c && !z
  | 6 => !c || z
  | 7 => n == v
  | 8 => n != v
  | 9 => !z && n == v
  | 10 => z || n != v
  | 11 => n
  | 12 => !n
  | 13 => v
  | 14 => !v
  | _ => false

/-- The comparison of `cmp.cc`, by its code (R265). -/
def compares (a b : Word) (cc : Nat) : Bool :=
  match cc with
  | 0 => a = b
  | 1 => a ≠ b
  | 2 => a.slt b
  | 3 => !a.slt b
  | 4 => a.ult b
  | 5 => !a.ult b
  | 6 => b.slt a
  | 7 => !b.slt a
  | 8 => b.ult a
  | 9 => !b.ult a
  | 10 => (a &&& b) ≠ 0
  | 11 => (a &&& b) = 0
  | _ => false

end Sys2Proof.Machine
end

