-- ==== Sys2Proof/Machine/PipCore.lean ====
section
/-!
DEFINITION. How a Pip issues an instruction: the checks in the order of R274, the guard, entering
an exception (R289), and retiring (R271, R276).
-/

namespace Sys2Proof.Machine

/-- An exception of R288 before it is entered. -/
structure Exc where
  /-- CODE. -/
  code : Nat
  /-- EADDR. -/
  eaddr : Word
  /-- ECAUSE.FETCH. -/
  fetch : Bool := false
  /-- ECAUSE.WRITE. -/
  write : Bool := false
  deriving DecidableEq, Repr

/-- `ECAUSE` of an exception (R290). -/
def Exc.cause (e : Exc) : Word := setBit (setBit (wd e.code) 31 e.fetch) 30 e.write

/-- `ESTATUS` as an entry saves it: STATUS and q1-q7 at bits 18:12 (R289, R290). -/
def Core.savedStatus (c : Core) : Word := setFld c.status 12 7 (c.pred.toNat / 2)

/-- The frame an entry pushes (R289). -/
def Core.frame (c : Core) : Frame := { epc := c.pc, estatus := c.savedStatus, repcnt := c.repcnt }

/-- `k` PIP cycles counted (R255). -/
def Core.tick (c : Core) (k : Nat) : Core := { c with cycle := c.cycle + BitVec.ofNat 64 k }

/-- An entry with a cause, an EADDR and a vector: 8 frames already on the stack halt the Pip (R289,
R296). -/
def Core.enter (c : Core) (cause eaddr : Word) (vector : Nat) : Core :=
  if 8 ≤ c.frames.length then { c with run := .halted, repNew := false }
  else
    { c with
      frames := c.frame :: c.frames
      ecause := cause
      eaddr := eaddr
      status := setBit c.status 0 true
      repcnt := 0
      repNew := false
      fetchBuf := none
      pc := c.vbase + wd vector }

/-- A synchronous exception entered (R276, R287-R289): one cycle of issue and 6 of entry. -/
def Core.trap (c : Core) (e : Exc) : Core := (c.enter e.cause e.eaddr (0x40 * e.code)).tick 7

/-- PC and REPCNT after an instruction that does not branch: under `rep` the successor stays until
its iterations are done (R271). -/
def Core.advance (c : Core) : Core :=
  let n := c.repcnt - 1
  if c.repcnt = 0 then { c with pc := c.pc + 4, repNew := false }
  else if n = 0 then { c with pc := c.pc + 4, repcnt := 0, repNew := false }
  else { c with repcnt := n, repNew := false }

/-- An instruction retired after `k` issue cycles (R255, R276). -/
def Core.retire (c : Core) (k : Nat) : Core := { c.advance with retired := c.retired + 1, cycle := c.cycle + BitVec.ofNat 64 k }

/-- A taken branch retired after `k` issue cycles (R269, R276, R283). -/
def Core.jump (c : Core) (target : Word) (k : Nat) : Core :=
  { c with pc := target, retired := c.retired + 1, cycle := c.cycle + BitVec.ofNat 64 k, fetchBuf := none }

/-- The core may issue an instruction: running, with nothing that holds issue (R275, R276, R284,
R380, R399). -/
def Core.canIssue (c : Core) : Bool :=
  c.run = .running && c.pend.isNone && !c.fencing && !c.taking && !c.parked

/-! ### The window map -/

/-- The Pip address lies in the seed (R277). -/
def isSeed (va : Word) : Bool := decide (0xFFFF0000 ≤ va.toNat)

/-- The window that serves a Pip address, and the device address (R38). -/
def State.translate (s : State) (k : Nat) (va : Word) : Option (Window × Nat) :=
  match s.pipOf k with
  | none => none
  | some (i, n) =>
    let ws := sget (fun _ => ([] : List Window)) (s.stage i).windows n
    let w := ws.getD (va.toNat / 0x10000000) {}
    let o := va.toNat % 0x10000000
    if w.valid && decide (o < w.mib * 0x100000) then some (w, w.base + o) else none

/-- The device address is one an access can reach: memory, a stage window or a shared block (R36,
R37, R279). -/
def State.assigned (s : State) (a : Nat) : Bool :=
  s.isMem a || (decide (0x10000000 ≤ a) && decide (a < 0x14000000)) ||
    (decide (0x20000000 ≤ a) && decide (a < 0x20040000))

/-- The cacheable attribute in effect: only for the Orchard and LP5X (R278). -/
def State.cached (s : State) (w : Window) (a : Nat) : Bool := w.c && s.isMem a

/-- The fetch checks of R274 that the address alone decides: WINDOW, BUSERR.
[log 125 DESIGN CHOICE] -/
def State.fetchCheck (s : State) (k : Nat) (va : Word) : Option Exc :=
  if isSeed va then none
  else
    match s.translate k va with
    | none => some { code := 4, eaddr := va, fetch := true }
    | some (w, a) =>
      if !w.x then some { code := 4, eaddr := va, fetch := true }
      else if !s.assigned a then some { code := 5, eaddr := va, fetch := true }
      else none

/-! ### The write buffer (R281) -/

/-- The mask of `n` bytes of a 32-byte word at address `a`. -/
def wordMask (a n : Nat) : BitVec 32 := BitVec.ofNat 32 ((2 ^ n - 1) * 2 ^ (a % 32))

/-- The entry holds some of the `n` bytes at `a`. -/
def WbEntry.overlaps (e : WbEntry) (a n : Nat) : Bool := e.addr == a / 32 * 32 && e.mask &&& wordMask a n != 0

/-- A buffered entry holds some of the `n` bytes at `a`: a load or a fetch of them waits (R281). -/
def Core.buffered (c : Core) (a n : Nat) : Bool := c.wbuf.any fun e => e.overlaps a n

/-! ### Fetch -/

/-- The Pip address of the 32-byte line at `va`. -/
def pipLine (va : Word) : Nat := va.toNat / 32 * 32

/-- A fetch at `va` hits: the seed, the instruction cache or the one-line buffer of an uncached window (R276, R277, R283). -/
def Core.hits (c : Core) (va : Word) : Bool := isSeed va || c.fetchBuf == some (pipLine va) || c.icache.contains (pipLine va)

/-- The line fetched is kept: in the instruction cache, or in the one-line buffer of an uncached window (R283). -/
def Core.keep (c : Core) (cached : Bool) (va : Word) : Core :=
  if cached then { c with icache := c.icache ++ [pipLine va] } else { c with fetchBuf := some (pipLine va) }

/-- The exception of an uncorrectable word, which names the Pip address of the word (R96, R288). -/
def eccExc (va : Word) (write : Bool) : Exc := { code := 6, eaddr := wd (pipLine va), write := write }

/-- A fetch by core `k` at `va` (R93, R96, R274, R281, R283): an exception, or the core that holds the line; `none` while a
buffered store of the line has not been written. `ue` says that the word is found with more than two symbol errors. -/
def State.fetch (s : State) (k : Nat) (va : Word) (ue : Bool) (c : Core) : Option (State × Except Exc Core) :=
  match s.fetchCheck k va with
  | some e => some (s, .error e)
  | none =>
    if c.hits va then some (s, .ok c)
    else match s.translate k va with
      | none => some (s, .ok c)
      | some (w, a) =>
        if c.buffered (a / 32 * 32) 32 then none
        else
          let s := if ue then s.upset a 3 else s
          match s.readRanges (if s.isMem a then [(a / 32 * 32, 32)] else []) with
          | ([], s) => some (s, .ok (c.keep (s.cached w a) va))
          | (_, s) => some (s, .error { eccExc va false with fetch := true })

/-- The words that an instruction needs fetched: its own, and for a `rep` its successor's (R272). A Warden's fetch has no
window map.
[log 154 DEDUCED] -/
def State.fetchAll (s : State) (x : Issue) (pair : Bool) (c : Core) : Option (State × Except Exc Core) :=
  if 20 ≤ x.core then some (s, .ok c)
  else
    match s.fetch x.core c.pc x.fetchUe c with
    | some (s, .ok c) => if pair then s.fetch x.core (c.pc + 4) x.dataUe c else some (s, .ok c)
    | r => r

/-! ### Issue -/

/-- What an instruction does once its guard is true: an exception with no effect, or the new state
and the new core. -/
abbrev Body := State → Core → Except Exc (State × Core)

/-- Issue waits some cycles, which R276 gives no bound (memory, fetches, a full buffer).
[log 125 DESIGN CHOICE] -/
def State.stalled (s : State) (c : Core) : State × Core :=
  ({ s with nonce := s.nonce + 1 }, { c with cycle := c.cycle + Config.pipStall s.nonce })

/-- The instruction has not issued yet: it waits, and is issued again. -/
def waitBody : Body := fun s c => .ok (s.stalled c)

/-- What a Warden shares with a Pip (R297): `mfs`, `mts`, `rti` and `wait`.
[log 154 DEDUCED] -/
def wardenWord (w : Word) : Bool :=
  fld w 22 6 == 0x1E || fld w 22 6 == 0x1F || (fld w 22 6 == 0 && (fld w 0 7 == 4 || fld w 0 7 == 5))

/-- An instruction whose word has been fetched: the checks of R274 in their order, the wait for its sources (R276), and its
body. -/
def pipRun (x : Issue) (word : Word) (undef : Core → Bool) (priv : Bool) (body : Body) (s : State) (c : Core) : Res :=
  if c.guardUndef x.guard || undef c then .next (s.setCore x.core (c.trap { code := 1, eaddr := word }))
  else if priv && !c.super then .next (s.setCore x.core (c.trap { code := 2, eaddr := 0 }))
  else if !c.guardTrue x.guard then .next (s.setCore x.core (c.retire 1))
  else
    let c := c.await (sourceRegs word)
    match body s c with
    | .error e => .next (s.setCore x.core (c.trap e))
    | .ok (s, c) => .next (s.setCore x.core c)

/-- One instruction issued by core `x.core` (R274): `pair` says that it is decoded with its successor, `word` is its
encoding, `undef` and `priv` say when it traps UNDEF or PRIV. A core that cannot issue is left as it is, and so is a Warden by
what it does not share with a Pip. A fetch that misses makes issue wait.
[log 125 DESIGN CHOICE, 126 DEDUCED, 154 DEDUCED] -/
def pipIssueWith (pair : Bool) (x : Issue) (word : Word) (undef : Core → Bool) (priv : Bool) (body : Body) (s : State) : Res :=
  let c := s.core x.core
  if decide (22 ≤ x.core) || (decide (20 ≤ x.core) && !wardenWord word) || !c.canIssue then .next s
  else
    let hit := decide (20 ≤ x.core) || (c.hits c.pc && (!pair || c.hits (c.pc + 4)))
    let (s, c) := if hit then (s, c) else s.stalled c
    match s.fetchAll x pair c with
    | none => .next (s.setCore x.core c)
    | some (s, .error e) => .next (s.setCore x.core (c.trap e))
    | some (s, .ok c) => pipRun x word undef priv body s c

/-- One instruction issued by core `x.core`, with the fetch checks of its own word (R274). -/
def pipIssue (x : Issue) (word : Word) (undef : Core → Bool) (priv : Bool) (body : Body) (s : State) : Res :=
  pipIssueWith false x word undef priv body s

/-- An encoding with no mode of its own: never UNDEF but for its guard. -/
def neverUndef (_ : Core) : Bool := false

/-- A body that changes the core alone. -/
def coreBody (f : Core → Core) : Body := fun s c => .ok (s, f c)

end Sys2Proof.Machine
end

