-- ==== Sys2Proof/Machine/PipControl.lean ====
section
/-!
DEFINITION. Branches, loops, special registers and the trapping instructions of a Pip (R255, R261,
R264, R269-R273).
-/

namespace Sys2Proof.Machine

/-! ### Branches -/

/-- A conditional branch to `off` words away: `taken` judges the core after `f` (R269, R276). -/
def branchBody (f : Core → Core) (taken : Core → Bool) (off : Int) (cost : Nat) : Body :=
  coreBody fun c =>
    let c := f c
    if taken c then c.jump (branchTarget c.pc off) cost else c.retire 1

/-- Issue cycles of a taken `dbnz` or `dblc`: 1 backward, 3 forward (R276). -/
def loopCost (off : Int) : Nat := if off ≤ 0 then 1 else 3

/-- `br` (R260). -/
def execBr (x : Issue) (off : BitVec 22) (s : State) : Res :=
  pipIssue x (encJ x.guard 0x20 off) neverUndef false (branchBody id (fun _ => true) off.toInt 3) s

/-- `call`: g31 = PC + 4 (R260). -/
def execCall (x : Issue) (off : BitVec 22) (s : State) : Res :=
  pipIssue x (encJ x.guard 0x21 off) neverUndef false
    (branchBody (fun c => c.setG 31 (c.pc + 4)) (fun _ => true) off.toInt 3) s

/-- A jump to a register, which is read before the link is written (R260, R269). -/
def jumpBody (rd ra : Reg) : Body := fun s c =>
  let t := c.g ra
  if fld t 0 2 ≠ 0 then .error { code := 3, eaddr := t }
  else .ok (s, (c.setG rd (c.pc + 4)).jump t 3)

/-- `jr` (R260, R269). -/
def execJr (x : Issue) (ra : Reg) (s : State) : Res :=
  pipIssue x (encR x.guard 0x22 0 ra 0 0) neverUndef false (jumpBody 0 ra) s

/-- `jalr` (R260, R269). -/
def execJalr (x : Issue) (rd ra : Reg) (s : State) : Res :=
  pipIssue x (encR x.guard 0x23 rd ra 0 0) neverUndef false (jumpBody rd ra) s

/-- `dbnz`; g0 traps UNDEF (R270). -/
def execDbnz (x : Issue) (gn : Reg) (off : BitVec 17) (s : State) : Res :=
  pipIssue x (encD x.guard 0x24 gn off) (fun _ => gn = 0) false
    (branchBody (fun c => c.setG gn (c.g gn - 1)) (fun c => c.g gn ≠ 0) off.toInt (loopCost off.toInt)) s

/-- `dblc` (R270). -/
def execDblc (x : Issue) (off : BitVec 22) (s : State) : Res :=
  pipIssue x (encJ x.guard 0x26 off) neverUndef false
    (branchBody (fun c => { c with lc := c.lc - 1 }) (fun c => c.lc ≠ 0) off.toInt (loopCost off.toInt)) s

/-- `b.cc`: F-mode only, and cond 15 is unassigned (R259, R264). -/
def execBCc (x : Issue) (cond : BitVec 4) (off : BitVec 18) (s : State) : Res :=
  pipIssue x (encF x.guard 0x25 cond off) (fun c => !c.fmode || cond = 15) false
    (branchBody id (fun c => condHolds c.status cond) off.toInt 3) s

/-! ### rep -/

/-- The count a `rep` latches, by its FORM (R271). -/
def repCount (c : Core) (form : BitVec 2) (n : Reg) (imm : BitVec 8) : Word :=
  match form.toNat with
  | 0 => c.g n
  | 1 => imm.zeroExtend 32
  | _ => c.lc

/-- `rep` decoded with its successor `succ`: a count of 0 retires both (R271, R272). -/
def execRep (x : Issue) (form : BitVec 2) (n : Reg) (imm : BitVec 8) (succ : Word) (s : State) : Res :=
  pipIssueWith true x
    (x.guard ++ (0x27 : BitVec 6) ++ n ++ (0 : BitVec 5) ++ form ++ (0 : BitVec 2) ++ imm : BitVec 32)
    (fun _ => form = 3 || (form ≠ 0 && n ≠ 0) || (form ≠ 1 && imm ≠ 0) || repSuccessorBad succ) false
    (coreBody fun c =>
      let k := repCount c form n imm
      if k = 0 then { c.tick 1 with pc := c.pc + 8, retired := c.retired + 2 }
      else { c.tick 1 with pc := c.pc + 4, retired := c.retired + 1, repcnt := k, repNew := true }) s

/-! ### Special registers -/

/-- The saved state that EPC and ESTATUS name: the top frame, or the registers of an empty stack
(R289, R290).
[log 127 DEDUCED] -/
def Core.top (c : Core) : Frame :=
  match c.frames with
  | f :: _ => f
  | [] => { epc := c.epc, estatus := c.estatus, repcnt := 0 }

/-- The value `mfs` reads (R255, R290); `id` is `PIPID`.
[log 127 DEDUCED] -/
def Core.readSr (c : Core) (id : Word) (n : Nat) : Word :=
  match n with
  | 0x000 => c.status
  | 0x001 => setBit (c.pred.zeroExtend 32) 0 true
  | 0x002 => c.lc
  | 0x008 => c.top.epc
  | 0x009 => setFld c.top.estatus 24 4 c.frames.length
  | 0x00A => c.ecause
  | 0x00B => c.eaddr
  | 0x00C => c.vbase
  | 0x020 => c.cycle.truncate 32
  | 0x021 => c.cycleHi
  | 0x022 => c.retired
  | 0x030 => id
  | _ =>
    let u := c.unit ((n - 0x10) / 4)
    match (n - 0x10) % 4 with
    | 0 => u.base
    | 1 => u.index
    | 2 => u.step
    | _ => u.cfg

/-- The bits of `old` outside `mask` with the bits of `v` inside it. -/
def mergeBits (mask old v : Word) : Word := (old &&& ~~~mask) ||| (v &&& mask)

/-- A special register written (R255, R290): an `mts` to EPC ends a saved repeat. -/
def Core.writeSr (c : Core) (n : Nat) (v : Word) : Core :=
  match n with
  | 0x000 => { c with status := mergeBits 0xF0000703 c.status v }
  | 0x001 => { c with pred := bset (v.truncate 8) 0 true }
  | 0x002 => { c with lc := v }
  | 0x008 =>
    match c.frames with
    | f :: r => { c with frames := { f with epc := v &&& ~~~3, repcnt := 0 } :: r }
    | [] => { c with epc := v &&& ~~~3 }
  | 0x009 =>
    match c.frames with
    | f :: r => { c with frames := { f with estatus := mergeBits 0xF007F703 f.estatus v } :: r }
    | [] => { c with estatus := mergeBits 0xF007F703 c.estatus v }
  | 0x00A => { c with ecause := v &&& 0xC1FF000F }
  | 0x00B => { c with eaddr := v }
  | 0x00C => { c with vbase := v &&& ~~~0x3FF }
  | _ =>
    let i := (n - 0x10) / 4
    let u := c.unit i
    let u' : AddrUnit := match (n - 0x10) % 4 with
      | 0 => { u with base := v }
      | 1 => { u with index := v }
      | 2 => { u with step := v }
      | _ => { u with cfg := v &&& 0x003FFFFF }
    { c with au := vset c.au i u' }

/-- `PIPID` of a core (R255). -/
def State.pipId (s : State) (k : Nat) : Word :=
  let (i, n) := (s.pipOf k).getD (0, 0)
  wd (256 * (s.core k).fmode.toNat + 16 * i + n)

/-- `mfs`: a read of CYCLE_LO captures the high half (R255). -/
def execMfs (x : Issue) (rd : Reg) (sr : BitVec 12) (s : State) : Res :=
  pipIssue x (encI x.guard 0x1E rd 0 sr) (fun _ => !srReadable sr.toNat) (srReadPriv sr.toNat)
    (fun s c =>
      let v := c.readSr (s.pipId x.core) sr.toNat
      let c := if sr = 0x020 then { c with cycleHi := (c.cycle >>> 32).truncate 32 } else c
      .ok (s, (c.setG rd v).retire 1)) s

/-- `mts` (R255). -/
def execMts (x : Issue) (sr : BitVec 12) (ra : Reg) (s : State) : Res :=
  pipIssue x (encI x.guard 0x1F 0 ra sr) (fun _ => !srWritable sr.toNat) (srWritePriv sr.toNat)
    (coreBody fun c => (c.writeSr sr.toNat (c.g ra)).retire 1) s

/-! ### The SYS group -/

/-- The word of a SYS instruction (R261). -/
def encSys (guard : BitVec 4) (ra : Reg) (fn : BitVec 7) : Word := encR guard 0 0 ra 0 fn

/-- `nop` (R261). -/
def execNop (x : Issue) (s : State) : Res :=
  pipIssue x (encSys x.guard 0 1) neverUndef false (coreBody fun c => c.retire 1) s

/-- `break` raises its exception when its guard is true (R261, R274). -/
def execBreak (x : Issue) (s : State) : Res :=
  pipIssue x (encSys x.guard 0 2) neverUndef false (fun _ _ => .error { code := 7, eaddr := 0 }) s

/-- `syscall` raises its exception when its guard is true (R261, R274). -/
def execSyscall (x : Issue) (s : State) : Res :=
  pipIssue x (encSys x.guard 0 3) neverUndef false (fun _ _ => .error { code := 8, eaddr := 0 }) s

/-- `isync` discards what was fetched: 5 cycles (R276, R283). -/
def execIsync (x : Issue) (s : State) : Res :=
  pipIssue x (encSys x.guard 0 6) neverUndef false (coreBody fun c => { c.retire 5 with fetchBuf := none }) s

/-- An undefined encoding traps UNDEF; a word that is defined in the core's mode is no such command
and changes nothing (R273). -/
def execUndefinedInstruction (x : Issue) (word : Word) (s : State) : Res :=
  if undefWord word (s.core x.core).fmode then
    pipIssue { x with guard := 0 } word (fun _ => true) false (coreBody id) s
  else .next s

end Sys2Proof.Machine
end

