-- ==== Sys2Proof/Machine/PipSystem.lean ====
section
/-!
DEFINITION. Interrupts, waiting and fences of a core (R284, R289-R295): entry, `rti` with its chain,
`wait` and `fence.w`.
-/

namespace Sys2Proof.Machine

/-- `STATUS.IPL` (R255). -/
def Core.ipl (c : Core) : Nat := fld c.status 8 3

/-- `ECAUSE` of an interrupt from source `n` (R288, R290). -/
def irqCause (n : Nat) : Word := setFld 9 16 9 n

/-- An interrupt of source `n` and priority `p` entered (R288, R289): 6 cycles. -/
def Core.enterIrq (c : Core) (n p : Nat) : Core :=
  let c := (c.enter (irqCause n) 0 (0x240 + 0x40 * p)).tick 6
  { c with status := setFld c.status 8 3 p }

/-- At an instruction boundary the core takes the highest interrupt presented to it above its IPL
(R291, R292); never between a `rep` and its first iteration (R271), and not with a full context
stack, which halts it (R289).
[log 154 DEDUCED] -/
def execPipInterruptEntry (core : Nat) (s : State) : Res :=
  let c := s.core core
  if decide (22 ≤ core) || !c.canIssue || c.repNew || !bit c.status 1 then .next s
  else
    match s.presented core with
    | none => .next s
    | some n =>
      let p := s.irqPri n
      if p ≤ c.ipl then .next s
      else if 8 ≤ c.frames.length then .next (s.setCore core (c.enter 0 0 0))
      else .next ((s.accept n core).setCore core (c.enterIrq n p))

/-- An interrupt delivered to a retained Pip wakes its island: the Pip is in `wait` again (R295). -/
def execPipRetentionWake (core : Nat) (s : State) : Res :=
  let c := s.core core
  if c.run = .retention && (s.presented core).isSome then .next (s.setCore core { c with run := .waiting })
  else .next s

/-- A pending interrupt ends a `wait` (R294): above IPL, or any while IPL is 0. -/
def State.endsWait (s : State) (core : Nat) : Bool :=
  match s.presented core with
  | none => false
  | some n => decide ((s.core core).ipl < s.irqPri n) || (s.core core).ipl == 0

/-- Issue restarts 3 cycles after the pending state reaches the core; CYCLE has counted through the
wait, which has no fixed length (R294). -/
def execWaitWake (core : Nat) (s : State) : Res :=
  let c := s.core core
  if c.run = .waiting && s.endsWait core then
    .next ({ s with nonce := s.nonce + 1 }.setCore core
      { c with run := .running, cycle := c.cycle + 3 + Config.pipStall s.nonce })
  else .next s

/-- `wait`, supervisor: issue is held, with PC at the instruction after it (R256, R294). -/
def execWait (x : Issue) (s : State) : Res :=
  pipIssue x (encSys x.guard 0 5) neverUndef true (coreBody fun c => { c.retire 1 with run := .waiting }) s

/-- The return of `rti`: the top frame popped, FMODE kept; with an empty stack PC and STATUS from EPC
and ESTATUS as they stand (R290).
[log 127 DEDUCED] -/
def Core.ret (c : Core) : Core :=
  let st (es : Word) : Word := mergeBits 0xF0000703 c.status es
  let c := { c with retired := c.retired + 1, fetchBuf := none }
  match c.frames with
  | f :: r =>
    { c.tick 4 with
      frames := r, pc := f.epc, status := st f.estatus, repcnt := f.repcnt
      pred := BitVec.ofNat 8 (2 * fld f.estatus 12 7 + 1) }
  | [] => { c.tick 4 with pc := c.epc, status := st c.estatus, repcnt := 0 }

/-- The chain of `rti` (R293): the frame stays, and the vector of source `n` runs at its priority. -/
def Core.chain (c : Core) (n p : Nat) : Core :=
  { c.tick 6 with
    ecause := irqCause n, status := setFld c.status 8 3 p, retired := c.retired + 1, fetchBuf := none
    pc := c.vbase + wd (0x240 + 0x40 * p) }

/-- `rti`, supervisor (R256, R290, R293). -/
def execRti (x : Issue) (s : State) : Res :=
  pipIssue x (encSys x.guard 0 4) neverUndef true
    (fun s c =>
      match s.presented x.core with
      | none => .ok (s, c.ret)
      | some n =>
        let es := c.top.estatus
        if bit es 1 && decide (fld es 8 3 < s.irqPri n) then .ok (s.accept n x.core, c.chain n (s.irqPri n))
        else .ok (s, c.ret)) s

/-- Stores of the core that have not reached their memory or register: buffered, or held at a unit
being rebound (R23, R281, R284). -/
def State.storesOut (s : State) (core : Nat) (c : Core) : Bool :=
  !c.wbuf.isEmpty || (List.range 4).any fun i => (s.stage i).heldWrites.any fun w => w.2.2.2 == .pip core

/-- `fence.w`: issue is held while earlier stores are out (R284). -/
def execFenceW (x : Issue) (s : State) : Res :=
  pipIssue x (encSys x.guard 0 7) neverUndef false
    (fun s c => .ok (s, { c.retire 1 with fencing := s.storesOut x.core c })) s

/-- The drain of R284 ends: issue resumes. -/
def execFenceWDrainEnd (core : Nat) (s : State) : Res :=
  let c := s.core core
  if c.fencing && !s.storesOut core c then .next (s.setCore core { c with fencing := false }) else .next s

end Sys2Proof.Machine
end

