-- ==== Sys2Proof/Machine/Bus.lean ====
section
/-!
DEFINITION. Writes and reads of the device address space (R9, R12, R19, R36, R308): memory, the management block, the
Sector windows, the stage windows and the shared blocks, and what the host reaches through its BARs (R415-R417).
-/

namespace Sys2Proof.Machine

/-! ### Plain registers -/

/-- A management, Sector or shared register written as its row says (R9, R10); `_HI` of a pair is staged (R130). -/
def State.plainWrite (s : State) (a : Nat) (v mask : Word) : State :=
  match deviceRow a with
  | none => s
  | some row =>
    let w := row.write (s.dreg a) v mask
    match row.pair with
    | .plain => s.setDreg a w
    | .hi => { s with hi := sset (fun _ => 0) s.hi (a - 4) (setBit w 31 true) }
    | .lo =>
      let h := sget (fun _ => (0 : Word)) s.hi a
      let s := s.setDreg a w
      if bit h 31 then { s.setDreg (a + 4) (setBit h 31 false) with hi := sset (fun _ => 0) s.hi a 0 } else s

/-- The stored word of a register as a read returns it (R9, R10). -/
def State.plainRead (s : State) (a : Nat) : Word :=
  match deviceRow a with
  | none => 0
  | some row => s.dreg a &&& row.readMask

/-- The value that the bits of `mask` of a write leave in a register (R9). -/
def State.newReg (s : State) (a : Nat) (v mask : Word) : Word :=
  match deviceRow a with
  | none => 0
  | some row => row.write (s.dreg a) v mask

/-! ### Interrupt router (R298, R307-R309) -/

/-- The stage that owns a source, if a stage does (R298). -/
def State.sourceOwner (s : State) (n : Nat) : Option Nat :=
  if n < 32 then none
  else if n < 288 then some ((n - 32) / 64)
  else if n < 320 then s.timerOwner (n - 288)
  else if n < 340 then (s.pipOf (n - 320)).map Prod.fst
  else if n < 368 then none
  else if n < 396 then some ((n - 368) / 7)
  else if n < 416 then none
  else if n < 480 then s.qiOwner (n - 416)
  else none

/-- The initiator may reach the registers of a source (R298, R308); no initiator writes those of an acknowledgement. -/
def State.maySource (s : State) (ini : Initiator) (n : Nat) : Bool := s.mayWrite ini (s.sourceOwner n)

/-- `IRQ_CFG` written (R307-R309, R314): stage software names its own logical Pips; a doorbell has a fixed sense and
target.
[log 38 DEDUCED] -/
def State.writeIrqCfg (s : State) (ini : Initiator) (n : Nat) (v mask : Word) : State :=
  let a := 0x13000000 + 8 * n
  let w := s.newReg a v mask
  if 344 ≤ n ∧ n < 368 then s
  else if 320 ≤ n ∧ n < 344 then s.modDreg a fun old => setFld old 4 3 (fld w 4 3)
  else
    let t := fld v 8 5
    match s.initStage ini with
    | some i => s.setDreg a (if fld mask 8 5 = 0 then w else setFld w 8 5 (if t < 8 then (s.pipPhys i t).getD 31 else 31))
    | none => s.setDreg a w

/-- PENDING of a source cleared; a level source whose input is still asserted pends again (R307).
[log 38 DEDUCED, 39 DEDUCED] -/
def State.clearPending (s : State) (n : Nat) : State :=
  let s := s.setIrq n { s.irq n with pending := false, pulse := false }
  let q := s.irq n
  if s.irqLevel n && !q.active && s.levelHigh n (s.sourceInput n) then
    s.setIrq n { (if q.events == 0 then q.count s.peri else q) with pending := true }
  else s

/-- The registers of target `t` written (R303, R307): `o` 4 is the end of interrupt, 8 the state. -/
def State.writeTarget (s : State) (t o : Nat) (cmd : Word) : State :=
  if 24 ≤ t then s
  else if o = 4 then s.eoi t (fld cmd 0 9)
  else if o = 8 && bit cmd 3 then { s with badEoi := bset s.badEoi t false }
  else s

/-- A write of the router block (R307, R308).
[log 37 DEDUCED] -/
def State.writeRouter (s : State) (ini : Initiator) (o : Nat) (v mask : Word) : State :=
  let a := 0x13000000 + o
  let cmd := v &&& mask
  let guard (may : Bool) (f : State → State) : State := if may then f s else s.accViol ini a
  if o < 0x1000 then
    let n := o / 8
    guard (s.maySource ini n && !(decide (344 ≤ n) && decide (n < 368) && (s.initStage ini).isSome)) fun s =>
      if o % 8 = 0 then s.writeIrqCfg ini n v mask
      else if 344 ≤ n ∧ n < 368 then s
      else s.plainWrite a v mask
  else if o < 0x1800 then
    let n := (o - 0x1000) / 4
    guard (s.maySource ini n) fun s => if bit cmd 0 && !(decide (344 ≤ n) && decide (n < 368)) then s.clearPending n else s
  else if 0x2000 ≤ o ∧ o < 0x2180 then guard (s.wardenMay ini) fun s => s.writeTarget ((o - 0x2000) / 16) (o % 16) cmd
  else if 0x3000 ≤ o ∧ o < 0x300C then s.writeTarget (s.targetOf ini) (o - 0x3000) cmd
  else if 0x3100 ≤ o ∧ o < 0x3110 then s.swWrite ini ((o - 0x3100) / 4) cmd false
  else if 0x3110 ≤ o ∧ o < 0x3120 then s.swWrite ini ((o - 0x3110) / 4) cmd true
  else s

/-- A target as stage software of stage `i` reads it (R309). -/
def State.logicalTarget (s : State) (i t : Nat) : Nat :=
  if 24 ≤ t then 31
  else match s.pipOf t with
    | some (j, n) => if j = i then n else 30
    | none => 30

/-- `IRQ_STAT` of a source (R307). -/
def State.irqStat (s : State) (n : Nat) : Word :=
  let q := s.irq n
  let pend := s.isPending n
  wd (min q.events 255 * 0x10000 + (if q.active then q.accTgt else 31) * 0x100 + (pend && !q.active && s.isHeld n).toNat * 16 +
    (s.sourceInput n).toNat * 8 + (s.isStranded n).toNat * 4 + q.active.toNat * 2 + pend.toNat)

/-- The state register of a target (R307). -/
def State.targetState (s : State) (t : Nat) : Word :=
  let k := ((s.irqs.map Prod.fst).filter fun n => s.irqTarget n == t && s.isStranded n).length
  wd (min k 0xFFFF * 0x10000 + (s.badEoi.getLsbD t).toNat * 8 + s.targetPower t)

/-- The claim register of a target: what is presented, which the read accepts (R302, R307). -/
def State.readClaim (s : State) (t : Nat) : Word × State :=
  match s.presented t with
  | some n => (wd (0x80000000 + s.irqPri n * 0x10000 + n), s.claim t)
  | none => (0, s)

/-- The registers of target `t` read. -/
def State.readTarget (s : State) (t o : Nat) : Word × State :=
  if 24 ≤ t then (0, s) else if o = 0 then s.readClaim t else if o = 8 then (s.targetState t, s) else (0, s)

/-- A read of the router block (R307-R309): stage software reads 0 of what its stage does not own. -/
def State.readRouter (s : State) (ini : Initiator) (o : Nat) : Word × State :=
  let a := 0x13000000 + o
  let view (w : Word) : Word := match s.initStage ini with
    | some i => setFld w 8 5 (s.logicalTarget i (fld w 8 5))
    | none => w
  if o < 0x1000 then
    (if !s.maySource ini (o / 8) then 0
     else if o % 8 = 0 then
       let n := o / 8
       view (setFld (setFld (setFld (s.plainRead a) 8 5 (s.irqTarget n)) 4 3 (s.irqPri n)) 0 3 (s.irqSense n))
     else s.plainRead a, s)
  else if o < 0x1800 then
    (if s.maySource ini ((o - 0x1000) / 4) then view (s.irqStat ((o - 0x1000) / 4)) else 0, s)
  else if 0x2000 ≤ o ∧ o < 0x2180 then (if s.wardenMay ini then s.readTarget ((o - 0x2000) / 16) (o % 16) else (0, s))
  else if 0x3000 ≤ o ∧ o < 0x300C then s.readTarget (s.targetOf ini) (o - 0x3000)
  else if 0x3100 ≤ o ∧ o < 0x3120 then
    let n := (o - 0x3100) % 16 / 4
    (if s.mayWrite ini (some n) then s.dreg (0x13003100 + 4 * n) else 0, s)
  else (0, s)

/-! ### Mailboxes (R314-R317) -/

/-- The mailbox and the offset in it that an offset of the mailbox block names; the aliases name the Pips of the
accessing stage (R317). -/
def State.mboxAt (s : State) (ini : Initiator) (o : Nat) : Option (Nat × Nat) :=
  if o < 0x1800 then some (o / 0x100, o % 0x100)
  else if 0x2000 ≤ o ∧ o < 0x2800 then
    match s.initStage ini with
    | some i => (s.pipPhys i ((o - 0x2000) / 0x100)).map fun k => (k, o % 0x100)
    | none => none
  else none

/-- A write of mailbox `m` by target `t` (R314-R317). -/
def State.writeMbox (s : State) (ini : Initiator) (t m r : Nat) (v mask : Word) : State :=
  let cmd := v &&& mask
  if r = 4 then s.mbWrite m t r fun b => b.ring m t cmd s.tallyLo
  else if r = 8 then s.mbWrite m t r fun b => b.ack m t cmd
  else if r = 0xC then
    let s := s.mbWrite m t r fun b => if bit cmd 0 then b.release m t else b
    if bit cmd 1 && s.mbReach t m then s.mbForce ini m t else s
  else if r = 0x1C then s.mbWrite m t r fun b => { b with err := b.err &&& ~~~(cmd.truncate 4) }
  else if 0x20 ≤ r ∧ r < 0x40 then
    s.mbWrite m t r fun b => b.setMsg m t ((r - 0x20) / 4) (merged mask (vget 0 b.msg ((r - 0x20) / 4)) v)
  else if 0x40 ≤ r ∧ r < 0x60 then
    s.mbWrite m t r fun b => b.setReply m t ((r - 0x40) / 4) (merged mask (vget 0 b.reply ((r - 0x40) / 4)) v)
  else s.mbWrite m t r id

/-- A write of the mailbox block. -/
def State.writeMboxBlock (s : State) (ini : Initiator) (o : Nat) (v mask : Word) : State :=
  let t := s.targetOf ini
  if 24 ≤ t then s.accViol ini (0x13010000 + o)
  else match s.mboxAt ini o with
    | some (m, r) => s.writeMbox ini t m r v mask
    | none => s

/-- A read of mailbox `m` by target `t` (R314-R317).
[log 130 DEDUCED] -/
def State.readMbox (s : State) (t m r : Nat) : Word × State :=
  let b := s.mb m
  if !s.mbReach t m then (0, s)
  else if r = 0 then
    let b' := b.judge m [t]
    (wd ((decide (b.state = .idle) && b'.state = .claimed).toNat * 2 ^ 31 + b'.sender), s.setMb m b')
  else if r = 4 then (0, s.setMb m (b.refuse m t (b.state = .claimed)))
  else if r = 8 then (0, s.setMb m (b.refuse m t (b.state = .posted)))
  else if r = 0xC then (0, s.setMb m (b.refuse m t (b.state = .claimed || b.state = .done)))
  else if r = 0x10 then
    let k : Nat := match b.state with | .idle => 0 | .claimed => 1 | .posted => 2 | .done => 3
    (wd (s.rxState m * 0x1000000 + b.sender * 0x10000 + k), s)
  else if r = 0x14 then (b.result, s)
  else if r = 0x18 then (b.posted, s)
  else if r = 0x1C then (b.err.zeroExtend 32, s)
  else if 0x20 ≤ r ∧ r < 0x40 then
    if b.state = .posted && t == m then (vget 0 b.msg ((r - 0x20) / 4), s) else (0, s.setMb m (b.refuse m t (b.state = .posted)))
  else if 0x40 ≤ r ∧ r < 0x60 then
    if b.state = .done && t == b.sender then (vget 0 b.reply ((r - 0x40) / 4), s)
    else (0, s.setMb m (b.refuse m t (b.state = .done)))
  else (0, s)

/-- A read of the mailbox block. -/
def State.readMboxBlock (s : State) (ini : Initiator) (o : Nat) : Word × State :=
  let t := s.targetOf ini
  if 24 ≤ t then (0, s)
  else match s.mboxAt ini o with
    | some (m, r) => s.readMbox t m r
    | none => (0, s)

/-! ### The Vine block (R321) -/

/-- A write of channel `c` (R327, R336-R338). -/
def State.writeChan (s : State) (c r : Nat) (v mask : Word) : State :=
  let a := chanReg c r
  if r = 0 then s.writeChanCtrl c (s.newReg a v mask)
  else if r = 4 then s.chanCmd c (v &&& mask)
  else s.plainWrite a v mask

/-- A write of the group registers of stage `g` (R330, R331): the table stays while a context is pinned. -/
def State.writeGrp (s : State) (g r : Nat) (v mask : Word) : State :=
  let cmd := v &&& mask
  if 4 ≤ g then s
  else if r = 0xC then s.bell g (fld cmd 0 18) (fld cmd 18 14)
  else if r = 0x10 then s.grpSync g (fld cmd 0 18)
  else if r ≤ 8 ∧ !(s.pinned g).isEmpty then s
  else s.plainWrite (grpReg g r) v mask

/-- A write of Ledger bank `g` (R345). -/
def State.writeLdg (s : State) (g r : Nat) (v mask : Word) : State :=
  if r = 0x100 then s.ldgSubmit g (fld (v &&& mask) 0 9) else s.plainWrite (ldgReg g r) v mask

/-- A write of the queue manager (R341-R348). -/
def State.writeQm (s : State) (r : Nat) (v mask : Word) : State :=
  let idle (d : Nat) : Bool := (s.drive d).state == 0 || (s.drive d).state == 3
  if r = 0x80 ∧ !(idle 0 && idle 1) then s else (s.plainWrite (qmReg r) v mask).storeGo

/-- A place of the Vine block: channel, group registers, queue manager or Ledger bank. -/
inductive VinePlace where
  | chan (c r : Nat)
  | grp (g r : Nat)
  | qm (r : Nat)
  | ldg (g r : Nat)
  deriving DecidableEq, Repr

/-- The place of an offset of the Vine block; stage software has its own views (R321). -/
def State.vineAt (s : State) (ini : Initiator) (o : Nat) : Option VinePlace :=
  if o < 0x4000 then some (.chan (o / 0x100) (o % 0x100))
  else if o < 0x4500 then some (.grp ((o - 0x4000) / 0x100) (o % 0x100))
  else if 0xC000 ≤ o ∧ o < 0xC100 then some (.qm (o - 0xC000))
  else if 0xE000 ≤ o ∧ o < 0xEA00 then some (.ldg ((o - 0xE000) / 0x200) (o % 0x200))
  else match s.initStage ini with
    | none => none
    | some i =>
      if 0x8000 ≤ o ∧ o < 0x8E00 then some (.chan (14 * i + (o - 0x8000) / 0x100) (o % 0x100))
      else if 0x9000 ≤ o ∧ o < 0x9100 then some (.grp i (o % 0x100))
      else if 0xF000 ≤ o ∧ o < 0xF200 then some (.ldg i (o % 0x200))
      else none

/-- The initiator may reach a place of the Vine block (R308, R321). -/
def State.mayVine (s : State) (ini : Initiator) : VinePlace → Bool
  | .chan c _ => s.mayChan ini c
  | .grp g _ => s.mayWrite ini (if g < 4 then some g else none)
  | .qm _ => s.mayWrite ini none
  | .ldg g _ => s.mayWrite ini (if g < 4 then some g else none)

/-- A write of the Vine block. -/
def State.writeVine (s : State) (ini : Initiator) (o : Nat) (v mask : Word) : State :=
  match s.vineAt ini o with
  | none => s
  | some p =>
    s.vineWrite ini (s.mayVine ini p) (0x13020000 + o) fun s =>
      match p with
      | .chan c r => s.writeChan c r v mask
      | .grp g r => s.writeGrp g r v mask
      | .qm r => s.writeQm r v mask
      | .ldg g r => s.writeLdg g r v mask

/-- A read of channel `c` (R336-R338): `CHAN_CUR` captures its high part. -/
def State.readChan (s : State) (c r : Nat) : Word × State :=
  let v := s.chan c
  if r = 0x18 then (s.chanStatus c, s)
  else if r = 0x1C then (wd (v.cur % 2 ^ 32 / 32 * 32), s.setChan c { v with curHi := v.cur / 2 ^ 32 % 256 })
  else if r = 0x20 then (wd v.curHi, s)
  else if r = 0x24 then (v.resid, s)
  else (s.plainRead (chanReg c r), s)

/-- What a place of the Vine block reads as. -/
def State.readVinePlace (s : State) : VinePlace → Word × State
  | .chan c r => s.readChan c r
  | .grp g r =>
    (if 4 ≤ g then 0 else if r = 0x14 then s.grpStatus g else if r = 0x18 then wd (vget 0 s.badRing g) else s.plainRead (grpReg g r), s)
  | .qm r =>
    (if r = 4 then s.qmStatus else if r = 8 then wd s.storeCap else if r = 0x88 then wd s.store.oldest
     else if r = 0x8C then wd s.store.nextSeq else s.plainRead (qmReg r), s)
  | .ldg g r =>
    (if r = 0x104 then s.ldgStatus g else if r = 0x108 then vget 0 s.store.submitted g
     else if r = 0x10C then vget 0 s.store.acked g else s.plainRead (ldgReg g r), s)

/-- A read of the Vine block. -/
def State.readVine (s : State) (ini : Initiator) (o : Nat) : Word × State :=
  match s.vineAt ini o with
  | none => (0, s)
  | some p => if s.mayVine ini p then s.readVinePlace p else (0, s)

/-! ### Timers and the Tally -/

/-- A write of timer channel `k` (R364-R371). -/
def State.writeTimer (s : State) (ini : Initiator) (k r : Nat) (v mask : Word) : State :=
  s.timerWrite ini k r fun s =>
    let w := s.newReg (timerReg k r) v mask
    if r = 0 then s.writeTcCtrl ini k w
    else if r = 4 then s.writeTcLink ini k w
    else if r = 8 then s.tcCmd k (v &&& mask)
    else if 0x20 ≤ r ∧ r < 0x30 then s.writeCmp k ((r - 0x20) / 4) w
    else if r = 0x40 then s.writeCapcfg k w
    else s.plainWrite (timerReg k r) v mask

/-- A read of timer channel `k`. -/
def State.readTimer (s : State) (k r : Nat) : Word :=
  if r = 0x14 then (s.timer k).count
  else if r = 0x44 then (s.timer k).cap
  else if r = 0x48 then s.tcStatus k
  else s.plainRead (timerReg k r)

/-- A write of the Tally block, by the Warden (R372-R374). -/
def State.writeTally (s : State) (r : Nat) (v mask : Word) : State :=
  let cmd := v &&& mask
  if r = 8 then s.setTally cmd
  else if r = 0xC then { s with tally := { s.tally with setHi := some cmd } }
  else if r = 0x10 then
    let enabled := bit (s.dreg 0x13040010) 0
    let s := s.plainWrite 0x13040010 v mask
    let t := { s with tally := { s.tally with
      est := s.tally.est && !bit cmd 2, lost := s.tally.lost && !bit cmd 3, alarm := s.tally.alarm && !bit cmd 1 } }
    if enabled then t else t.fireAlarm
  else if r = 0x20 ∨ r = 0x24 then (s.plainWrite (0x13040000 + r) v mask).fireAlarm
  else s.plainWrite (0x13040000 + r) v mask

/-- A read of the Tally block (R372-R375): the low word of a pair captures the high one. -/
def State.readTally (s : State) (r : Nat) : Word × State :=
  let t := s.tally
  if r = 0 then (s.tallyLo, { s with tally := { t with hiCap := s.tallyHi } })
  else if r = 4 then (t.hiCap, s)
  else if r = 0x10 then
    (wd (t.skewEst.toNat * 16 + t.lost.toNat * 8 + t.est.toNat * 4 + t.alarm.toNat * 2 + (bit (s.dreg 0x13040010) 0).toNat), s)
  else if r = 0x14 then (t.err, s)
  else if r = 0x18 then (t.cal, s)
  else if r = 0x30 then (t.skew.extractLsb' 0 32, { s with tally := { t with skewCap := t.skew.extractLsb' 32 32 } })
  else if r = 0x34 then (t.skewCap, s)
  else (s.plainRead (0x13040000 + r), s)

/-! ### Links (R419, R424, R430-R432) -/

/-- A write of the USB block, the Warden's (R430). -/
def State.writeUsb (s : State) (o : Nat) (v mask : Word) : State :=
  let a := 0x13050000 + o
  let p := o / 0x1000
  let r := o % 0x1000
  let cmd := v &&& mask
  if r = 0 then
    (s.plainWrite a v mask).modUsb p fun u => { u with resetting := u.resetting || bit cmd 3, resuming := u.resuming || bit cmd 5 }
  else if 0x100 ≤ r ∧ r < 0x300 ∧ r % 0x20 = 8 then
    let i := (r - 0x100) / 0x20
    let was := bit (s.dreg a) 31
    let s := s.plainWrite a v mask
    if !was && bit (s.dreg a) 31 then s.setPipe p i { s.pipe p i with halted := false } else s
  else s.plainWrite a v mask

/-- A read of the USB block. -/
def State.readUsb (s : State) (o : Nat) : Word :=
  let p := o / 0x1000
  let r := o % 0x1000
  let x := s.pipe p ((r - 0x100) / 0x20)
  if r = 0 then s.portsc p
  else if r = 8 then (s.usbp p).frame.zeroExtend 32
  else if 0x100 ≤ r ∧ r < 0x300 ∧ r % 0x20 = 0x10 then wd x.head
  else if 0x100 ≤ r ∧ r < 0x300 ∧ r % 0x20 = 0x14 then setBit (setFld (s.plainRead (0x13050000 + o)) 0 8 x.code) 8 x.halted
  else s.plainRead (0x13050000 + o)

/-- A byte pushed onto a transmit FIFO of 16 bytes; a full one loses it.
[log 138 DESIGN CHOICE] -/
def Fifo.push (f : Fifo) (b : Byte) : Fifo := if f.tx.length < 16 then { f with tx := f.tx ++ [b] } else f

/-- `I2C_CMD` written: START is ignored while BUSY (R432).
[log 45 DEDUCED] -/
def State.i2cCmd (s : State) (n : Nat) (w : Word) (start : Bool) : State :=
  let s := s.setDreg (i2cReg n 4) (w &&& 0x607F001F)
  let x := s.i2cn n
  if start && !x.busy && bit (s.dreg (i2cReg n 0)) 8 then s.setI2c n { x with busy := true } else s

/-- A write of the I2C, UART and SPI block, the Warden's (R432). -/
def State.writeSerial (s : State) (o : Nat) (v mask : Word) : State :=
  let a := 0x13060000 + o
  let cmd := v &&& mask
  let byte : Byte := cmd.truncate 8
  if o < 0x200 then
    let n := o / 0x100
    if o % 0x100 = 4 then s.i2cCmd n (s.newReg a v mask) (bit cmd 31)
    else if o % 0x100 = 8 then s.setI2c n ((s.i2cn n).push byte)
    else s.plainWrite a v mask
  else if o = 0x204 then { s with uart := s.uart.push byte }.uartLevels
  else if o = 0x400 then
    let s := s.setDreg a (s.newReg a v mask)
    if bit cmd 31 && !s.spiBusy then { s with spiBusy := true } else s
  else s.plainWrite a v mask

/-- A write of the Spoke block (R308, R424): the bus block is the Warden's, a drop its stage's. -/
def State.writeSpoke (s : State) (ini : Initiator) (o : Nat) (v mask : Word) : State :=
  let a := 0x13070000 + o
  let b := o / 0x4000
  let d := o % 0x4000 / 0x100
  let owner := (List.range 4).find? fun i => (s.stage i).drops.any fun e => e.1 == b && e.2.1 == d
  if 2 ≤ b ∨ 32 ≤ d then s
  else if !s.mayWrite ini (if d = 0 then none else owner) then s.accViol ini a
  else if d = 0 ∧ o % 0x100 = 0x84 then s.sendBcast b (v &&& mask)
  else
    let s := s.plainWrite a v mask
    if d = 0 ∧ o % 0x100 = 0x80 then s.spkKick b 0 else if d ≠ 0 ∧ o % 0x100 ≤ 0x20 then s.spkRefresh b d else s

/-- A read of the Spoke block. -/
def State.readSpoke (s : State) (ini : Initiator) (o : Nat) : Word :=
  let b := o / 0x4000
  let d := o % 0x4000 / 0x100
  let owner := (List.range 4).find? fun i => (s.stage i).drops.any fun e => e.1 == b && e.2.1 == d
  if s.mayWrite ini (if d = 0 then none else owner) then s.plainRead (0x13070000 + o) else 0

/-! ### Shared blocks -/

/-- A write of the shared blocks at 0x1300_0000 (R36): each block's own rules; the rest is reserved. -/
def State.sharedWrite (s : State) (ini : Initiator) (a : Nat) (v mask : Word) : State :=
  let o := a % 0x10000
  let warden (f : State → State) : State := if s.wardenMay ini then f s else s.accViol ini a
  match (a - 0x13000000) / 0x10000 with
  | 0 => s.hostStep fun s => s.writeRouter ini o v mask
  | 1 => s.writeMboxBlock ini o v mask
  | 2 => s.writeVine ini o v mask
  | 3 => if o < 0x2000 then s.writeTimer ini (o / 0x100) (o % 0x100) v mask else s
  | 4 => warden fun s => s.writeTally o v mask
  | 5 => warden fun s => if o < 0x4000 then s.writeUsb o v mask else s
  | 6 => warden fun s => if o < 0x600 then s.writeSerial o v mask else s
  | 7 => s.writeSpoke ini o v mask
  | _ => s

/-- A read at offset `o` of shared block `k` (R36, R308): what the initiator may not reach reads 0. -/
def State.sharedReadAt (s : State) (ini : Initiator) (k o : Nat) : Word × State :=
  match k with
  | 0 => s.readRouter ini o
  | 1 => s.readMboxBlock ini o
  | 2 => s.readVine ini o
  | 3 => (if o < 0x2000 ∧ s.mayWrite ini (s.timerOwner (o / 0x100)) then s.readTimer (o / 0x100) (o % 0x100) else 0, s)
  | 4 => s.readTally o
  | 5 => (if s.wardenMay ini && decide (o < 0x4000) then s.readUsb o else 0, s)
  | 6 =>
    if !s.wardenMay ini then (0, s)
    else if o = 8 ∨ o = 0x108 then
      let x := s.i2cn (o / 0x100)
      (wd ((x.rx.getD 0 0).toNat), s.setI2c (o / 0x100) { x with rx := x.rx.drop 1 })
    else if o = 0xC ∨ o = 0x10C then (s.i2cStatus (o / 0x100), s)
    else if o = 0x204 then (wd ((s.uart.rx.getD 0 0).toNat), { s with uart := { s.uart with rx := s.uart.rx.drop 1 } }.uartLevels)
    else if o = 0x208 then (s.uartStatus, s)
    else if o = 0x40C then (setBit (s.plainRead (0x13060000 + o)) 1 s.spiBusy, s)
    else (s.plainRead (0x13060000 + o), s)
  | 7 => (s.readSpoke ini o, s)
  | _ => (0, s)

/-- A read of the shared blocks (R36). -/
def State.sharedRead (s : State) (ini : Initiator) (a : Nat) : Word × State :=
  s.sharedReadAt ini ((a - 0x13000000) / 0x10000) (a % 0x10000)

/-! ### Management block -/

/-- A write of the management block, by the Warden. -/
def State.mgmtWrite (s : State) (ini : Initiator) (a : Nat) (v mask : Word) : State :=
  let o := a - 0x10000000
  let cmd := v &&& mask
  if o = 0x104 then
    let w := match ini with
      | .warden w => w
      | _ => s.activeWarden
    { s with keeper := { s.keeper with beat := vset s.keeper.beat w true } }
  else if o = 0x6000 then
    if bit mask 0 then { s with keeper := { s.keeper with faultPin := setBit s.keeper.faultPin 0 (bit v 0) } } else s
  else if (o = 0xA100 ∨ o = 0xA140) ∧ (s.pep ((o - 0xA100) / 0x40)).trained then s
  else if 0xB000 ≤ o ∧ o < 0xB800 ∧ o % 0x200 = 0 then
    let p := (o - 0xB000) / 0x200
    let s := s.setDreg a (s.newReg a v mask)
    if bit cmd 31 then { s with edidBusy := bset s.edidBusy p true } else s
  else s.plainWrite a v mask

/-- `PYNAL_STATUS` (R69).
[log 57 DESIGN CHOICE] -/
def State.pynalStatus (s : State) : Word :=
  let l := s.load
  wd (l.code * 0x10000 + l.source * 0x1000 + l.stage * 0x100 + l.phase * 16 + l.busy.toNat)

/-- `PWR_MODE` (R409): TARGET, STEP and LEFT. -/
def State.pwrMode (s : State) : Word := wd (s.power.target.num * 0x100 + s.power.step * 16 + s.power.left.num)

/-- A read of the management block. -/
def State.mgmtRead (s : State) (a : Nat) : Word × State :=
  let o := a - 0x10000000
  let p := s.power
  if o = 0x100 then (s.keeperStatus, s)
  else if o = 0x4000 then (s.pynalStatus, s)
  else if o = 0x6000 then (s.faultPinWord, s)
  else if o = 0x7000 then (s.pwrMode, s)
  else if o = 0x7010 then (p.lastWake, s)
  else if o = 0x7014 then (p.lastWakeT.extractLsb' 0 32, { s with power := { p with lastWakeCap := p.lastWakeT.extractLsb' 32 32 } })
  else if o = 0x701C then (p.lastWakeCap, s)
  else if o = 0x7020 then (wd (p.lowPower.toNat * 4 + p.batLow.toNat * 2 + p.onBat.toNat), s)
  else if o = 0xA000 then (s.straps.zeroExtend 32, s)
  else if o = 0xA10C ∨ o = 0xA14C then (s.peStatus ((o - 0xA10C) / 0x40), s)
  else if 0xB000 ≤ o ∧ o < 0xB800 ∧ o % 0x200 = 4 then (setBit (s.plainRead a) 2 (s.edidBusy.getLsbD ((o - 0xB000) / 0x200)), s)
  else (s.plainRead a, s)

/-! ### Sector windows (R19) -/

/-- The stage and logical voice in voice slot `j` of cluster `c`: the bound entries of the cluster in order of stage and
entry (the model's choice of slots).
[log 40 DESIGN CHOICE] -/
def State.voiceSlot (s : State) (c j : Nat) : Option (Nat × Nat) :=
  let es := (s.entries.filter fun e => decide (35 ≤ e.2.1) && e.2.2.sector == c).map fun e => (e.1, e.2.1, e.2.2.count)
  let first (i b : Nat) : Nat := ((s.stage i).brambles.take (b - 35)).foldl (fun n e => n + e.count) 0
  (es.foldl (fun (a : Nat × Option (Nat × Nat)) e =>
    (a.1 + e.2.2, if a.2.isNone && decide (a.1 ≤ j) && decide (j < a.1 + e.2.2) then some (e.1, first e.1 e.2.1 + (j - a.1)) else a.2))
    (0, none)).2

/-- The stage-window register of the mixer state at offset `q` of a stage's part of slot 29 (R19). -/
def mixerReg (q : Nat) : Option Nat :=
  if q < 0x400 then some (0x240000 + q)
  else if q < 0x800 then some (0x250000 + (q - 0x400))
  else if q < 0x880 then some (0x260000 + (q - 0x800))
  else if 0x900 ≤ q ∧ q < 0x920 then some (0x260100 + (q - 0x900))
  else if 0xC00 ≤ q ∧ q < 0xD00 then some (0x270000 + (q - 0xC00))
  else none

/-- The stage register that a unit slot of a Sector window shows, while a stage holds the unit (R19).
[log 35 PRESUMED] -/
def State.slotReg (s : State) (sec slot o : Nat) : Option (Nat × Nat) :=
  if slot = 29 then
    let n := o / 0x1000 - 1
    if 1 ≤ o / 0x1000 ∧ n < 4 ∧ (s.stage n).home = some sec then (mixerReg (o % 0x1000)).map fun r => (n, r) else none
  else if slot = 34 ∨ slot = 35 then
    (s.voiceSlot sec (((slot - 34) * 0x10000 + o) / 0x100)).map fun e => (e.1, voiceBase e.2 + o % 0x100)
  else if 1 ≤ slot ∧ slot ≤ 23 ∨ slot = 30 then
    (s.slotHolder sec slot).map fun e => (e.1, unitBase e.2 + o)
  else none

/-- A write of a word of a Pip's seed (R19, R277). -/
def Core.putSeed (c : Core) (o : Nat) (v mask : Word) : Core :=
  { c with seed := (List.range 4).foldl (fun m k =>
    if bit mask (8 * k) then sset memDefault m (o + k) (BitVec.ofNat 8 (fld v (8 * k) 8)) else m) c.seed }

/-- A write of a Sector window, by the Warden (R19).
[log 35 PRESUMED] -/
def State.sectorWrite (s : State) (ini : Initiator) (a : Nat) (v mask : Word) : State :=
  let sec := (a - 0x11000000) / 0x400000
  let slot := a % 0x400000 / 0x10000
  let o := a % 0x10000
  let cmd := v &&& mask
  if slot = 0 then
    if o = 0 ∧ bit cmd 31 then s.setSector sec { s.sector sec with fault := setBit (s.sector sec).fault 31 false }
    else if o = 0x10 then s.startRepair sec cmd
    else s
  else if slot = 32 then (if o < 0x800 then s.writeTimer ini (8 * sec + o / 0x100) (o % 0x100) v mask else s)
  else if 40 ≤ slot ∧ slot ≤ 44 then s.modCore (5 * sec + (slot - 40)) fun c => c.putSeed o v mask
  else match s.slotReg sec slot o with
    | some (i, r) => s.stageWrite ini i r v mask
    | none => s.plainWrite a v mask

/-- A read of a Sector window.
[log 35 PRESUMED] -/
def State.sectorRead (s : State) (a : Nat) : Word × State :=
  let sec := (a - 0x11000000) / 0x400000
  let slot := a % 0x400000 / 0x10000
  let o := a % 0x10000
  let x := s.sector sec
  if slot = 0 then
    (if o = 0 then x.fault
     else if o = 4 then x.faultTime.extractLsb' 0 32
     else if o = 8 then x.faultTime.extractLsb' 32 32
     else if o = 0xC then x.failed
     else if o = 0x10 then setBit (setBit x.cmd 31 x.busy) 30 x.err
     else if o = 0x14 then x.stale
     else 0, s)
  else if slot = 32 then (if o < 0x800 then s.readTimer (8 * sec + o / 0x100) (o % 0x100) else 0, s)
  else if 40 ≤ slot ∧ slot ≤ 44 then
    let c := s.core (5 * sec + (slot - 40))
    (wd (leNat ((List.range 4).map fun k => sget memDefault c.seed (o + k))), s)
  else match s.slotReg sec slot o with
    | some (i, r) => s.stageRead i r
    | none => (s.plainRead a, s)

/-! ### The address space -/

/-- The bytes of a word of memory that `mask` selects, stored at `a`; part of an uncorrectable word is dropped (R79, R96).
[log 36 DEDUCED] -/
def State.memWord (s : State) (a : Nat) (v mask : Word) : State :=
  match s.openRanges [(a, 4)] fun _ => false with
  | ([], s) => (List.range 4).foldl (fun s k =>
      if bit mask (8 * k) then s.setByte (a + k) (BitVec.ofNat 8 (fld v (8 * k) 8)) else s) s
  | (_, s) => s

/-- A word of memory read (R93, R96). -/
def State.readMem (s : State) (a : Nat) : Word × State :=
  let (bs, _, s) := s.fetchBytes a 4
  (wd (leNat bs), s)

/-- A write of an aligned word of the device address space by a Pip, a Warden or debug (R12, R36). Stage software writes
its own stage window, its partitions and what it owns of the shared blocks.
[log 36 DEDUCED] -/
def State.busWrite (s : State) (ini : Initiator) (a : Nat) (v mask : Word) : State :=
  let warden (f : State → State) : State := if s.wardenMay ini then f s else s.accViol ini a
  if s.isMem a then
    match s.initStage ini with
    | none => warden fun s => s.memWord a v mask
    | some i => if (s.stage i).inSegs a 4 then (s.watchMem i a 4).memWord a v mask else s
  else if a < 0x10000000 then s
  else if a < 0x11000000 then warden fun s => s.mgmtWrite ini a v mask
  else if a < 0x12000000 then warden fun s => s.sectorWrite ini a v mask
  else if a < 0x13000000 then
    let i := (a - 0x12000000) / 0x400000
    if s.mayWrite ini (some i) then s.stageWrite ini i (a % 0x400000) v mask else s.accViol ini a
  else if a < 0x14000000 then s.sharedWrite ini a v mask
  else s

/-- A read of an aligned word of the device address space by a Pip, a Warden or debug (R12, R36). -/
def State.busRead (s : State) (ini : Initiator) (a : Nat) : Word × State :=
  let w := s.wardenMay ini
  if s.isMem a then
    match s.initStage ini with
    | none => if w then s.readMem a else (0, s)
    | some i => if (s.stage i).inSegs a 4 then s.readMem a else (0, s)
  else if a < 0x10000000 then (0, s)
  else if a < 0x11000000 then (if w then s.mgmtRead a else (0, s))
  else if a < 0x12000000 then (if w then s.sectorRead a else (0, s))
  else if a < 0x13000000 then
    let i := (a - 0x12000000) / 0x400000
    if s.mayWrite ini (some i) then s.stageRead i (a % 0x400000) else (0, s)
  else if a < 0x14000000 then s.sharedRead ini a
  else (0, s)

/-! ### The host (R415-R417) -/

/-- The MSI-X table written (R415): a vector unmasked while it is pending goes out. -/
def PePort.writeMsix (e : PePort) (k : Nat) (v : Word) : PePort :=
  let e := { e with msix := sset (fun j => if j % 4 = 3 then 1 else 0) e.msix k (if k % 4 = 3 then v &&& 1 else v) }
  let p := k / 4
  if e.pba.getLsbD p && !bit (sget (fun j => if j % 4 = 3 then (1 : Word) else 0) e.msix (4 * p + 3)) 0 then
    { e with pba := bset e.pba p false, sent := sset (fun _ => 0) e.sent p (sget (fun _ => 0) e.sent p + 1) }
  else e

/-- The host port registers written (R417). -/
def State.writeHostPort (s : State) (p o : Nat) (v : Word) : State :=
  let e := s.pep p
  if o = 0 then s.setPe p { e with stageAddr := (e.stageAddr.extractLsb' 32 32 ++ (v &&& 0xFFFFF000) : BitVec 64) }
  else if o = 4 then s.setPe p { e with stageAddr := (v ++ e.stageAddr.extractLsb' 0 32 : BitVec 64) }
  else if o = 8 then s.setPe p { e with stageLen := fld v 0 30 }
  else if o = 0xC ∧ bit v 0 then s.stageReady p
  else s

/-- A write of BAR0 of an endpoint port at offset `o` (R415); other offsets ignore it.
[log 37 DEDUCED] -/
def State.hostWrite (s : State) (p o : Nat) (v : Word) : State :=
  let h : Initiator := .host p
  if 2 ≤ p || s.straps.getLsbD (p + 1) then s
  else if o < 0x1000 then s.writeHostPort p o v
  else if o < 0x1080 then s.setPe p ((s.pep p).writeMsix ((o - 0x1000) / 4) v)
  else if 0x10000 ≤ o ∧ o < 0x20000 then s.writeMboxBlock h (o - 0x10000) v 0xFFFFFFFF
  else if 0x20000 ≤ o ∧ o < 0x20010 then s.hostStep fun s => s.writeTarget (22 + p) (o - 0x20000) v
  else if 0x30000 ≤ o ∧ o < 0x40000 then s.writeVine h (o - 0x30000) v 0xFFFFFFFF
  else s

/-- The host port registers read (R417). -/
def State.readHostPort (s : State) (p o : Nat) : Word :=
  let e := s.pep p
  if o = 0 then e.stageAddr.extractLsb' 0 32
  else if o = 4 then e.stageAddr.extractLsb' 32 32
  else if o = 8 then wd e.stageLen
  else if o = 0xC then wd (2 * (s.load.busy && s.load.source == 3 + p).toNat)
  else if o = 0x10 then wd s.mode.num
  else 0

/-- A read of BAR0 of an endpoint port (R415). -/
def State.hostRead (s : State) (p o : Nat) : Word × State :=
  let h : Initiator := .host p
  let e := s.pep p
  if 2 ≤ p || s.straps.getLsbD (p + 1) then (0, s)
  else if o < 0x1000 then (s.readHostPort p o, s)
  else if o < 0x1080 then (sget (fun j => if j % 4 = 3 then (1 : Word) else 0) e.msix ((o - 0x1000) / 4), s)
  else if o = 0x1800 then (e.pba.zeroExtend 32, s)
  else if 0x10000 ≤ o ∧ o < 0x20000 then s.readMboxBlock h (o - 0x10000)
  else if 0x20000 ≤ o ∧ o < 0x20010 then
    let (w, s) := s.readTarget (22 + p) (o - 0x20000)
    (w, s.hostSyncAll)
  else if 0x30000 ≤ o ∧ o < 0x40000 then s.readVine h (o - 0x30000)
  else if 0x40000 ≤ o ∧ o < 0x40040 then s.readTally (o - 0x40000)
  else (0, s)

/-! ### Commands -/

/-- `REGISTER_WRITE`: a write of the aligned word at `a` (R9, R12, R36). For the host `a` is an offset in BAR0 (R415). The
units of a stage reach registers of their own stage window only. A Warden's or debug's access to an unassigned address
stops: no chapter gives its status (R37).
[log 6 DEDUCED, 36 DEDUCED] -/
def execRegisterWrite (i : Initiator) (a : Nat) (v : Word) (s : State) : Res :=
  let a := a / 4 * 4
  match i with
  | .host p => .next (s.hostWrite p a v)
  | .pip _ => .next (s.busWrite i a v 0xFFFFFFFF)
  | .warden _ | .debug =>
    if !s.wardenMay i then .next s
    else if s.assigned a then .next (s.busWrite i a v 0xFFFFFFFF)
    else .fault .unassignedAddress
  | .chord n => .next (if windowStage a = some n then s.chordWrite i n (a % 0x400000) v 0xFFFFFFFF else s.accViol i a)
  | .reflex n =>
    .next (if windowStage a = some n then s.arriveReflex n { off := a % 0x400000, val := v, mask := 0xFFFFFFFF } else s.accViol i a)
  | .press _ | .vine _ =>
    match s.initStage i with
    | some n => .next (if windowStage a = some n then s.stageWrite i n (a % 0x400000) v 0xFFFFFFFF else s.accViol i a)
    | none => .next s
  | .loader => .next (match windowStage a with
    | some n => s.stageWrite i n (a % 0x400000) v 0xFFFFFFFF
    | none => s)

/-- `HOST_BAR2_ACCESS` (R96, R416): a write of one byte, or a read, which changes nothing but what R94 has it correct; outside
the Orchard and the usable LP5X, or in a shadow region, nothing is read or written. -/
def execHostBar2Access (p off : Nat) (wr : Option Byte) (s : State) : Res :=
  let a := base40 (s.dreg (peReg p 4)) (s.dreg (peReg p 8)) + off
  let may := decide (p < 2) && decide (off < 0x10000000) && !s.straps.getLsbD (p + 1) && s.isMem a && !isShadow a
  match wr with
  | some b =>
    if may then .next (s.storeBytes a [b]) else .next s
  | none => if may then .next (s.fetchBytes a 1).2.2 else .next s

end Sys2Proof.Machine
end

