-- ==== Sys2Proof/Machine/PipMem.lean ====
section
/-!
DEFINITION. Memory accesses of a Pip (R266-R268, R274, R276-R286, R380): loads, stores, atomics, the data cache, the
write buffer, the cache operations and the checkpoint.
-/

namespace Sys2Proof.Machine

/-! ### Addresses -/

/-- The access is aligned to its size (R266). -/
def aligned (va : Word) (size : Nat) : Bool := va.toNat % size == 0

/-- The checks of a data access outside the seed (R266, R274, R278, R279): ALIGN, WINDOW, BUSERR. -/
def State.dataCheck (s : State) (k : Nat) (va : Word) (size : Nat) (write : Bool) (may : Window → Bool) : Except Exc (Window × Nat) :=
  if !aligned va size then .error { code := 3, eaddr := va, write := write }
  else match s.translate k va with
    | none => .error { code := 4, eaddr := va, write := write }
    | some (w, a) =>
      if !may w then .error { code := 4, eaddr := va, write := write }
      else if !s.assigned a then .error { code := 5, eaddr := va, write := write }
      else .ok (w, a)

/-! ### The seed and the data cache -/

/-- `n` bytes of a seed at Pip address `va`, little-endian (R277). -/
def Core.seedRead (c : Core) (va : Word) (n : Nat) : Nat :=
  leNat ((List.range n).map fun j => sget memDefault c.seed (va.toNat % 65536 + j))

/-- The low `n` bytes of `v` written to a seed (R277). -/
def Core.seedWrite (c : Core) (va : Word) (n : Nat) (v : Word) : Core :=
  { c with seed := (List.range n).foldl (fun m j =>
    sset memDefault m (va.toNat % 65536 + j) (BitVec.ofNat 8 (fld v (8 * j) 8))) c.seed }

/-- The data-cache line of device address `a`, if present (R280). -/
def Core.line (c : Core) (a : Nat) : Option CacheLine := (c.dcache.find? fun e => e.1 == a / 32 * 32).map Prod.snd

/-- A data-cache line put in place (R280). -/
def Core.setLine (c : Core) (a : Nat) (l : CacheLine) : Core :=
  { c with dcache := sset (fun _ => ({} : CacheLine)) c.dcache (a / 32 * 32) l }

/-- A data-cache line gone. -/
def Core.dropLine (c : Core) (a : Nat) : Core := { c with dcache := c.dcache.filter fun e => e.1 != a / 32 * 32 }

/-- The value of `n` bytes of a line at address `a`. -/
def CacheLine.read (l : CacheLine) (a n : Nat) : Nat := leNat ((l.bytes.drop (a % 32)).take n)

/-- `n` bytes of `v` laid over 32 bytes at address `a`.
[log 128 DEDUCED] -/
def layBytes (bs : List Byte) (a n : Nat) (v : Word) : List Byte :=
  (List.range 32).map fun j =>
    if a % 32 ≤ j ∧ j < a % 32 + n then BitVec.ofNat 8 (fld v (8 * (j - a % 32)) 8) else bs.getD j 0

/-- A store into a line: its bytes become dirty (R280). -/
def CacheLine.write (l : CacheLine) (a n : Nat) (v : Word) : CacheLine :=
  { bytes := layBytes l.bytes a n v, dirty := l.dirty ||| wordMask a n }

/-! ### The write buffer (R281) -/

/-- The write buffer is full.
[log 41 DESIGN CHOICE] -/
def Core.bufferFull (c : Core) : Bool := decide (8 ≤ c.wbuf.length)

/-- A store of `n` bytes enters the write buffer: it merges into the newest entry of the same word of memory, never for a
register (R281).
[log 41 DESIGN CHOICE] -/
def Core.pushStore (c : Core) (a n : Nat) (v : Word) (isReg : Bool) : Core :=
  let new : WbEntry := { addr := a / 32 * 32, bytes := layBytes [] a n v, mask := wordMask a n, isReg := isReg }
  match c.wbuf.getLast? with
  | some e =>
    if !isReg && !e.isReg && e.addr == new.addr then
      { c with wbuf := c.wbuf.dropLast ++ [{ e with bytes := layBytes e.bytes a n v, mask := e.mask ||| new.mask }] }
    else { c with wbuf := c.wbuf ++ [new] }
  | none => { c with wbuf := [new] }

/-- The write-back of a dirty line enters the write buffer; a clean one writes nothing (R280, R281).
[log 41 DESIGN CHOICE] -/
def Core.pushLine (c : Core) (a : Nat) (l : CacheLine) : Core :=
  if l.dirty = 0 then c else { c with wbuf := c.wbuf ++ [{ addr := a / 32 * 32, bytes := l.bytes, mask := l.dirty }] }

/-- The word a register entry writes, its value and its bits (R281).
[log 128 DEDUCED] -/
def WbEntry.regWord (e : WbEntry) : Nat × Word × Word :=
  let j := ((List.range 32).findIdx fun k => e.mask.getLsbD k) / 4
  let b (k : Nat) : Nat := if e.mask.getLsbD (4 * j + k) then 1 else 0
  (e.addr + 4 * j, wd (leNat ((e.bytes.drop (4 * j)).take 4)),
    wd ((List.range 4).foldl (fun n k => n + b k * 255 * 2 ^ (8 * k)) 0))

/-- What a retired store does is never reported: `ACC_VIOL` stays as `s` holds it (R279). -/
def State.unreported (s t : State) : State :=
  [0x10000200, 0x10000204, 0x10000208].foldl (fun t a => t.setDreg a (s.dreg a)) t

/-- The bytes of a memory entry reach their word (R79, R93, R96): part of an uncorrectable word is dropped and reported. -/
def State.putWord (s : State) (e : WbEntry) : State :=
  match s.openRanges [(e.addr, 32)] fun _ => e.mask == 0xFFFFFFFF with
  | ([], s) => (List.range 32).foldl (fun (s : State) j =>
      if e.mask.getLsbD j then s.setByte (e.addr + j) (e.bytes.getD j 0) else s) s
  | (_, s) => s

/-- An entry reaches its memory or register (R79, R96, R279, R281).
[log 44 DESIGN CHOICE, 128 DEDUCED] -/
def State.putEntry (s : State) (k : Nat) (e : WbEntry) : State :=
  if e.isReg then
    let r := e.regWord
    s.unreported (s.busWrite (.pip k) r.1 r.2.1 r.2.2)
  else
    let s := s.putWord e
    match s.initStage (.pip k) with
    | some i => s.watchMem i e.addr 32
    | none => s

/-- `WRITE_BUFFER_DRAIN`: the oldest entry is written (R281); `ue` says that its word is found with more than two symbol
errors. -/
def execWriteBufferDrain (core : Nat) (ue : Bool) (s : State) : Res :=
  let c := s.core core
  match c.wbuf with
  | e :: r =>
    let s := if ue && !e.isReg then s.upset e.addr 3 else s
    .next ((s.setCore core { c with wbuf := r }).putEntry core e)
  | [] => .next s

/-- Every buffered entry written. -/
def State.drainAll (s : State) (k : Nat) : State :=
  let c := s.core k
  c.wbuf.foldl (fun s e => s.putEntry k e) (s.setCore k { c with wbuf := [] })

/-! ### Loads -/

/-- The value a load of `n` bytes writes to its register (R266). -/
def extend (v n : Nat) (signed : Bool) : Word :=
  if signed && decide (2 ^ (8 * n - 1) ≤ v) then BitVec.ofInt 32 ((v : Int) - 2 ^ (8 * n)) else wd v

/-- The end of an access: the data register, the address unit and the instruction itself (R253, R268). -/
def Core.endLoad (c : Core) (rd : Reg) (v : Word) (upd : Option Nat) : Core :=
  let c := c.setG rd v
  (match upd with
    | some n => c.stepUnit n
    | none => c).retire 1

/-- The end of a load whose data came at once: it can be used 2 cycles after issue (R276). -/
def Core.endHit (c : Core) (rd : Reg) (v : Word) (upd : Option Nat) : Core :=
  let c := (c.setG rd v).delay rd.toNat 2
  (match upd with
    | some n => c.stepUnit n
    | none => c).retire 1

/-- The end of a store. -/
def Core.endStore (c : Core) (upd : Option Nat) : Core :=
  (match upd with
    | some n => c.stepUnit n
    | none => c).retire 1

/-- `n` bytes of memory at `a` as the core's own stores have left them: those still dirty in its data cache lie over what
memory holds (R33). -/
def State.ownLe (s : State) (c : Core) (a n : Nat) : Nat :=
  match c.line a with
  | none => s.le a n
  | some l => leNat ((List.range n).map fun j =>
      if l.dirty.getLsbD (a % 32 + j) then l.bytes.getD (a % 32 + j) 0 else s.byte (a + j))

/-- A store that passes the data cache by leaves its bytes in a line that the core holds: a later read or write-back of the
line does not undo it (R33). -/
def Core.refresh (c : Core) (a n : Nat) (v : Word) : Core :=
  match c.line a with
  | some l => c.setLine a { l with bytes := layBytes l.bytes a n v }
  | none => c

/-- A load of `n` bytes at Pip address `va` (R266, R276-R281): from the seed or a cache line at once, with a result that can
be used 2 cycles after issue; otherwise issue waits for the data.
[log 44 DESIGN CHOICE] -/
def loadBody (x : Issue) (rd : Reg) (size : Nat) (signed : Bool) (upd : Option Nat) (addr : Core → Word) : Body := fun s c =>
  let va := addr c
  let hit (v : Nat) : Core := c.endHit rd (extend v size signed) upd
  if isSeed va && aligned va size then .ok (s, hit (c.seedRead va size))
  else match s.dataCheck x.core va size false (·.r) with
    | .error e => .error e
    | .ok (w, a) =>
      let cached := s.cached w a
      match if cached then c.line a else none with
      | some l => if c.buffered a size then waitBody s c else .ok (s, hit (l.read a size))
      | none =>
        .ok (s, { c with pend := some { va := va, pa := a, rd := rd.toNat, size := size, signed := signed, fill := cached, upd := upd } })

/-- The line chosen for eviction, if it is present: a dirty one is written back (R280, R281).
[log 42 DESIGN CHOICE] -/
def Core.evictLine (c : Core) (ev : Option Nat) : Core :=
  match ev.bind c.line, ev with
  | some l, some a => (c.pushLine a l).dropLine a
  | _, _ => c

/-- The data of a load, or a line filled, as it returns (R276, R280): `base` and `n` are what was read. -/
def State.loadDone (s : State) (core : Nat) (p : PendLoad) (base : Nat) (evict : Option Nat) : State :=
  let c := { s.core core with pend := none }
  let rd : Reg := BitVec.ofNat 5 p.rd
  let value (v : Nat) : Word := extend v p.size p.signed
  if p.fill then
    let l : CacheLine := { bytes := s.bytes base 32, dirty := 0 }
    let c := c.evictLine (evict.filter (· / 32 * 32 != base))
    match p.data with
    | some v => s.setCore core ((c.setLine base (l.write p.pa p.size v)).endStore p.upd)
    | none => s.setCore core ((c.setLine base l).endLoad rd (value (l.read p.pa p.size)) p.upd)
  else if s.isMem p.pa then s.setCore core (c.endLoad rd (value (s.ownLe c p.pa p.size)) p.upd)
  else
    let (w, s) := s.busRead (.pip core) (p.pa / 4 * 4)
    s.setCore core (c.endLoad rd (value (fld w (8 * (p.pa % 4)) (8 * p.size))) p.upd)

/-- `PIP_LOAD_RETURN` (R93, R96, R276, R279-R281): the data of a load returns, or a line fill ends and its load or store
completes; an uncorrectable word takes the ECC exception and allocates nothing. `ce` and `ue` say that the word is found with
one symbol error, or with more than two. A load of bytes still in the write buffer, a fill whose eviction finds the buffer
full, and a register that a rebind holds wait on.
[log 42 DESIGN CHOICE] -/
def execPipLoadReturn (core : Nat) (ue ce : Bool) (evict : Option Nat) (s : State) : Res :=
  let c := s.core core
  match c.pend with
  | none => .next s
  | some p =>
    let n := if p.fill then 32 else p.size
    let base := if p.fill then p.pa / 32 * 32 else p.pa
    if c.run ≠ .running then .next s
    else if c.buffered base n || (p.fill && evict.isSome && c.bufferFull) || s.heldAt p.pa then .next s
    else
      let (s, c) := s.stalled c
      let s := s.setCore core c
      let s := if ue then s.upset p.pa 3 else if ce then s.upset p.pa 1 else s
      match s.readRanges (if s.isMem p.pa then [(base, n)] else []) with
      | ([], s) => .next (s.loadDone core p base evict)
      | (_, s) => .next (s.setCore core ({ c with pend := none }.trap (eccExc p.va p.data.isSome)))

/-! ### Stores -/

/-- A write of stage software at `a` that a shared block or a window refuses (R12, R308).
[log 44 DESIGN CHOICE] -/
def State.refuses (s : State) (ini : Initiator) (a : Nat) : Bool :=
  let o := a % 0x10000
  if decide (a < 0x12000000) || decide (0x14000000 ≤ a) then false
  else if a < 0x13000000 then !s.mayWrite ini (some ((a - 0x12000000) / 0x400000))
  else match (a - 0x13000000) / 0x10000 with
    | 0 =>
      if o < 0x1000 then !s.maySource ini (o / 8) || (decide (344 ≤ o / 8) && decide (o / 8 < 368))
      else if o < 0x1800 then !s.maySource ini ((o - 0x1000) / 4)
      else if 0x3100 ≤ o ∧ o < 0x3120 then !s.mayWrite ini (some ((o - 0x3100) % 16 / 4))
      else decide (0x2000 ≤ o) && decide (o < 0x2180)
    | 1 => match s.mboxAt ini o with
      | some (m, _) => !s.mbReach (s.targetOf ini) m
      | none => false
    | 2 => match s.vineAt ini o with
      | some p => !s.mayVine ini p
      | none => false
    | 3 => decide (o < 0x2000) && !s.mayWrite ini (s.timerOwner (o / 0x100))
    | 4 | 5 | 6 => true
    | 7 =>
      let b := o / 0x4000
      let d := o % 0x4000 / 0x100
      let owner := (List.range 4).find? fun i => (s.stage i).drops.any fun e => e.1 == b && e.2.1 == d
      decide (b < 2) && decide (d < 32) && !s.mayWrite ini (if d = 0 then none else owner)
    | _ => false

/-- The store is a TAKE of its own stage's `PIP_CKPT` (R380).
[log 43 DEDUCED] -/
def State.isTake (s : State) (k a : Nat) (v : Word) : Bool :=
  match s.initStage (.pip k) with
  | some i => decide (a = 0x12000000 + 0x400000 * i + 0x304) && bit v 0
  | none => false

/-- A store of `n` bytes at Pip address `va` (R266, R277-R281, R308, R380): into the seed or a cache line at once; a miss
waits for its line; any other enters the write buffer, and waits while it is full. A refused one is reported and has no
effect; a TAKE holds the Pip.
[log 42 DESIGN CHOICE, 44 DESIGN CHOICE] -/
def storeBody (x : Issue) (rd : Reg) (size : Nat) (upd : Option Nat) (addr : Core → Word) : Body := fun s c =>
  let va := addr c
  let v := c.g rd
  if isSeed va && aligned va size then .ok (s, (c.seedWrite va size v).endStore upd)
  else match s.dataCheck x.core va size true (·.w) with
    | .error e => .error e
    | .ok (w, a) =>
      if s.cached w a then
        match c.line a with
        | some l => .ok (s, (c.setLine a (l.write a size v)).endStore upd)
        | none =>
          .ok (s, { c with pend := some { va := va, pa := a, rd := rd.toNat, size := size, fill := true, upd := upd, data := some v } })
      else if s.refuses (.pip x.core) a then .ok (s.accViol (.pip x.core) a, c.endStore upd)
      else if s.isTake x.core a v then
        let s := s.busWrite (.pip x.core) a v (wd (2 ^ (8 * size) - 1))
        .ok (s, { c with taking := true, takeUnit := upd })
      else if c.bufferFull then waitBody s c
      else .ok (s, ((c.pushStore a size v (!s.isMem a)).refresh a size v).endStore upd)

/-! ### Instructions -/

/-- The address of an immediate form (R266). -/
def immAddr (ra : Reg) (imm : BitVec 12) (c : Core) : Word := c.g ra + imm.signExtend 32

/-- The address of an address unit, by access size (R268). -/
def unitAddr (unit : BitVec 2) (size : Nat) (c : Core) : Word :=
  let u := c.unit unit.toNat
  u.base + u.index * wd size

/-- Bytes of a SIZE field (R266). -/
def sizeOf2 (size : BitVec 2) : Nat := 2 ^ size.toNat

/-- `ldw` (R266). -/
def execLdw (x : Issue) (rd ra : Reg) (imm : BitVec 12) (s : State) : Res :=
  pipIssue x (encI x.guard 0x10 rd ra imm) neverUndef false (loadBody x rd 4 false none (immAddr ra imm)) s

/-- `ldh` (R266). -/
def execLdh (x : Issue) (rd ra : Reg) (imm : BitVec 12) (s : State) : Res :=
  pipIssue x (encI x.guard 0x11 rd ra imm) neverUndef false (loadBody x rd 2 true none (immAddr ra imm)) s

/-- `ldhu` (R266). -/
def execLdhu (x : Issue) (rd ra : Reg) (imm : BitVec 12) (s : State) : Res :=
  pipIssue x (encI x.guard 0x12 rd ra imm) neverUndef false (loadBody x rd 2 false none (immAddr ra imm)) s

/-- `ldb` (R266). -/
def execLdb (x : Issue) (rd ra : Reg) (imm : BitVec 12) (s : State) : Res :=
  pipIssue x (encI x.guard 0x13 rd ra imm) neverUndef false (loadBody x rd 1 true none (immAddr ra imm)) s

/-- `ldbu` (R266). -/
def execLdbu (x : Issue) (rd ra : Reg) (imm : BitVec 12) (s : State) : Res :=
  pipIssue x (encI x.guard 0x14 rd ra imm) neverUndef false (loadBody x rd 1 false none (immAddr ra imm)) s

/-- `stw` (R266). -/
def execStw (x : Issue) (rd ra : Reg) (imm : BitVec 12) (s : State) : Res :=
  pipIssue x (encI x.guard 0x15 rd ra imm) neverUndef false (storeBody x rd 4 none (immAddr ra imm)) s

/-- `sth` (R266). -/
def execSth (x : Issue) (rd ra : Reg) (imm : BitVec 12) (s : State) : Res :=
  pipIssue x (encI x.guard 0x16 rd ra imm) neverUndef false (storeBody x rd 2 none (immAddr ra imm)) s

/-- `stb` (R266). -/
def execStb (x : Issue) (rd ra : Reg) (imm : BitVec 12) (s : State) : Res :=
  pipIssue x (encI x.guard 0x17 rd ra imm) neverUndef false (storeBody x rd 1 none (immAddr ra imm)) s

/-- The address of `ldx` and `stx` (R266). -/
def indexAddr (ra rb : Reg) (scale : BitVec 2) (c : Core) : Word := c.g ra + (c.g rb <<< scale.toNat)

/-- `ldx` (R266). -/
def execLdx (x : Issue) (rd ra rb : Reg) (scale : BitVec 2) (u : Bool) (size : BitVec 2) (s : State) : Res :=
  pipIssue x (encR x.guard 0x18 rd ra rb ((0 : BitVec 2) ++ scale ++ BitVec.ofBool u ++ size : BitVec 7))
    (fun _ => loadFormUndef u size) false
    (loadBody x rd (sizeOf2 size) (!u) none (indexAddr ra rb scale)) s

/-- `stx` (R266). -/
def execStx (x : Issue) (rd ra rb : Reg) (scale : BitVec 2) (size : BitVec 2) (s : State) : Res :=
  pipIssue x (encR x.guard 0x19 rd ra rb ((0 : BitVec 2) ++ scale ++ (0 : BitVec 1) ++ size : BitVec 7))
    (fun _ => loadFormUndef false size) false
    (storeBody x rd (sizeOf2 size) none (indexAddr ra rb scale)) s

/-- The address unit that a form with UPD steps (R268). -/
def updUnit (unit : BitVec 2) (upd : Bool) : Option Nat := if upd then some unit.toNat else none

/-- `lda` (R268). -/
def execLda (x : Issue) (rd : Reg) (unit : BitVec 2) (upd u : Bool) (size : BitVec 2) (s : State) : Res :=
  pipIssue x (encR x.guard 0x1A rd (unit.zeroExtend 5) 0
      ((0 : BitVec 2) ++ BitVec.ofBool upd ++ (0 : BitVec 1) ++ BitVec.ofBool u ++ size : BitVec 7))
    (fun _ => loadFormUndef u size) false
    (loadBody x rd (sizeOf2 size) (!u) (updUnit unit upd) (unitAddr unit (sizeOf2 size))) s

/-- `sta` (R268). -/
def execSta (x : Issue) (rd : Reg) (unit : BitVec 2) (upd : Bool) (size : BitVec 2) (s : State) : Res :=
  pipIssue x (encR x.guard 0x1A rd (unit.zeroExtend 5) 0
      ((0 : BitVec 2) ++ BitVec.ofBool upd ++ (1 : BitVec 1) ++ (0 : BitVec 1) ++ size : BitVec 7))
    (fun _ => loadFormUndef false size) false
    (storeBody x rd (sizeOf2 size) (updUnit unit upd) (unitAddr unit (sizeOf2 size))) s

/-- `astep` (R268). -/
def execAstep (x : Issue) (unit : BitVec 2) (s : State) : Res :=
  pipIssue x (encR x.guard 0x1B 0 (unit.zeroExtend 5) 0 0) neverUndef false
    (coreBody fun c => (c.stepUnit unit.toNat).retire 1) s

/-- An atomic (R79, R267): the old word into rd, the new word into memory, as one access. It waits while its word is in the
write buffer.
[log 43 DEDUCED] -/
def atomicBody (x : Issue) (rd ra rb : Reg) (f : Word → Word → Word) : Body := fun s c =>
  let va := c.g ra
  if isSeed va && aligned va 4 then .error { code := 5, eaddr := va }
  else match s.dataCheck x.core va 4 false (fun w => w.r && w.w && !w.c) with
    | .error e =>
      .error { e with write := e.code == 4 && (match s.translate x.core va with
        | some (w, _) => w.r && !w.w && !w.c
        | none => false) }
    | .ok (_, a) =>
      if !s.isMem a then .error { code := 5, eaddr := va }
      else if c.buffered a 4 then waitBody s c
      else
        match (if x.dataUe then s.upset a 3 else s).readRanges [(a, 4)] with
        | ([], s) =>
          let (s, c) := s.stalled c
          let old := wd (s.ownLe c a 4)
          let new := f old (c.g rb)
          let s := s.setBytes a (leBytes new.toNat 4)
          let s := match s.initStage (.pip x.core) with
            | some i => s.watchMem i a 4
            | none => s
          .ok (s, ((c.setG rd old).refresh a 4 new).retire 1)
        | (_, s) => .ok (s, c.trap (eccExc va false))

/-- An instruction of the atomic group (R267).
[log 43 DEDUCED] -/
def pipAtomic (x : Issue) (fn : BitVec 7) (rd ra rb : Reg) (f : Word → Word → Word) (s : State) : Res :=
  pipIssue x (encR x.guard 0x1C rd ra rb fn) neverUndef false (atomicBody x rd ra rb f) s

/-- `aswap` (R267). -/
def execAswap (x : Issue) (rd ra rb : Reg) (s : State) : Res := pipAtomic x 0 rd ra rb (fun _ b => b) s

/-- `aadd` (R267). -/
def execAadd (x : Issue) (rd ra rb : Reg) (s : State) : Res := pipAtomic x 1 rd ra rb (· + ·) s

/-- `aor` (R267). -/
def execAor (x : Issue) (rd ra rb : Reg) (s : State) : Res := pipAtomic x 2 rd ra rb (· ||| ·) s

/-- `aand` (R267). -/
def execAand (x : Issue) (rd ra rb : Reg) (s : State) : Res := pipAtomic x 3 rd ra rb (· &&& ·) s

/-- A cache operation on the line that holds ra (R276, R278, R282): an uncached window and the seed are no operation; else it
waits while the buffer is full.
[log 41 DESIGN CHOICE] -/
def cacheBody (x : Issue) (ra : Reg) (f : Core → Nat → Core) : Body := fun s c =>
  let va := c.g ra
  if isSeed va then .ok (s, c.retire 1)
  else match s.translate x.core va with
    | none => .error { code := 4, eaddr := va }
    | some (w, a) =>
      if !s.cached w a then .ok (s, c.retire 1)
      else if c.bufferFull then waitBody s c
      else .ok (s, (f c a).retire 1)

/-- A line cleaned: a dirty one is written back and stays (R282). -/
def Core.clean (c : Core) (a : Nat) : Core :=
  match c.line a with
  | some l => (c.pushLine a l).setLine a { l with dirty := 0 }
  | none => c

/-- `cln` (R282). -/
def execCln (x : Issue) (ra : Reg) (s : State) : Res :=
  pipIssue x (encSys x.guard ra 8) neverUndef false (cacheBody x ra Core.clean) s

/-- `clinv` (R282). -/
def execClinv (x : Issue) (ra : Reg) (s : State) : Res :=
  pipIssue x (encSys x.guard ra 9) neverUndef false (cacheBody x ra fun c a => (c.clean a).dropLine a) s

/-- `inv`, supervisor (R256, R282). -/
def execInv (x : Issue) (ra : Reg) (s : State) : Res :=
  pipIssue x (encSys x.guard ra 0xA) neverUndef true (cacheBody x ra Core.dropLine) s

/-- `iinv` (R282). -/
def execIinv (x : Issue) (ra : Reg) (s : State) : Res :=
  pipIssue x (encSys x.guard ra 0xB) neverUndef false
    (cacheBody x ra fun c _ => { c with icache := c.icache.filter (· != (c.g ra).toNat / 32 * 32) }) s

/-! ### The checkpoint (R380) -/

/-- Every dirty line written back and clean, and the write buffer drained (R284, R380). -/
def State.flushCore (s : State) (k : Nat) : State :=
  let c := s.core k
  let dirty := c.dcache.filter fun e => e.2.dirty != 0
  let s := s.setCore k { c with dcache := c.dcache.map fun e => (e.1, { e.2 with dirty := 0 }) }
  let s := s.drainAll k
  dirty.foldl (fun s e => s.putEntry k { addr := e.1, bytes := e.2.bytes, mask := e.2.dirty }) s

/-- The checkpoint of a core as it stands (R380). -/
def Core.checkpoint (c : Core) : Ckpt :=
  { gpr := c.gpr, pred := c.pred, lc := c.lc, au := c.au, pc := c.pc, status := c.status, repcnt := c.repcnt
    frames := c.frames, ecause := c.ecause, eaddr := c.eaddr, vbase := c.vbase, seed := c.seed }

/-- `PIP_CKPT_TAKE` (R380): a running Pip's store of TAKE holds it until the checkpoint is written. -/
def execPipCkptTake (core : Nat) (s : State) : Res :=
  let c := s.core core
  if decide (core < 20) && c.canIssue && (s.pipOf core).isSome then .next (s.setCore core { c with taking := true, takeUnit := none })
  else .next s

/-- `CHECKPOINT_COMPLETE` (R380): the dirty lines and the write buffer are out, the checkpoint is written, and the TAKE store
retires. -/
def execCheckpointComplete (core : Nat) (s : State) : Res :=
  if (s.core core).taking then
    let s := s.flushCore core
    let c := { (s.core core).endStore (s.core core).takeUnit with taking := false, takeUnit := none }
    .next (s.setCore core { c with ckpt := c.checkpoint })
  else .next s

end Sys2Proof.Machine
end

