-- ==== Sys2Proof/Machine/Power.lean ====
section
/-!
DEFINITION. Supplies, reset and power (R41, R42, R393, R404, R407, R410, R439-R443), the operating modes, entry and wake
(R395-R406), the latch instant as the commands name it (R111, R399, R400), and the LP5X power states (R89, R90).
-/

namespace Sys2Proof.Machine

/-! ### Resets (R41, R42, R350, R393, R410) -/

/-- An address of the sticky record (R410). -/
def isSticky (a : Nat) : Bool := decide (0x10007100 ≤ a) && decide (a < 0x10007140)

/-- An address of the Wardens' journals (R391).
[log 9 DESIGN CHOICE] -/
def isJournal (a : Nat) : Bool := decide (0x10008000 ≤ a) && decide (a < 0x1000A000)

/-- The sources whose input a reset may find high: PFW_N low and the quick inputs (R301). -/
def State.sampleHigh (s : State) : State := (403 :: (List.range 64).map (416 + ·)).foldl State.sampleIrq s

/-- What a reset to M1 or M0 keeps: the Tally, the sticky record and the last wake, the journals if asked, flash, fuses,
straps, pins and supplies (R42, R350, R372, R407, R409). Every other register and all memory is lost.
[log 8 DESIGN CHOICE] -/
def State.cleared (s : State) (journals : Bool) : State :=
  let p := s.power
  State.sampleHigh {
    pending := s.pending, nonce := s.nonce, flash := s.flash, fuses := s.fuses, straps := s.straps
    qiPins := s.qiPins, qi := s.qiPins, hpd := s.hpd, jtag := s.jtag
    regs := s.regs.filter fun e => isSticky e.1 || (journals && isJournal e.1)
    keeper := { jnext := if journals then s.keeper.jnext else Vector.replicate 2 0 }
    store := { pfw := s.store.pfw }
    tally := { count := s.tally.count, est := s.tally.est, lost := s.tally.lost, err := s.tally.err, cal := s.tally.cal
               skew := s.tally.skew, lprc := s.tally.lprc }
    power := { io18 := p.io18, railEn := p.railEn, rails := p.rails, xtal := p.xtal, inReset := p.inReset, dac := p.dac
               io33 := p.io33, bat := p.bat, onBat := p.onBat, batLow := p.batLow
               lastWake := p.lastWake, lastWakeT := p.lastWakeT } }

/-- One cause bit of the sticky record, the Tally and the count of resets (R410). -/
def State.stampCause (s : State) (cause : Nat) : State :=
  let s := s.modDreg 0x10007100 fun w => setBit w cause true
  ((s.setDreg 0x10007104 s.tallyLo).setDreg 0x10007108 s.tallyHi).modDreg 0x1000710C (· + 1)

/-- WA is released and runs its boot ROM (R71 step 1), unless RESET_N is held. -/
def State.releaseWA (s : State) : State := if s.power.inReset then s else s.modCore 20 fun c => { c with run := .running }

/-- The Tally goes on from the LPRC count, when the crystal starts again (R374). -/
def State.crystalStarts (s : State) : State :=
  if s.tally.lprc then
    let (fv, s) := s.draw
    { s with tally := s.tally.resume (Config.freeWord fv).toNat }
  else s

/-- A reset to M1 with a cause (R41, R393).
[log 8 DESIGN CHOICE, 10 DEDUCED] -/
def State.toBoot (s : State) (cause : Nat) (journals : Bool) : State :=
  let s := (s.cleared journals).crystalStarts
  let s := { s with mode := .boot, power := { s.power with railEn := true, rails := true, xtal := true } }
  (s.stampCause cause).releaseWA

/-- The device in M0 with its supplies as they then are (R41, R407, R443).
[log 11 DEDUCED] -/
def State.toOff (s : State) (p : Power → Power) : State :=
  let s := s.cleared false
  { s with mode := .off, jtag := {}, power := p s.power }

/-- The AON domain loses its last supply: the Tally and the sticky record restart at 0 (R374, R410). -/
def State.aonLost (s : State) : State :=
  { s with
    regs := sset deviceDefault [] 0x10007100 1
    tally := { lost := true }
    power := { s.power with onBat := false, lastWake := 0, lastWakeT := 0 } }

/-- PWR_EVENTS.SUPPLY when ON_BAT or BAT_LOW changes (R411). -/
def State.supply (s : State) (onBat low : Bool) : State :=
  let p := s.power
  let s := if p.onBat != onBat || p.batLow != low then s.modDreg 0x10007024 fun w => setBit w 1 true else s
  { s with power := { p with onBat := onBat, batLow := low } }

/-- VDD_IO18 is good: the AON domain is fed from it, in M0 (R407, R440). -/
def State.io18Rises (s : State) : State :=
  if s.power.io18 then s
  else let s := s.supply false s.power.batLow
    { s with power := { s.power with io18 := true } }

/-- VDD_IO18 falls: VDD_BAT keeps the Tally and the sticky record if it is present (R374, R407, R443). -/
def State.io18Falls (s : State) (others : Bool) : State :=
  if !s.power.io18 then s
  else
    let s := s.toOff fun p => { p with
      io18 := false, railEn := false, rails := false, xtal := false
      dac := p.dac && others, io33 := p.io33 && others }
    if s.power.bat then
      let s := s.supply true s.power.batLow
      { s with tally := { s.tally with lprc := true } }
    else s.aonLost

/-- `POWER_GOOD` (R440 step 2). -/
def execPowerGood (s : State) : Res := .next s.io18Rises

/-- `RAIL_EN_RISE` (R439, R440 step 3). -/
def execRailEnRise (s : State) : Res :=
  if s.mode = .off && s.power.io18 then .next { s with power := { s.power with railEn := true } } else .next s

/-- `RESET_N_RELEASE` (R214, R412, R441): the effective release, with every monitored rail good. Debug and the boot ROM
start anew (R391, R428).
[log 9 DESIGN CHOICE, 10 DEDUCED, 11 DEDUCED] -/
def execResetNRelease (straps : BitVec 3) (qiPins : BitVec 64) (s : State) : Res :=
  if (s.power.inReset || s.mode = .off) && s.power.io18 && s.power.railEn then
    let s := { s with power := { s.power with inReset := false }, straps := straps, qiPins := qiPins
                      jtag := { bootReq := s.jtag.bootReq, extest := s.jtag.extest } }
    .next (s.toBoot 2 false)
  else .next s

/-- `RESET_N_ASSERT` (R41, R42): M1, where nothing runs until the release. M0 stays M0 (R441). -/
def execResetNAssert (s : State) : Res :=
  if s.power.inReset then .next s
  else if s.mode = .off then .next { s with power := { s.power with inReset := true } }
  else
    let s := s.cleared true
    .next { s with mode := .boot, power := { s.power with inReset := true, railEn := true } }

/-- `POWER_LOSS` (R41, R350, R407). -/
def execPowerLoss (s : State) : Res := .next (s.io18Falls false)

/-- `BROWN_OUT` (R393, R408).
[log 9 DESIGN CHOICE, 13 DESIGN CHOICE] -/
def execBrownOut (s : State) : Res := .next (if s.mode = .off then s else s.toBoot 3 true)

/-- `KEEPER_FAILURE` (R393). -/
def execKeeperFailure (s : State) : Res := .next (if s.mode = .off then s else s.toBoot 4 true)

/-- `ROOT_PLL_LOSS` (R393): the PLL is off in SLEEP, and with XTAL in DEEP. -/
def execRootPllLoss (xtalStopped : Bool) (s : State) : Res :=
  if s.mode = .off || s.mode = .deep || (s.mode = .sleep && s.power.step != 6 && !xtalStopped) then .next s
  else .next (s.toBoot (if xtalStopped then 6 else 5) true)

/-- `MONITORED_RAIL_FAULT` (R443): M0, with RAIL_EN high (R439). In DEEP the switched rails are off. -/
def execMonitoredRailFault (s : State) : Res :=
  if s.mode = .off || s.mode = .deep then .next s else .next (s.toOff fun p => { p with rails := false })

/-- `VDDA_DAC_FAULT` (R443): the DACs of every port drive 0 V. -/
def execVddaDacFault (s : State) : Res := .next { s with power := { s.power with dac := false } }

/-- `VDDA_DAC_RETURN` (R443). -/
def execVddaDacReturn (s : State) : Res := .next { s with power := { s.power with dac := true } }

/-- `VDD_IO33_LOSS` (R443): GO and the Spoke outputs are undriven and the quick inputs read low. -/
def execVddIo33Loss (s : State) : Res := .next { s with power := { s.power with io33 := false }, qiPins := 0 }

/-- `VDD_IO33_RETURN` (R443): the quick inputs read their pins again, at levels that the command does not name.
[log 23 DESIGN CHOICE] -/
def execVddIo33Return (s : State) : Res :=
  if s.power.io33 then .next s
  else
    let (fv, s) := s.draw
    let s := { s with nonce := s.nonce + 1 }
    .next { s with power := { s.power with io33 := true }, qiPins := Config.freeWord fv ++ Config.freeWord (fv + 1) }

/-- `AON_SUPPLY_SWITCH` (R407, R443): VDD_IO18 falls below 1.62 V, or is at or above it again.
[log 12 DESIGN CHOICE] -/
def execAonSupplySwitch (io18Good : Bool) (s : State) : Res := .next (if io18Good then s.io18Rises else s.io18Falls true)

/-- `VDD_BAT_LOSS` (R374, R407): with VDD_IO18 away as well, nothing is kept.
[log 12 DESIGN CHOICE] -/
def execVddBatLoss (s : State) : Res :=
  let s := s.supply s.power.onBat true
  let s := { s with power := { s.power with bat := false } }
  .next (if s.power.io18 then s else s.aonLost)

/-- `VDD_BAT_LOW` (R407, R411): a supply at or above 2.2 V is present. -/
def execVddBatLow (low : Bool) (s : State) : Res :=
  let s := s.supply s.power.onBat low
  .next { s with power := { s.power with bat := s.power.bat || !low } }

/-! ### General outputs and ports -/

/-- The levels the general outputs show while they are driven (R426). -/
def State.goLevel (s : State) : Word :=
  (List.range 4).foldl (fun w i => w ||| ((s.stage i).reg 0x500 &&& (s.stage i).goOwn)) 0

/-- The ports of a stage go off (R102, R398, R399); a fall of LINK_UP is a TIMING event (R109). -/
def Stage.portsOff (st : Stage) : Stage :=
  st.modBeam fun b => { b.setDigital .off 0 with run := false, hold := false, locked := false, analog := .off }

/-- The ports of every stage go off. -/
def State.allPortsOff (s : State) : State := (List.range 4).foldl (fun s i => s.modStage i Stage.portsOff) s

/-! ### ATTRACT (R397) -/

/-- Entry into ATTRACT (R397). -/
def State.enterAttract (s : State) : State := (s.toMode .attract).fixLeads

/-- ATTRACT is left for M3, or M5 if any unit is shed (R41, R397). -/
def State.leaveAttract (s : State) : State := s.runMode.fixLeads

/-! ### Repairs put off -/

/-- The repairs that were put off until the clocks run again: a stage whose Orchard Sector failed is dropped (R389,
R395, R403).
[log 20 DESIGN CHOICE] -/
def State.repairLate (s : State) : State :=
  (List.range 4).foldl (fun s c =>
    let x := s.sector c
    let s := s.setSector c { x with atWake := false }
    if x.atWake && x.memFault && s.wardenUp then
      (upto 4 fun i => s.usesOrchard i c).foldl (fun s i => (s.dropStage i).noteShed c) s
    else s) s

/-! ### SERVICE (R398) -/

/-- Some stage waits for its latch instant to stop (R399).
[log 15 DESIGN CHOICE] -/
def State.stopsLeft (s : State) : Bool := (List.range 4).any fun i => (s.stage i).stopReq

/-- The device takes M11 once every stage has stopped (R398): one Warden goes on.
[log 30 DESIGN CHOICE] -/
def State.serviceCheck (s : State) : State :=
  if s.power.target = .service && s.power.step == 0 && !s.stopsLeft then
    let s := s.allPortsOff.modCore (21 - s.activeWarden) fun c => { c with run := .stopped }
    let s := s.toMode .service
    let s := s.replyTo s.power.asker 0 []
    { s with goDriven := false, power := { s.power with target := .off, asker := none } }
  else s

/-- Entry into SERVICE is accepted (R398): a stage that shows its picture stops at its next latch line, as step 3 of
R74.
[log 30 DESIGN CHOICE] -/
def State.beginService (s : State) (w : Nat) : State :=
  let s := { s with power := { s.power with target := .service, asker := some w } }
  let s := (List.range 4).foldl (fun s i =>
    match (s.stage i).phase with
    | .empty => s
    | .running => s.modStage i fun st => { st with stopReq := true }
    | _ => s.stopStage i) s
  s.serviceCheck

/-! ### Wake events (R401, R405, R409) -/

/-- The source is enabled in `PWR_WAKE_EN` (R405).
[log 21 DEDUCED] -/
def State.wakeEnabled (s : State) (src : Nat) : Bool := decide (1 ≤ src) && decide (src ≤ 8) && bit (s.dreg 0x10007004) src

/-- An event of a source can wake the device from mode `m` (R405). -/
def State.wakes (s : State) (m : Mode) (src detail : Nat) : Bool :=
  s.wakeEnabled src &&
    (match src with
    | 1 => decide (detail < 64) && bit (s.dreg (0x10007008 + detail / 32 * 4)) (detail % 32) &&
        (m ≠ Mode.deep || (decide (detail < 8) && s.power.io33))
    | 2 | 3 => let w := (s.spk (src - 2)).wake
      w == 0 || (w == 1 && m ≠ Mode.deep)
    | 4 => bit (s.dreg 0x13040010) 0 && (m = .deep || s.alarmDue)
    | 5 | 6 => true
    | 7 => decide (detail < 4) && m ≠ .deep
    | _ => decide (detail < 24) && m = .doze && (s.mb detail).state = .posted &&
        (s.targetPower detail == 2 || s.targetPower detail == 3))

/-- DETAIL of an event (R409).
[log 19 DESIGN CHOICE] -/
def wakeDetail (src detail : Nat) : Nat :=
  match src with
  | 1 | 7 | 8 => detail
  | 5 | 6 => src - 5
  | _ => 0

/-- The events pending at an abort point (R400, R401): those that came during the entry, and an alarm that is due.
[log 19 DESIGN CHOICE] -/
def State.wakesNow (s : State) : List (Nat × Nat) :=
  s.power.wakes ++ (if s.wakes s.power.target 4 0 then [(4, 0)] else [])

/-- The event recorded when several are pending: the lowest SOURCE, and within it the lowest DETAIL (R401). -/
def firstWake (l : List (Nat × Nat)) : Option (Nat × Nat) :=
  (l.filter fun e => e.1 != 0).foldl (fun (a : Option (Nat × Nat)) e =>
    match a with
    | some b => if 64 * e.1 + e.2 < 64 * b.1 + b.2 then some e else some b
    | none => some e) none

/-- A wake event recorded (R409, R411). -/
def State.recordWake (s : State) (e : Nat × Nat) (aborted : Bool) (ap : Nat) (m : Mode) : State :=
  let s := s.modDreg 0x10007024 fun w => setBit w 0 true
  { s with power := { s.power with
    lastWakeT := s.tally.count
    lastWake := wd (0x80000000 + aborted.toNat * 0x40000000 + ap * 0x10000000 + m.num * 0x1000000 + e.2 * 0x100 + e.1) } }

/-! ### Entry into DOZE, SLEEP and DEEP (R399) -/

/-- SET_MODE to M8-M10 is accepted (R399 step 0). -/
def State.beginEntry (s : State) (w : Nat) (m : Mode) : State :=
  { s with power := { s.power with step := 1, target := m, left := s.mode, wakes := [], asker := some w } }

/-- The channels finish the descriptor in service and start no other, once every stage has stopped (R399). -/
def State.parkChannels (s : State) : State :=
  if s.power.step == 2 && !s.stopsLeft then
    (List.range 64).foldl (fun s c => s.setChan c { s.chan c with park := true }) s
  else s

/-- Step 1 begins: each stage is to stop at its next latch instant, and for DEEP the Ledger banks stop accepting. -/
def State.beginStop (s : State) : State :=
  let s := (List.range 4).foldl (fun s i =>
    s.modStage i fun st => if st.phase = .running then { st with stopReq := true } else st) s
  let s := { s with power := { s.power with step := 2 }
                    store := { s.store with closed := s.store.closed || s.power.target = Mode.deep } }
  s.parkChannels

/-- The Pips that can be stopped and restarted: bound, running, in `wait` or in retention. -/
def State.livePips (s : State) : List Nat :=
  upto 20 fun k => (s.pipOf k).isSome &&
    ((s.core k).run = .running || (s.core k).run = .waiting || (s.core k).run = .retention)

/-- Step 1 has done its work (R399, R406): stages, channels and Presses at rest, Pips at an instruction boundary, faults
repaired. -/
def State.stopDone (s : State) : Bool :=
  !s.stopsLeft && !s.faultsOpen &&
    ((List.range 4).all fun i => !(s.stage i).press.busy && (s.stage i).sound.stopRamp.isNone && !(s.sector i).busy) &&
    ((List.range 64).all fun c => !(s.chan c).busy) &&
    (s.livePips.all fun k => (s.core k).pend.isNone && !(s.core k).fencing && !(s.core k).taking)

/-- Step 1 completes: the Pips stop with their write buffers drained, and heartbeats are checked no more. -/
def State.endStop (s : State) : State :=
  let s := s.livePips.foldl (fun s k => (s.drainAll k).modCore k fun c => { c with parked := true }) s
  { s with keeper := { s.keeper with checking := false } }

/-- Step 2 begins: for DEEP the Ledger's records are written out and a Flush follows.
[log 16 DESIGN CHOICE] -/
def State.beginSave (s : State) : State :=
  let s := { s with power := { s.power with step := 3 } }
  if s.power.target = .deep then { s with store := { s.store with modeFlushDue := true } }.storeGo else s

/-- Step 2 has done its work (R399).
[log 16 DESIGN CHOICE] -/
def State.saveDone (s : State) : Bool :=
  (s.power.target ≠ Mode.deep : Bool) ||
    (s.store.recs.isEmpty && !s.store.modeFlushDue &&
      (List.range 2).all fun d => !(s.drive d).out.contains .modeFlush)

/-- Every stale unit copied (R379). -/
def State.copyAllStale (s : State) : State :=
  (List.range 4).foldl (fun s c =>
    if (s.sector c).memFault then s else (List.range 32).foldl (fun (s : State) _ => s.copyStale c) s) s

/-- Step 2 completes (R399).
[log 16 DESIGN CHOICE] -/
def State.endSave (s : State) : State :=
  match s.power.target with
  | .doze =>
    let s := s.modCore (21 - s.activeWarden) fun c => if c.run = .running then { c with run := .retention } else c
    let s := s.livePips.foldl (fun s k => s.modCore k fun c => if c.run = .waiting then { c with run := .retention } else c) s
    { s with lpx := { s.lpx with state := 2 } }
  | .sleep =>
    let s := s.livePips.foldl (fun s k => (s.flushCore k).modCore k fun c => { c with ckpt := c.checkpoint }) s
    let s := s.drainMirrors.copyAllStale
    { s with lpx := { s.lpx with state := 3 } }
  | _ => s

/-- Step 3 (R399): ports off, PCIe in L1 or L2, USB suspended; for DEEP the LP5X is powered down. -/
def State.endPorts (s : State) : State :=
  let s := s.allPortsOff.linkPower (if s.power.target = .doze then 1 else 2)
  if s.power.target = .deep then { s with lpx := { s.lpx with state := 4 } } else s

/-- The final action: the device takes the new mode (R396, R399).
[log 18 DESIGN CHOICE] -/
def State.takeMode (s : State) : State :=
  let p := s.power
  let m := p.target
  let s := { s.toMode m with
    power := { p with step := 0, target := .off, left := s.mode }
    tally := { s.tally with stopAt := s.tally.count } }
  match m with
  | .doze =>
    { s.modCore (20 + s.activeWarden) fun c => { c with run := .waiting } with goHeld := some s.goLevel }
  | .sleep =>
    let s := (List.range 22).foldl (fun s k => s.modCore k fun c =>
      if k < 20 then { c with dcache := [], icache := [], fetchBuf := none } else { c with run := .stopped }) s
    { s with goHeld := some s.goLevel }
  | _ =>
    { s with
      mem := [], errs := [], lpx := { state := 4 }, cores := Vector.replicate 22 {}, goDriven := false
      tally := { s.tally with lprc := true }
      power := { s.power with xtal := false, lowPower := true, railEn := false, rails := false, asker := none } }

/-! ### Unwinding and waking (R400, R403) -/

/-- A channel that was parked goes on (R400). -/
def State.unparkChan (s : State) (c : Nat) : State :=
  let v := s.chan c
  let s := s.setChan c { v with park := false, next := none }
  match v.next with
  | some a => if v.run then s.beginDesc c a v.ring else s
  | none => s.serve c

/-- What was stopped goes on: Pips, channels, the Ledger, heartbeats, links; each stage that was stopped restarts at its next
latch instant (R400, R403).
[log 17 DESIGN CHOICE] -/
def State.resumeAll (s : State) : State :=
  let s := (List.range 20).foldl (fun s k => s.modCore k fun c =>
    { c with parked := false, run := if c.parked && c.run = .retention then .waiting else c.run }) s
  let s := { s with
    store := { s.store with closed := false, modeFlushDue := false }, lpx := { s.lpx with state := 0 }
    keeper := { s.keeper with checking := true } }
  let up (c : Core) : Core := if c.run = .retention || c.run = .waiting || c.run = .stopped then { c with run := .running } else c
  let s := (List.range 2).foldl (fun s w =>
    if !vget false s.keeper.lost w && (w == s.activeWarden || s.keeper.wbReleased) then s.modCore (20 + w) up else s) s
  let s := (List.range 64).foldl State.unparkChan s
  let s := if s.power.linksLow then s.linkPower 0 else s
  let s := (s.spkKick 0 0).spkKick 1 0
  let s := (List.range 4).foldl (fun s i =>
    s.modStage i fun st => if st.phase = .stopped && st.loaded then { st with restart := true }
      else { st with stopReq := false }) s
  s.repairLate.storeGo

/-- A stage has still to restart.
[log 20 DESIGN CHOICE] -/
def State.restartsLeft (s : State) : Bool := (List.range 4).any fun i => (s.stage i).restart

/-- The unwinding ends when every stage has restarted, and SET_MODE is acknowledged ABORTED (R400). -/
def State.unwound (s : State) : State :=
  if s.power.step == 5 && !s.restartsLeft then
    let s := s.replyTo s.power.asker 0x84 []
    { s with power := { s.power with step := 0, target := .off, wakes := [], asker := none } }
  else s

/-- The entry unwinds at abort point `ap` (R400, R401). Where only the loss of the Warden unwinds it, no wake is
recorded (R406). -/
def State.unwind (s : State) (ap : Nat) : State :=
  let s := match firstWake s.wakesNow with
    | some e => s.recordWake e true ap s.power.target
    | none => s
  let s := { s with power := { s.power with step := 5, wakes := [] } }
  (if ap = 0 then s else s.resumeAll).unwound

/-- `ENTRY_STEP_COMPLETE` (R399-R401): the step in progress completes at its abort point, and the entry unwinds there if
an event is pending, or goes on.
[log 15 DESIGN CHOICE] -/
def execEntryStepComplete (s : State) : Res :=
  let s := s.parkChannels
  let go (done : Bool) (ap : Nat) (fin next : State → State) : State :=
    if !done then s
    else
      let t := fin s
      if t.wakesNow.isEmpty then next t else t.unwind ap
  match s.power.step with
  | 0 => .next s.serviceCheck
  | 1 => .next (go true 0 id State.beginStop)
  | 2 => .next (go s.stopDone 1 State.endStop State.beginSave)
  | 3 => .next (go s.saveDone 2 State.endSave fun t => { t with power := { t.power with step := 4 } })
  | 4 => .next (go true 3 State.endPorts State.takeMode)
  | 5 => .next s.unwound
  | _ => .next s

/-- The clocks run again after DOZE or SLEEP (R375, R403): what was stopped goes on. -/
def State.clocksOn (s : State) : State :=
  let s := { s with power := { s.power with step := 6 }
                    tally := { s.tally with skew := s.tally.count - s.tally.stopAt, skewEst := false } }
  s.resumeAll

/-- `WAKE_EVENT` (R400, R403-R406): during an entry it waits for the abort point; in a stopped mode it is recorded and
the wake begins; during a wake it is not recorded.
[log 19 DESIGN CHOICE, 20 DESIGN CHOICE] -/
def execWakeEvent (src detail : Nat) (s : State) : Res :=
  let e := (src, wakeDetail src detail)
  let k := s.power.step
  if 1 ≤ k ∧ k ≤ 4 then
    if s.wakes s.power.target src detail then .next { s with power := { s.power with wakes := s.power.wakes ++ [e] } }
    else .next s
  else if k = 6 || !s.wakes s.mode src detail then .next s
  else if s.asleep then .next (s.recordWake e false 0 s.mode).clocksOn
  else if s.mode = .deep then
    let s := s.recordWake e false 0 .deep
    .next { s with power := { s.power with step := 6, railEn := true } }
  else .next s

/-- `WAKE_SEQUENCE_END` (R403): faults repaired and stages restarted, the device returns to the mode it left, M5 in place
of M3 if a unit was shed, and SET_MODE is acknowledged.
[log 20 DESIGN CHOICE] -/
def execWakeSequenceEnd (s : State) : Res :=
  if s.asleep && s.power.step == 6 && !s.faultsOpen && !s.restartsLeft then
    let s := if s.power.left = Mode.run then s.runMode else { s with mode := s.power.left }
    let s := { s with goHeld := none }.replyTo s.power.asker 0 []
    .next { s with power := { s.power with step := 0, asker := none } }
  else .next s

/-- `DEEP_WAKE` (R374, R375, R404, R409): the crystal runs again after `lprc` LPRC cycles, and the device boots through
M1.
[log 9 DESIGN CHOICE, 18 DESIGN CHOICE] -/
def execDeepWake (lprc : Nat) (s : State) : Res :=
  if s.mode = .deep && s.power.step == 6 then
    let t := s.tally.resume lprc
    let s := { s with tally := { t with skew := t.count - t.stopAt }, power := { s.power with lastWakeT := t.count } }
    let s := s.toBoot 7 true
    .next { s with tally := { s.tally with skewEst := true } }
  else .next s

/-! ### The latch instant -/

/-- `LATCH_INSTANT` (R111, R398-R400, R403): a stage that is to restart after a wake does so once the faults found
asleep are repaired; a stop for SERVICE is that of step 3 of R74. -/
def execLatchInstant (s : Nat) (st : State) : Res :=
  let x := st.stage s
  let wait := x.restart && st.asleep && st.faultsOpen
  let st := if wait then (st.modStage s fun x => { x with restart := false }).latch s else st.latch s
  let st := if wait then st.modStage s fun x => { x with restart := true } else st
  let st := if x.stopReq && !(st.stage s).stopReq && st.power.target = .service then st.stopStage s else st
  .next (st.parkChannels.serviceCheck.unwound)

/-! ### LP5X power states (R89, R90) -/

/-- An upper bound of the tolerance in force of stage `i` in ns, `none` when it has none (R89): time is known to the line.
[log 34 DESIGN CHOICE] -/
def State.tolerance (s : State) (i : Nat) : Option Nat :=
  let st := s.stage i
  let b := st.beam
  let t := b.inForce
  if st.phase ≠ .running || !b.runs then none
  else if t.compat then some 0
  else
    let n := t.lines b.field
    if b.line + 1 < t.vactive || b.line + 1 = n then some t.latTol
    else some (t.latTol + ceilDiv ((n - 1 - b.line) * t.htotal * 1000000000) t.pixclk)

/-- Every stage tolerates `ns` of waiting (R90).
[log 34 DESIGN CHOICE] -/
def State.tolerates (s : State) (ns : Nat) : Bool :=
  (List.range 4).all fun i =>
    match s.tolerance i with
    | some t => decide (ns ≤ t)
    | none => true

/-- `LPX_POWER_DOWN` (R90).
[log 34 DESIGN CHOICE] -/
def execLpxPowerDown (s : State) : Res :=
  if s.lpx.trained && s.lpx.state == 0 && s.tolerates 100 then .next { s with lpx := { s.lpx with state := 1 } } else .next s

/-- `LPX_SELF_REFRESH` (R90).
[log 34 DESIGN CHOICE] -/
def execLpxSelfRefresh (s : State) : Res :=
  if s.lpx.trained && decide (s.lpx.state ≤ 1) && s.tolerates 3000 then .next { s with lpx := { s.lpx with state := 2 } } else .next s

/-- `LPX_POWER_EXIT` (R90): not in M8 and M9, where the LP5X stays in self-refresh, nor in the entry steps that put it
there. -/
def execLpxPowerExit (s : State) : Res :=
  if (s.lpx.state == 1 || s.lpx.state == 2) && !(s.asleep && s.power.step != 6) && s.power.step != 4 then
    .next { s with lpx := { s.lpx with state := 0 } }
  else .next s

/-- The scrub position of the memory of `a` moved on from the word at `a`: the next word of the Sector, or of usable LP5X
(R95).
[log 151 DESIGN CHOICE] -/
def State.scrubNext (s : State) (a : Nat) : State :=
  if isOrchard a then
    let n := a / 0x2000000
    s.setSector n { s.sector n with scrub := (a % 0x2000000 / 32 + 1) % 0x100000 }
  else
    { s with lpx := { s.lpx with scrub := ((a - 0x100000000) / 32 + 1) % (lpxUsable s.lpx.rawGib / 32) } }

/-- The word at `a` is the one that scrub reads next in its memory, and scrub of it is on (R95): it stands still with FAB (R395).
[log 151 DESIGN CHOICE] -/
def State.scrubs (s : State) (a : Nat) : Bool :=
  let w := s.dreg 0x10005100
  s.fabRuns && if isOrchard a then fld w 0 16 != 0 && (s.sector (a / 0x2000000)).scrub == a % 0x2000000 / 32
  else fld w 16 16 != 0 && decide (s.lpx.state < 2) && s.lpx.scrub == (a - 0x100000000) / 32

/-- `SCRUB_READ` (R93-R96): the period of a memory expires and its next word, the aligned 32-byte word at index `word` of the
device address space, is read, corrected and written back. `ce` and `ue` say that it is found with one symbol error, or with
more than two.
[log 33 DEDUCED, 151 DESIGN CHOICE] -/
def execScrubRead (word : Nat) (ce ue : Bool) (s : State) : Res :=
  let a := 32 * word
  if !s.isMem a || !s.scrubs a then .next s
  else
    let s := if ue then s.upset a 3 else if ce then s.upset a 1 else s
    .next ((s.readRanges [(a, 32)]).2.scrubNext a)

end Sys2Proof.Machine
end

