-- ==== Sys2Proof/Machine/Jtag.lean ====
section
/-!
DEFINITION. JTAG, debug and the fuses (R41, R62, R64, R65, R428).
-/

namespace Sys2Proof.Machine

/-- `JTAG_SERVICE_REQUEST` (R41, R428): M1 or M2 becomes M11 while debug is open; a load in progress ends.
[log 30 DESIGN CHOICE] -/
def execJtagServiceRequest (s : State) : Res :=
  if (s.mode = .boot || s.mode = .config) && !s.power.inReset && s.debugOpen then
    .next { s with
      mode := .service
      load := { s.load with
        busy := false, waitAsset := false, waitHost := false, finalWait := false, step := 0, sources := [], image := [] } }
  else .next s

/-- `JTAG_BOOT_REQUEST` (R65, R428): JTAG is the first image source of the next boot. -/
def execJtagBootRequest (s : State) : Res :=
  if s.mode = .service && s.debugOpen then .next { s with jtag := { s.jtag with bootReq := true } } else .next s

/-- IDCODE (R428): the revision, the part number, the manufacturer code of the fuses, and 1.
[log 157 DESIGN CHOICE] -/
def State.idcode (s : State) : Word := Config.revision ++ (0x4410 : BitVec 16) ++ s.fuses.jep106 ++ (1 : BitVec 1)

/-- `JTAG_DEBUG_CHALLENGE` (R418, R428): source 493, and a nonce stands as the challenge until it is answered. -/
def execJtagDebugChallenge (nonce : BitVec 128) (s : State) : Res :=
  let s := s.pulse 493
  if s.fuses.secure && !s.jtag.unlocked && decide (s.jtag.fails < 3) then
    .next { s with jtag := { s.jtag with challenge := some nonce } }
  else .next s

/-- The 32 bytes of a challenge: the nonce and the unique identity, each most significant byte first (R428).
[log 32 DESIGN CHOICE] -/
def State.challengeBytes (s : State) (nonce : BitVec 128) : List Byte :=
  beBytes nonce.toNat 16 ++ beBytes s.fuses.uid.toNat 16

/-- The response `sig`, in the SIGNATURE layout, answers a challenge (R61, R62, R428).
[log 32 DESIGN CHOICE] -/
def State.responseOk (s : State) (nonce : BitVec 128) (sig : List Byte) : Bool :=
  let pub := (sig.drop 4).take 64
  let known := match s.fuses.keyHash with
    | some h => beNat (sha256 pub) == h.toNat
    | none => false
  known && fieldAt sig 0 1 == 1 &&
    ecdsaOk pub (s.challengeBytes nonce) ((sig.drop 0x44).take 32) ((sig.drop 0x64).take 32)

/-- `JTAG_DEBUG_RESPONSE` (R418, R428): source 493; a valid response opens debug until the next release of RESET_N; the third failure closes the
challenge until then. -/
def execJtagDebugResponse (sig : List Byte) (s : State) : Res :=
  let s := s.pulse 493
  match s.jtag.challenge with
  | none => .next s
  | some n =>
    if s.responseOk n sig then .next { s with jtag := { s.jtag with challenge := none, unlocked := true } }
    else .next { s with jtag := { s.jtag with challenge := none, fails := s.jtag.fails + 1 } }

/-- `FUSE_PROGRAM` (R62, R64): 0 SECURE, 1 KEY_HASH, 2 IMAGE_KEY. Only in SERVICE with debug open; KEY_HASH and IMAGE_KEY take one
programming each, and a programmed bit stays.
[log 31 DESIGN CHOICE] -/
def execFuseProgram (which : BitVec 2) (v : BitVec 256) (s : State) : Res :=
  if s.mode = .service && s.debugOpen then
    let f := s.fuses
    match which.toNat with
    | 0 => .next { s with fuses := { f with secure := f.secure || v.getLsbD 0 } }
    | 1 => .next (if f.keyHash.isSome then s else { s with fuses := { f with keyHash := some v } })
    | 2 => .next (if f.imageKey.isSome then s else { s with fuses := { f with imageKey := some v } })
    | _ => .next s
  else .next s

/-- `JTAG_EXTEST` (R428): the signal balls take the levels shifted in.
[log 46 DESIGN CHOICE] -/
def execJtagExtest (pins : BitVec 256) (s : State) : Res := .next { s with jtag := { s.jtag with extest := some pins } }

end Sys2Proof.Machine
end

