-- ==== Sys2Proof/Machine/PipAlu.lean ====
section
/-!
DEFINITION. The arithmetic, move, compare and predicate instructions of a Pip (R260, R262, R263,
R265).
-/

namespace Sys2Proof.Machine

/-- The flags of a result written, in F-mode (R259). -/
def Core.setFlags (c : Core) (w : Word) : Core := { c with status := w, late := c.late.filter fun e => e.1 != 32 }

/-- A result written to `rd`, and in F-mode the flags `fl` of it (R253, R259, R263), after `cost` cycles of issue. -/
def aluBody (cost : Nat) (rd : Reg) (f : Core → Word) (fl : Core → Word → Word) : Body :=
  coreBody fun c =>
    let r := f c
    let c' := c.setG rd r
    (if c.fmode then c'.setFlags (fl c r) else c').retire cost

/-- The same, with a result that can be used 3 cycles after issue (R276). -/
def mulBody (rd : Reg) (f : Core → Word) : Body :=
  coreBody fun c =>
    let r := f c
    let c' := (c.setG rd r).delay rd.toNat 3
    (if c.fmode then (c'.setFlags (flagsNZ c.status r)).delay 32 3 else c').retire 1

/-- Flags N and Z alone (R263). -/
def flNZ (c : Core) (r : Word) : Word := flagsNZ c.status r

/-- An instruction of the ALU group with flags N and Z (R262). -/
def pipR (x : Issue) (fn : BitVec 7) (cost : Nat) (rd ra rb : Reg) (f : Word → Word → Word) (s : State) : Res :=
  pipIssue x (encR x.guard 1 rd ra rb fn) neverUndef false
    (aluBody cost rd (fun c => f (c.g ra) (c.g rb)) flNZ) s

/-- An instruction of the ALU group with its own flags (R262, R263). -/
def pipRF (x : Issue) (fn : BitVec 7) (undef : Core → Bool) (rd ra rb : Reg) (f : Core → Word → Word → Word)
    (fl : Core → Word → Word → Word) (s : State) : Res :=
  pipIssue x (encR x.guard 1 rd ra rb fn) undef false
    (aluBody 1 rd (fun c => f c (c.g ra) (c.g rb)) (fun c _ => fl c (c.g ra) (c.g rb))) s

/-- An immediate instruction with flags N and Z (R260, R263). -/
def pipI (x : Issue) (op : BitVec 6) (rd ra : Reg) (imm : BitVec 12) (f : Word → Word) (s : State) : Res :=
  pipIssue x (encI x.guard op rd ra imm) neverUndef false (aluBody 1 rd (fun c => f (c.g ra)) flNZ) s

/-- The kinds of shift, with the bit last shifted out (R262, R263). -/
def shiftLeft (a : Word) (k : Nat) : Word := a <<< k

/-- Logical shift right. -/
def shiftRight (a : Word) (k : Nat) : Word := a >>> k

/-- Arithmetic shift right. -/
def shiftArith (a : Word) (k : Nat) : Word := a.sshiftRight k

/-- The bit a left shift by `k` puts out last. -/
def outLeft (a : Word) (k : Nat) : Bool := bit a (32 - k)

/-- The bit a right shift by `k` puts out last. -/
def outRight (a : Word) (k : Nat) : Bool := bit a (k - 1)

/-- A shift amount: the low 5 bits (R262). -/
def shiftAmt (b : Word) : Nat := fld b 0 5

/-- A shift by a register (R262, R263). -/
def pipShift (x : Issue) (fn : BitVec 7) (rd ra rb : Reg) (f : Word → Nat → Word) (out : Word → Nat → Bool) (s : State) : Res :=
  pipRF x fn neverUndef rd ra rb (fun _ a b => f a (shiftAmt b))
    (fun c a b => flagsShift c.status (f a (shiftAmt b)) (shiftAmt b) (out a (shiftAmt b))) s

/-- A shift by an immediate (R260, R263). -/
def pipShiftI (x : Issue) (kind : BitVec 2) (rd ra : Reg) (amt : BitVec 5) (f : Word → Nat → Word)
    (fl : Word → Word → Word → Word) (s : State) : Res :=
  pipIssue x (encR x.guard 7 rd ra 0 (kind ++ amt)) neverUndef false
    (aluBody 1 rd (fun c => f (c.g ra) amt.toNat) (fun c r => fl c.status (c.g ra) r)) s

/-- Leading zeros, 0-32 (R262). -/
def leadingZeros (a : Word) : Nat := (List.range 32).findIdx fun i => bit a (31 - i)

/-- Set bits (R262). -/
def popCount (a : Word) : Nat := (List.range 32).countP fun i => bit a i

/-- Bytes reversed (R262). -/
def byteSwap (a : Word) : Word :=
  (a.extractLsb' 0 8 ++ a.extractLsb' 8 8 ++ a.extractLsb' 16 8 ++ a.extractLsb' 24 8 : BitVec 32)

/-- Signed quotient, rounded toward zero; a divisor of 0 gives all ones (R262). -/
def divS (a b : Word) : Word := if b = 0 then 0xFFFFFFFF else BitVec.ofInt 32 (a.toInt.tdiv b.toInt)

/-- Unsigned quotient (R262). -/
def divU (a b : Word) : Word := if b = 0 then 0xFFFFFFFF else wd (a.toNat / b.toNat)

/-- Signed remainder, with the sign of `a`; a divisor of 0 gives `a` (R262). -/
def remS (a b : Word) : Word := if b = 0 then a else BitVec.ofInt 32 (a.toInt.tmod b.toInt)

/-- Unsigned remainder (R262). -/
def remU (a b : Word) : Word := if b = 0 then a else wd (a.toNat % b.toNat)

/-- High word of the signed product (R262). -/
def mulHS (a b : Word) : Word := BitVec.ofInt 32 ((a.toInt * b.toInt) / 2 ^ 32)

/-- High word of the unsigned product (R262). -/
def mulHU (a b : Word) : Word := wd (a.toNat * b.toNat / 2 ^ 32)

/-- A predicate written by a compare (R265). -/
def cmpBody (qd : BitVec 3) (qe : Option (BitVec 3)) (p : Core → Bool) : Body :=
  coreBody fun c =>
    let r := p c
    let c := c.setQ qd r
    (match qe with | some q => c.setQ q (!r) | none => c).retire 1

/-- The predicate group (R265). -/
def pipP (x : Issue) (fn : BitVec 7) (qd qa qb : BitVec 3) (f : Bool → Bool → Bool) (s : State) : Res :=
  pipIssue x (encP x.guard qd qa qb fn) neverUndef false
    (coreBody fun c => (c.setQ qd (f (c.q qa) (c.q qb))).retire 1) s

/-- A register written with no flag (R260, R263). -/
def moveBody (rd : Reg) (f : Core → Word) : Body := coreBody fun c => (c.setG rd (f c)).retire 1

/-- `adc` and `sbc` execute only in F-mode (R259). -/
def pModeOnlyUndef (c : Core) : Bool := !c.fmode


/-- `addi` (R260, R263). -/
def execAddi (x : Issue) (rd ra : Reg) (imm : BitVec 12) (s : State) : Res :=
  pipIssue x (encI x.guard 0x03 rd ra imm) neverUndef false
    (aluBody 1 rd (fun c => c.g ra + imm.signExtend 32)
      (fun c _ => flagsAdd c.status (c.g ra) (imm.signExtend 32) false)) s

/-- `andi` (R260, R263). -/
def execAndi (x : Issue) (rd ra : Reg) (imm : BitVec 12) (s : State) : Res :=
  pipI x 0x04 rd ra imm (fun a => a &&& imm.zeroExtend 32) s

/-- `ori` (R260, R263). -/
def execOri (x : Issue) (rd ra : Reg) (imm : BitVec 12) (s : State) : Res :=
  pipI x 0x05 rd ra imm (fun a => a ||| imm.zeroExtend 32) s

/-- `xori` (R260, R263). -/
def execXori (x : Issue) (rd ra : Reg) (imm : BitVec 12) (s : State) : Res :=
  pipI x 0x06 rd ra imm (fun a => a ^^^ imm.zeroExtend 32) s

/-- `slli` (R260, R263). -/
def execSlli (x : Issue) (rd ra : Reg) (amt : BitVec 5) (s : State) : Res :=
  pipShiftI x 0 rd ra amt shiftLeft (fun st a r => flagsShift st r amt.toNat (outLeft a amt.toNat)) s

/-- `srli` (R260, R263). -/
def execSrli (x : Issue) (rd ra : Reg) (amt : BitVec 5) (s : State) : Res :=
  pipShiftI x 1 rd ra amt shiftRight (fun st a r => flagsShift st r amt.toNat (outRight a amt.toNat)) s

/-- `srai` (R260, R263). -/
def execSrai (x : Issue) (rd ra : Reg) (amt : BitVec 5) (s : State) : Res :=
  pipShiftI x 2 rd ra amt shiftArith (fun st a r => flagsShift st r amt.toNat (outRight a amt.toNat)) s

/-- `roli` (R260, R263). -/
def execRoli (x : Issue) (rd ra : Reg) (amt : BitVec 5) (s : State) : Res :=
  pipShiftI x 3 rd ra amt (fun a k => a.rotateLeft k) (fun st _ r => flagsNZ st r) s

/-- `movl` (R260). -/
def execMovl (x : Issue) (rd : Reg) (imm : BitVec 16) (s : State) : Res :=
  pipIssue x (encW x.guard 0x08 rd imm) neverUndef false (moveBody rd fun _ => imm.zeroExtend 32) s

/-- `movh`: bits 15:0 unchanged (R260). -/
def execMovh (x : Issue) (rd : Reg) (imm : BitVec 16) (s : State) : Res :=
  pipIssue x (encW x.guard 0x09 rd imm) neverUndef false
    (moveBody rd fun c => (imm ++ (c.g rd).extractLsb' 0 16 : BitVec 32)) s

/-- `add` (R262, R263). -/
def execAdd (x : Issue) (rd ra rb : Reg) (s : State) : Res :=
  pipRF x 0x00 neverUndef rd ra rb (fun _ a b => a + b) (fun c a b => flagsAdd c.status a b false) s

/-- `sub` (R262, R263). -/
def execSub (x : Issue) (rd ra rb : Reg) (s : State) : Res :=
  pipRF x 0x01 neverUndef rd ra rb (fun _ a b => a - b) (fun c a b => flagsSub c.status a b true) s

/-- `and` (R262). -/
def execAnd (x : Issue) (rd ra rb : Reg) (s : State) : Res :=
  pipR x 0x02 1 rd ra rb (fun a b => a &&& b) s

/-- `or` (R262). -/
def execOr (x : Issue) (rd ra rb : Reg) (s : State) : Res :=
  pipR x 0x03 1 rd ra rb (fun a b => a ||| b) s

/-- `xor` (R262). -/
def execXor (x : Issue) (rd ra rb : Reg) (s : State) : Res :=
  pipR x 0x04 1 rd ra rb (fun a b => a ^^^ b) s

/-- `andn` (R262). -/
def execAndn (x : Issue) (rd ra rb : Reg) (s : State) : Res :=
  pipR x 0x05 1 rd ra rb (fun a b => a &&& ~~~b) s

/-- `orn` (R262). -/
def execOrn (x : Issue) (rd ra rb : Reg) (s : State) : Res :=
  pipR x 0x06 1 rd ra rb (fun a b => a ||| ~~~b) s

/-- `xnor` (R262). -/
def execXnor (x : Issue) (rd ra rb : Reg) (s : State) : Res :=
  pipR x 0x07 1 rd ra rb (fun a b => ~~~(a ^^^ b)) s

/-- `sll` (R262, R263). -/
def execSll (x : Issue) (rd ra rb : Reg) (s : State) : Res :=
  pipShift x 0x08 rd ra rb shiftLeft outLeft s

/-- `srl` (R262, R263). -/
def execSrl (x : Issue) (rd ra rb : Reg) (s : State) : Res :=
  pipShift x 0x09 rd ra rb shiftRight outRight s

/-- `sra` (R262, R263). -/
def execSra (x : Issue) (rd ra rb : Reg) (s : State) : Res :=
  pipShift x 0x0A rd ra rb shiftArith outRight s

/-- `rol` (R262). -/
def execRol (x : Issue) (rd ra rb : Reg) (s : State) : Res :=
  pipR x 0x0B 1 rd ra rb (fun a b => a.rotateLeft (shiftAmt b)) s

/-- `min` (R262). -/
def execMin (x : Issue) (rd ra rb : Reg) (s : State) : Res :=
  pipR x 0x0C 1 rd ra rb (fun a b => if b.slt a then b else a) s

/-- `max` (R262). -/
def execMax (x : Issue) (rd ra rb : Reg) (s : State) : Res :=
  pipR x 0x0D 1 rd ra rb (fun a b => if a.slt b then b else a) s

/-- `minu` (R262). -/
def execMinu (x : Issue) (rd ra rb : Reg) (s : State) : Res :=
  pipR x 0x0E 1 rd ra rb (fun a b => if b.ult a then b else a) s

/-- `maxu` (R262). -/
def execMaxu (x : Issue) (rd ra rb : Reg) (s : State) : Res :=
  pipR x 0x0F 1 rd ra rb (fun a b => if a.ult b then b else a) s

/-- `adc`, F-mode only (R259, R262, R263). -/
def execAdc (x : Issue) (rd ra rb : Reg) (s : State) : Res :=
  pipRF x 0x10 pModeOnlyUndef rd ra rb (fun c a b => a + b + wd c.carry.toNat)
    (fun c a b => flagsAdd c.status a b c.carry) s

/-- `sbc`, F-mode only (R259, R262, R263). -/
def execSbc (x : Issue) (rd ra rb : Reg) (s : State) : Res :=
  pipRF x 0x11 pModeOnlyUndef rd ra rb (fun c a b => a - b - wd (1 - c.carry.toNat))
    (fun c a b => flagsSub c.status a b c.carry) s

/-- An instruction of the multiply family (R262, R276). -/
def pipMul (x : Issue) (fn : BitVec 7) (rd ra rb : Reg) (f : Core → Word) (s : State) : Res :=
  pipIssue x (encR x.guard 1 rd ra rb fn) neverUndef false (mulBody rd f) s

/-- `mul` (R262). -/
def execMul (x : Issue) (rd ra rb : Reg) (s : State) : Res :=
  pipMul x 0x12 rd ra rb (fun c => c.g ra * c.g rb) s

/-- `mulh` (R262). -/
def execMulh (x : Issue) (rd ra rb : Reg) (s : State) : Res :=
  pipMul x 0x13 rd ra rb (fun c => mulHS (c.g ra) (c.g rb)) s

/-- `mulhu` (R262). -/
def execMulhu (x : Issue) (rd ra rb : Reg) (s : State) : Res :=
  pipMul x 0x14 rd ra rb (fun c => mulHU (c.g ra) (c.g rb)) s

/-- `mac`: rd plus the low word of the product (R262). -/
def execMac (x : Issue) (rd ra rb : Reg) (s : State) : Res :=
  pipMul x 0x15 rd ra rb (fun c => c.g rd + c.g ra * c.g rb) s

/-- `div`: 34 cycles, no trap (R262, R276). -/
def execDiv (x : Issue) (rd ra rb : Reg) (s : State) : Res :=
  pipR x 0x16 34 rd ra rb divS s

/-- `divu`: 34 cycles, no trap (R262, R276). -/
def execDivu (x : Issue) (rd ra rb : Reg) (s : State) : Res :=
  pipR x 0x17 34 rd ra rb divU s

/-- `rem`: 34 cycles, no trap (R262, R276). -/
def execRem (x : Issue) (rd ra rb : Reg) (s : State) : Res :=
  pipR x 0x18 34 rd ra rb remS s

/-- `remu`: 34 cycles, no trap (R262, R276). -/
def execRemu (x : Issue) (rd ra rb : Reg) (s : State) : Res :=
  pipR x 0x19 34 rd ra rb remU s

/-- `clz` (R262). -/
def execClz (x : Issue) (rd ra : Reg) (s : State) : Res :=
  pipR x 0x1A 1 rd ra 0 (fun a _ => wd (leadingZeros a)) s

/-- `popc` (R262). -/
def execPopc (x : Issue) (rd ra : Reg) (s : State) : Res :=
  pipR x 0x1B 1 rd ra 0 (fun a _ => wd (popCount a)) s

/-- `brev` (R262). -/
def execBrev (x : Issue) (rd ra : Reg) (s : State) : Res :=
  pipR x 0x1C 1 rd ra 0 (fun a _ => wd (revBits a.toNat 32)) s

/-- `bswap` (R262). -/
def execBswap (x : Issue) (rd ra : Reg) (s : State) : Res :=
  pipR x 0x1D 1 rd ra 0 (fun a _ => byteSwap a) s

/-- `sext.b` (R262). -/
def execSextB (x : Issue) (rd ra : Reg) (s : State) : Res :=
  pipR x 0x1E 1 rd ra 0 (fun a _ => (a.extractLsb' 0 8).signExtend 32) s

/-- `sext.h` (R262). -/
def execSextH (x : Issue) (rd ra : Reg) (s : State) : Res :=
  pipR x 0x1F 1 rd ra 0 (fun a _ => (a.extractLsb' 0 16).signExtend 32) s

/-- `cmp.cc`: codes 12-15 are unassigned; qe is written last (R265). -/
def execCmp (x : Issue) (qd : BitVec 3) (ra rb : Reg) (qe : BitVec 3) (cc : BitVec 4) (s : State) : Res :=
  pipIssue x (encC x.guard 0x0A 0 qd ra rb (qe ++ cc)) (fun _ => decide (12 ≤ cc.toNat)) false
    (cmpBody qd (some qe) fun c => compares (c.g ra) (c.g rb) cc.toNat) s

/-- `cmpi.cc`: codes 0-3 have opcode 0x0B, 4-7 opcode 0x0C (R260, R265). -/
def execCmpi (x : Issue) (qd : BitVec 3) (ra : Reg) (imm : BitVec 12) (cc : BitVec 3) (s : State) : Res :=
  pipIssue x (encCI x.guard (if cc.toNat < 4 then 0x0B else 0x0C) (cc.extractLsb' 0 2) qd ra imm) neverUndef false
    (cmpBody qd none fun c => compares (c.g ra) (imm.signExtend 32) cc.toNat) s

/-- `pand` (R265). -/
def execPand (x : Issue) (qd qa qb : BitVec 3) (s : State) : Res :=
  pipP x 0 qd qa qb (fun a b => a && b) s

/-- `por` (R265). -/
def execPor (x : Issue) (qd qa qb : BitVec 3) (s : State) : Res :=
  pipP x 1 qd qa qb (fun a b => a || b) s

/-- `pxor` (R265). -/
def execPxor (x : Issue) (qd qa qb : BitVec 3) (s : State) : Res :=
  pipP x 2 qd qa qb (fun a b => a ^^ b) s

/-- `pandn` (R265). -/
def execPandn (x : Issue) (qd qa qb : BitVec 3) (s : State) : Res :=
  pipP x 3 qd qa qb (fun a b => a && !b) s

/-- `pnot` (R265). -/
def execPnot (x : Issue) (qd qa : BitVec 3) (s : State) : Res :=
  pipP x 4 qd qa 0 (fun a _ => !a) s

end Sys2Proof.Machine
end

