-- ==== Sys2Proof/Machine/Warden.lean ====
section
/-!
DEFINITION. The Warden's commands (R318-R320): each row serves the message posted in the mailbox of Warden `w`.
-/

namespace Sys2Proof.Machine

/-! ### Requests and replies -/

/-- The senders of R319: the host, a Pip of a stage, the peer Warden. -/
inductive Sender where
  | host
  | pip (stage : Option Nat)
  | peer
  deriving DecidableEq, Repr

/-- Who posted the message in the mailbox of Warden `w`. -/
def State.senderOf (s : State) (w : Nat) : Sender :=
  let t := (s.mb (20 + w)).sender
  if t < 20 then .pip ((s.pipOf t).map Prod.fst) else if t < 22 then .peer else .host

/-- The opcode Warden `w` finds in its mailbox when it takes up a message: it runs, is not lost, and is serving nothing
(R316, R318). -/
def State.taken (s : State) (w : Nat) : Option Nat :=
  let b := s.mb (20 + w)
  if decide (w < 2) && b.state = .posted && (s.core (20 + w)).run = .running && !vget false s.keeper.lost w && !s.serving w then
    some (fld b.msg[0] 0 8)
  else none

/-- Word `k` of the request. -/
def State.arg (s : State) (w k : Nat) : Word := vget 0 (s.mb (20 + w)).msg k

/-- BAD_ARGS of the form of a request (R320): fewer than `n` words, or a reserved bit set in a word whose fields are `masks`.
[log 26 DESIGN CHOICE] -/
def State.badForm (s : State) (w n : Nat) (masks : List Word) : Bool :=
  decide ((s.mb (20 + w)).count < n) || fld (s.arg w 0) 8 8 != 0 ||
    masks.zipIdx.any fun (e : Word × Nat) => s.arg w (e.2 + 1) &&& ~~~e.1 != 0

/-- An entry into DOZE, SLEEP or DEEP is in progress (R396). -/
def State.entering (s : State) : Bool := decide (1 ≤ s.power.step) && decide (s.power.step ≤ 5)

/-- A command of opcode `op` is served: STANDBY by a standby but for HEALTH, DENIED for a sender not listed, BAD_ARGS for its
form, BUSY during a mode entry for those R396 names; otherwise `f` (R318-R320, R396).
[log 26 DESIGN CHOICE, 29 DESIGN CHOICE] -/
def State.serveCmd (s : State) (w op : Nat) (who : List Sender) (anyPip duringEntry : Bool) (n : Nat) (masks : List Word)
    (f : State → State) : State :=
  if s.taken w ≠ some op then s
  else if op ≠ 1 && s.activeWarden != w then s.reply w 0x83 []
  else
    let from' := s.senderOf w
    let ok := who.contains from' || (anyPip && match from' with | .pip _ => true | _ => false)
    if !ok then s.reply w 0x82 []
    else if s.badForm w n masks then s.reply w 0x81 []
    else if s.entering && !duringEntry then s.reply w 0x40 []
    else f s

/-- Bit `i` of the result is `p i`, for the stages. -/
def stageBits (p : Nat → Bool) : Nat := (upto 4 p).foldl (fun n i => n + 2 ^ i) 0

/-! ### Status commands -/

/-- The heartbeat of the peer of Warden `w` is good (R319, R390). -/
def State.peerGood (s : State) (w : Nat) : Bool :=
  !vget false s.keeper.lost (1 - w) && (s.core (21 - w)).run != .stopped

/-- `HEALTH` (R319): `tj` is the junction temperature, signed, in sixteenths of a degree. -/
def execHealth (w : Nat) (tj : BitVec 16) (s : State) : Res :=
  .next (s.serveCmd w 1 [.host, .peer] true true 1 [] fun s =>
    let w1 := wd (s.mode.num + (s.activeWarden == w).toNat * 0x10 + (s.peerGood w).toNat * 0x20 +
      stageBits (fun i => (s.stage i).loaded) * 0x100 + stageBits (fun i => (s.stage i).degraded) * 0x1000 +
      stageBits (fun i => (s.stage i).prism.frozen) * 0x10000)
    let n := (List.range 4).foldl (fun (n : Word) c => n + (s.sector c).repairs) 0
    s.reply w 0 [w1, n, tj.zeroExtend 32])

/-- Spare units of a KIND in a Sector (R319). -/
def State.spareCount (s : State) (k sec : Nat) : Nat := (s.freeUnits k sec).length

/-- Spare voices of a Sector at 48 kHz (R56, R319).
[log 28 DESIGN CHOICE] -/
def State.spareVoices (s : State) (sec : Nat) : Nat :=
  if s.healthy 6 sec 0 then voicesIn (s.voiceLoad sec (9, 0)) 48000 else 0

/-- `REPAIR_STATUS` (R319). -/
def execRepairStatus (w : Nat) (s : State) : Res :=
  .next (s.serveCmd w 6 [.host, .peer] true true 2 [3] fun s =>
    let c := fld (s.arg w 1) 0 2
    let x := s.sector c
    let n := fun k => s.spareCount k c
    s.reply w 0 [x.repairs, x.sheds, wd (n 0 + n 1 * 0x100 + n 2 * 0x10000 + n 3 * 0x1000000),
      wd (n 5 + n 4 * 0x100 + s.spareVoices c * 0x10000), wd (x.lastKind + x.lastUnit * 0x100), x.lastTime])

/-- `LEDGER_STATUS` (R319). -/
def execLedgerStatus (w : Nat) (s : State) : Res :=
  .next (s.serveCmd w 8 [.host] true true 1 [] fun s =>
    let done := (List.range 5).foldl (fun (n : Word) g => n + vget 0 s.store.acked g) 0
    s.reply w 0 [done, wd s.store.recs.length, wd (s.store.pfw.toNat + s.ldgAccepting.toNat * 2)])

/-- The answer of BIND_QUERY: the entry in the layout of R20, or for KIND 7 the channels held. -/
def State.answerBind (s : State) (w i k l : Nat) : State :=
  if decide (7 < k) || decide (kindIndices k ≤ l) then s.reply w 0x81 []
  else if k = 7 then s.reply w 0 [(s.stage i).timers.foldl (fun (v : Word) c => setBit v c true) 0]
  else s.reply w 0 [((s.stage i).bind (bindAt k l)).word]

/-- `BIND_QUERY` (R20, R319): a stage's Pip may ask of its own stage only. -/
def execBindQuery (w : Nat) (s : State) : Res :=
  .next (s.serveCmd w 9 [.host, .peer] true true 2 [0xFF0F03] fun s =>
    let a := s.arg w 1
    let i := fld a 0 2
    let k := fld a 8 4
    let l := fld a 16 8
    match s.senderOf w with
    | .pip o => if o ≠ some i then s.reply w 0x82 [] else s.answerBind w i k l
    | _ => s.answerBind w i k l)

/-- `BAD_OPCODE` (R320): opcode 0 or 0x0A-0xFF. -/
def execBadOpcode (w : Nat) (s : State) : Res :=
  match s.taken w with
  | some op =>
    if op = 0 ∨ 10 ≤ op then .next (s.reply w (if s.activeWarden = w then 0x80 else 0x83) []) else .next s
  | none => .next s

/-! ### Loads -/

/-- A stage load or unload is accepted (R74, R75, R391). -/
def State.acceptLoad (s : State) (w i src addr maxLen : Nat) (unload : Bool) : State :=
  let s := s.toMode .retune
  let n := if unload then 2 else 1
  let s := { s with load := { s.load with
    busy := true, stage := i, source := src, addr := addr, maxLen := maxLen, unload := unload, asker := some w
    step := n, phase := n, image := [] } }
  s.journal (if unload then 4 else 3) 1 8 i 0 none none n 0

/-- The mode allows a stage load (R74). -/
def State.mayLoad (s : State) : Bool := s.mode = .run || s.mode = .degraded

/-- An LP5X source of `n` bytes at `a` lies in usable LP5X and in no segment of a stage (R68). -/
def State.lpxSourceOk (s : State) (a n : Nat) : Bool :=
  decide (0x100000000 ≤ a) && decide (a + n ≤ 0x100000000 + lpxUsable s.lpx.rawGib) &&
    (List.range 4).all fun i => (s.stage i).segs.all fun g => !meet a n g.base g.size

/-- `LOAD_STAGE` (R68, R74, R319, R453): from the asset store it fails at once while no drive is ready.
[log 26 DESIGN CHOICE] -/
def execLoadStage (w : Nat) (s : State) : Res :=
  .next (s.serveCmd w 2 [.host] false false 5 [0xF3, 0xFFFFFFFF, 0xFF, 0xFFFFFFFF] fun s =>
    let i := fld (s.arg w 1) 0 2
    let src := fld (s.arg w 1) 4 4
    let addr := (s.arg w 2).toNat + fld (s.arg w 3) 0 8 * 2 ^ 32
    let n := (s.arg w 4).toNat
    if !([2, 3, 4, 6].contains src) then s.reply w 0x81 []
    else if s.load.busy then s.reply w 0x40 []
    else if !s.mayLoad then s.reply w 0x43 []
    else if src = 6 && !s.lpxSourceOk addr n then s.reply w 0x81 []
    else
      let s := s.acceptLoad w i src addr n false
      if src = 2 && s.readyDrives.isEmpty then s.failLoad 0x30 else s.beginPass1)

/-- `UNLOAD_STAGE` (R69, R75, R319). -/
def execUnloadStage (w : Nat) (s : State) : Res :=
  .next (s.serveCmd w 3 [.host] false false 2 [3] fun s =>
    let i := fld (s.arg w 1) 0 2
    if s.load.busy then s.reply w 0x40 []
    else if (s.stage i).phase = .empty then s.reply w 0x41 []
    else if !s.mayLoad then s.reply w 0x43 []
    else s.acceptLoad w i s.load.source 0 0 true)

/-! ### Modes and sheds -/

/-- `SET_MODE` (R41, R42, R396-R399).
[log 25 DEDUCED, 26 DESIGN CHOICE] -/
def execSetMode (w : Nat) (s : State) : Res :=
  .next (s.serveCmd w 4 [.host] false false 2 [0xF] fun s =>
    match Mode.ofNum (fld (s.arg w 1) 0 4) with
    | none => s.reply w 0x81 []
    | some m =>
      let run := s.mode = .run || s.mode = .degraded
      if s.mode = .retune then s.reply w 0x40 []
      else if m = s.mode then s.reply w 0 []
      else match m with
        | .attract => if run then s.enterAttract.reply w 0 [] else s.reply w 0x43 []
        | .run | .degraded => if s.mode = .attract then s.leaveAttract.reply w 0 [] else s.reply w 0x43 []
        | .doze | .sleep | .deep => if run || s.mode = .attract then s.beginEntry w m else s.reply w 0x43 []
        | .service => if run then s.beginService w else s.reply w 0x43 []
        | _ => s.reply w 0x43 [])

/-- A shed takes effect and is acknowledged, its journal entries before and after (R319, R391). -/
def State.shedDone (s : State) (w a i l n sec : Nat) (f : State → State) : State :=
  let s := s.journal 2 1 (actionKind a) i l none none a n
  let s := (f s).noteShed sec
  (s.journal 2 3 (actionKind a) i l none none a n).reply w 0 []

/-- `SHED` (R319, R387): a healthy unit, voices, or a whole stage.
[log 26 DESIGN CHOICE] -/
def execShed (w : Nat) (s : State) : Res :=
  .next (s.serveCmd w 5 [.host] false false 3 [0xFFFF03, 0xFFFF] fun s =>
    let i := fld (s.arg w 1) 0 2
    let a := fld (s.arg w 1) 8 8
    let l := fld (s.arg w 1) 16 8
    let n := fld (s.arg w 2) 0 16
    let k := actionKind a
    let l' := if a = 5 then 0 else l
    let b := bindAt k l'
    let st := s.stage i
    if a = 0 ∨ 6 < a ∨ (a = 3 ∧ n = 0) ∨ (a ≠ 3 ∧ a ≠ 6 ∧ kindIndices k ≤ l') then s.reply w 0x81 []
    else if !(s.mode = .run || s.mode = .degraded || s.mode = .attract) then s.reply w 0x43 []
    else if a = 3 then
      if st.voiceCount = 0 then s.reply w 0x85 []
      else s.shedDone w a i l n (st.home.getD 0) fun s => s.modStage i (·.lessVoices n)
    else if a = 6 then
      if st.phase = .empty then s.reply w 0x85 []
      else s.shedDone w a i l 0 (st.bind 24).sector fun s => s.dropStage i
    else if !(st.bind b).bound || (st.bind b).shed then s.reply w 0x85 []
    else s.shedDone w a i l 0 (st.bind b).sector fun s => s.shedUnit i b)

/-! ### The boot slots (R67) -/

/-- The bytes of slot `n` replaced by an image (R67). What an erase leaves of the slot beyond the image is not stated: some of it
is erased. -/
def State.writeSlot (s : State) (n : Nat) (bs : List Byte) : State :=
  let (fv, s) := s.draw
  let a := slotBase n
  let gone := bs.length + Config.progress fv % (slotSize - bs.length + 1)
  let f := s.flash.filter fun e => e.1 < a || a + gone ≤ e.1
  { s with flash := bs.zipIdx.foldl (fun (m : Sparse Byte) (e : Byte × Nat) => sset flashDefault m (a + e.2) e.1) f }

/-- What the pass-1 checks find in slot `n` (R67, R69).
[log 27 DESIGN CHOICE] -/
def State.slotCode (s : State) (n : Nat) : Option Nat :=
  let t := { s with load := { s.load with source := n, stage := 15 } }
  s.pass1 (t.sourceBytes []) slotSize none none

/-- `UPDATE_SLOT` (R67 steps 1 and 2, R319): `image` is what the source gives.
[log 27 DESIGN CHOICE] -/
def execUpdateSlot (w : Nat) (image : List Byte) (s : State) : Res :=
  .next (s.serveCmd w 7 [.host] false false 4 [0xF0, 0xFFFFFFFF, 0xFFFFFFFF] fun s =>
    let src := fld (s.arg w 1) 4 4
    let n := (s.arg w 3).toNat
    if !([2, 3, 4].contains src) || n == 0 || decide (slotSize < n) then s.reply w 0x81 []
    else if s.load.busy || s.load.update.isSome then s.reply w 0x40 []
    else if (src = 2 && s.readyDrives.isEmpty) || decide (image.length < n) then s.reply w 0x30 []
    else
      let slot := 1 - s.activeSlot.1
      let s := s.writeSlot slot (image.take n)
      match s.slotCode slot with
      | some c => s.reply w c []
      | none => { s with load := { s.load with update := some (w, slot) } })

/-- A control copy (R66). -/
def controlCopy (seq slot : Nat) : List Byte :=
  let b := leBytes 0x544F4C53 4 ++ leBytes seq 4 ++ leBytes slot 4
  b ++ leBytes (crc32c b).toNat 4

/-- `UPDATE_SLOT_END` (R67 step 3): the control copy that does not hold the winner now names the new slot.
[log 27 DESIGN CHOICE] -/
def execUpdateSlotEnd (s : State) : Res :=
  match s.load.update with
  | none => .next s
  | some (w, slot) =>
    let seq := (s.activeSlot.2 + 1) % 2 ^ 32
    let c := match s.slotWinner with | some c => 1 - c | none => 0
    let f := s.flash.filter fun e => e.1 < 0x1000000 * c || 0x1000000 * c + 0x1000 ≤ e.1
    let f := (controlCopy seq slot).zipIdx.foldl (fun (m : Sparse Byte) (e : Byte × Nat) =>
      sset flashDefault m (0x1000000 * c + e.2) e.1) f
    let s := { s with flash := f, load := { s.load with update := none } }
    .next (s.replyTo (some w) 0 [wd slot, wd seq])

end Sys2Proof.Machine
end

