-- ==== Sys2Proof/Machine/Dispatch.lean ====
section
/-!
DEFINITION. What each command does: one arm per constructor of Instr, each a direct call of that
command's meaning.
-/

namespace Sys2Proof.Machine

/-- The effect of a command on everything but the queue. -/
def exec (i : Instr) (s : State) : Host.Outcome State Fault Refusal :=
  match i with
  | .powerGood => Sys2Proof.Machine.execPowerGood s
  | .railEnRise => Sys2Proof.Machine.execRailEnRise s
  | .resetNRelease straps qiPins => Sys2Proof.Machine.execResetNRelease straps qiPins s
  | .resetNAssert => Sys2Proof.Machine.execResetNAssert s
  | .powerLoss => Sys2Proof.Machine.execPowerLoss s
  | .brownOut => Sys2Proof.Machine.execBrownOut s
  | .keeperFailure => Sys2Proof.Machine.execKeeperFailure s
  | .rootPllLoss xtalStopped => Sys2Proof.Machine.execRootPllLoss xtalStopped s
  | .monitoredRailFault => Sys2Proof.Machine.execMonitoredRailFault s
  | .vddaDacFault => Sys2Proof.Machine.execVddaDacFault s
  | .vddIo33Loss => Sys2Proof.Machine.execVddIo33Loss s
  | .aonSupplySwitch io18Good => Sys2Proof.Machine.execAonSupplySwitch io18Good s
  | .vddBatLoss => Sys2Proof.Machine.execVddBatLoss s
  | .pfwNAssert => Sys2Proof.Machine.execPfwNAssert s
  | .pfwNRelease => Sys2Proof.Machine.execPfwNRelease s
  | .fullLoadStart => Sys2Proof.Machine.execFullLoadStart s
  | .assetStoreWaitEnd => Sys2Proof.Machine.execAssetStoreWaitEnd s
  | .hostReadyWaitEnd => Sys2Proof.Machine.execHostReadyWaitEnd s
  | .peStageReady p => Sys2Proof.Machine.execPeStageReady p s
  | .loadPass1End image => Sys2Proof.Machine.execLoadPass1End image s
  | .sourceReadError => Sys2Proof.Machine.execSourceReadError s
  | .lp5xTrained mts rawGib => Sys2Proof.Machine.execLp5xTrained mts rawGib s
  | .lp5xZeroFillEnd => Sys2Proof.Machine.execLp5xZeroFillEnd s
  | .loadPass2End image assets => Sys2Proof.Machine.execLoadPass2End image assets s
  | .synthLocked p => Sys2Proof.Machine.execSynthLocked p s
  | .stageStart st => Sys2Proof.Machine.execStageStart st s
  | .health w tj => Sys2Proof.Machine.execHealth w tj s
  | .loadStage w => Sys2Proof.Machine.execLoadStage w s
  | .stageStop st => Sys2Proof.Machine.execStageStop st s
  | .unloadStage w => Sys2Proof.Machine.execUnloadStage w s
  | .unloadStageEnd st => Sys2Proof.Machine.execUnloadStageEnd st s
  | .setMode w => Sys2Proof.Machine.execSetMode w s
  | .shed w => Sys2Proof.Machine.execShed w s
  | .repairStatus w => Sys2Proof.Machine.execRepairStatus w s
  | .updateSlot w image => Sys2Proof.Machine.execUpdateSlot w image s
  | .updateSlotEnd => Sys2Proof.Machine.execUpdateSlotEnd s
  | .ledgerStatus w => Sys2Proof.Machine.execLedgerStatus w s
  | .bindQuery w => Sys2Proof.Machine.execBindQuery w s
  | .badOpcode w => Sys2Proof.Machine.execBadOpcode w s
  | .mbClaim m claimants => Sys2Proof.Machine.execMbClaim m claimants s
  | .mbClaimLapse m => Sys2Proof.Machine.execMbClaimLapse m s
  | .mbDoorbell m t v => Sys2Proof.Machine.execMbDoorbell m t v s
  | .mbAck m t v => Sys2Proof.Machine.execMbAck m t v s
  | .mbRelease m t => Sys2Proof.Machine.execMbRelease m t s
  | .mbReleaseForce m ini => Sys2Proof.Machine.execMbReleaseForce m ini s
  | .irqSourceEvent src => Sys2Proof.Machine.execIrqSourceEvent src s
  | .moderationRelease src => Sys2Proof.Machine.execModerationRelease src s
  | .irqClaim t => Sys2Proof.Machine.execIrqClaim t s
  | .irqEoi t src => Sys2Proof.Machine.execIrqEoi t src s
  | .irqSwset ini n v => Sys2Proof.Machine.execIrqSwset ini n v s
  | .irqSwclr ini n v => Sys2Proof.Machine.execIrqSwclr ini n v s
  | .pipInterruptEntry core => Sys2Proof.Machine.execPipInterruptEntry core s
  | .pipRetentionWake core => Sys2Proof.Machine.execPipRetentionWake core s
  | .addi x rd ra imm => Sys2Proof.Machine.execAddi x rd ra imm s
  | .andi x rd ra imm => Sys2Proof.Machine.execAndi x rd ra imm s
  | .ori x rd ra imm => Sys2Proof.Machine.execOri x rd ra imm s
  | .xori x rd ra imm => Sys2Proof.Machine.execXori x rd ra imm s
  | .slli x rd ra amt => Sys2Proof.Machine.execSlli x rd ra amt s
  | .srli x rd ra amt => Sys2Proof.Machine.execSrli x rd ra amt s
  | .srai x rd ra amt => Sys2Proof.Machine.execSrai x rd ra amt s
  | .roli x rd ra amt => Sys2Proof.Machine.execRoli x rd ra amt s
  | .movl x rd imm => Sys2Proof.Machine.execMovl x rd imm s
  | .movh x rd imm => Sys2Proof.Machine.execMovh x rd imm s
  | .add x rd ra rb => Sys2Proof.Machine.execAdd x rd ra rb s
  | .sub x rd ra rb => Sys2Proof.Machine.execSub x rd ra rb s
  | .and x rd ra rb => Sys2Proof.Machine.execAnd x rd ra rb s
  | .or x rd ra rb => Sys2Proof.Machine.execOr x rd ra rb s
  | .xor x rd ra rb => Sys2Proof.Machine.execXor x rd ra rb s
  | .andn x rd ra rb => Sys2Proof.Machine.execAndn x rd ra rb s
  | .orn x rd ra rb => Sys2Proof.Machine.execOrn x rd ra rb s
  | .xnor x rd ra rb => Sys2Proof.Machine.execXnor x rd ra rb s
  | .sll x rd ra rb => Sys2Proof.Machine.execSll x rd ra rb s
  | .srl x rd ra rb => Sys2Proof.Machine.execSrl x rd ra rb s
  | .sra x rd ra rb => Sys2Proof.Machine.execSra x rd ra rb s
  | .rol x rd ra rb => Sys2Proof.Machine.execRol x rd ra rb s
  | .min x rd ra rb => Sys2Proof.Machine.execMin x rd ra rb s
  | .max x rd ra rb => Sys2Proof.Machine.execMax x rd ra rb s
  | .minu x rd ra rb => Sys2Proof.Machine.execMinu x rd ra rb s
  | .maxu x rd ra rb => Sys2Proof.Machine.execMaxu x rd ra rb s
  | .adc x rd ra rb => Sys2Proof.Machine.execAdc x rd ra rb s
  | .sbc x rd ra rb => Sys2Proof.Machine.execSbc x rd ra rb s
  | .mul x rd ra rb => Sys2Proof.Machine.execMul x rd ra rb s
  | .mulh x rd ra rb => Sys2Proof.Machine.execMulh x rd ra rb s
  | .mulhu x rd ra rb => Sys2Proof.Machine.execMulhu x rd ra rb s
  | .mac x rd ra rb => Sys2Proof.Machine.execMac x rd ra rb s
  | .div x rd ra rb => Sys2Proof.Machine.execDiv x rd ra rb s
  | .divu x rd ra rb => Sys2Proof.Machine.execDivu x rd ra rb s
  | .rem x rd ra rb => Sys2Proof.Machine.execRem x rd ra rb s
  | .remu x rd ra rb => Sys2Proof.Machine.execRemu x rd ra rb s
  | .clz x rd ra => Sys2Proof.Machine.execClz x rd ra s
  | .popc x rd ra => Sys2Proof.Machine.execPopc x rd ra s
  | .brev x rd ra => Sys2Proof.Machine.execBrev x rd ra s
  | .bswap x rd ra => Sys2Proof.Machine.execBswap x rd ra s
  | .sextB x rd ra => Sys2Proof.Machine.execSextB x rd ra s
  | .sextH x rd ra => Sys2Proof.Machine.execSextH x rd ra s
  | .cmp x qd ra rb qe cc => Sys2Proof.Machine.execCmp x qd ra rb qe cc s
  | .cmpi x qd ra imm cc => Sys2Proof.Machine.execCmpi x qd ra imm cc s
  | .pand x qd qa qb => Sys2Proof.Machine.execPand x qd qa qb s
  | .por x qd qa qb => Sys2Proof.Machine.execPor x qd qa qb s
  | .pxor x qd qa qb => Sys2Proof.Machine.execPxor x qd qa qb s
  | .pandn x qd qa qb => Sys2Proof.Machine.execPandn x qd qa qb s
  | .pnot x qd qa => Sys2Proof.Machine.execPnot x qd qa s
  | .ldw x rd ra imm => Sys2Proof.Machine.execLdw x rd ra imm s
  | .ldh x rd ra imm => Sys2Proof.Machine.execLdh x rd ra imm s
  | .ldhu x rd ra imm => Sys2Proof.Machine.execLdhu x rd ra imm s
  | .ldb x rd ra imm => Sys2Proof.Machine.execLdb x rd ra imm s
  | .ldbu x rd ra imm => Sys2Proof.Machine.execLdbu x rd ra imm s
  | .stw x rd ra imm => Sys2Proof.Machine.execStw x rd ra imm s
  | .sth x rd ra imm => Sys2Proof.Machine.execSth x rd ra imm s
  | .stb x rd ra imm => Sys2Proof.Machine.execStb x rd ra imm s
  | .ldx x rd ra rb scale u size => Sys2Proof.Machine.execLdx x rd ra rb scale u size s
  | .stx x rd ra rb scale size => Sys2Proof.Machine.execStx x rd ra rb scale size s
  | .lda x rd unit upd u size => Sys2Proof.Machine.execLda x rd unit upd u size s
  | .sta x rd unit upd size => Sys2Proof.Machine.execSta x rd unit upd size s
  | .astep x unit => Sys2Proof.Machine.execAstep x unit s
  | .aswap x rd ra rb => Sys2Proof.Machine.execAswap x rd ra rb s
  | .aadd x rd ra rb => Sys2Proof.Machine.execAadd x rd ra rb s
  | .aor x rd ra rb => Sys2Proof.Machine.execAor x rd ra rb s
  | .aand x rd ra rb => Sys2Proof.Machine.execAand x rd ra rb s
  | .mfs x rd sr => Sys2Proof.Machine.execMfs x rd sr s
  | .mts x sr ra => Sys2Proof.Machine.execMts x sr ra s
  | .br x off => Sys2Proof.Machine.execBr x off s
  | .call x off => Sys2Proof.Machine.execCall x off s
  | .jr x ra => Sys2Proof.Machine.execJr x ra s
  | .jalr x rd ra => Sys2Proof.Machine.execJalr x rd ra s
  | .dbnz x gn off => Sys2Proof.Machine.execDbnz x gn off s
  | .dblc x off => Sys2Proof.Machine.execDblc x off s
  | .bCc x cond off => Sys2Proof.Machine.execBCc x cond off s
  | .rep x form n imm succ => Sys2Proof.Machine.execRep x form n imm succ s
  | .nop x => Sys2Proof.Machine.execNop x s
  | .brk x => Sys2Proof.Machine.execBreak x s
  | .syscall x => Sys2Proof.Machine.execSyscall x s
  | .rti x => Sys2Proof.Machine.execRti x s
  | .wait x => Sys2Proof.Machine.execWait x s
  | .waitWake core => Sys2Proof.Machine.execWaitWake core s
  | .isync x => Sys2Proof.Machine.execIsync x s
  | .fenceW x => Sys2Proof.Machine.execFenceW x s
  | .fenceWDrainEnd core => Sys2Proof.Machine.execFenceWDrainEnd core s
  | .cln x ra => Sys2Proof.Machine.execCln x ra s
  | .clinv x ra => Sys2Proof.Machine.execClinv x ra s
  | .inv x ra => Sys2Proof.Machine.execInv x ra s
  | .iinv x ra => Sys2Proof.Machine.execIinv x ra s
  | .undefinedInstruction x word => Sys2Proof.Machine.execUndefinedInstruction x word s
  | .pipLoadReturn core ue ce evict => Sys2Proof.Machine.execPipLoadReturn core ue ce evict s
  | .writeBufferDrain core ue => Sys2Proof.Machine.execWriteBufferDrain core ue s
  | .scrubRead word ce ue => Sys2Proof.Machine.execScrubRead word ce ue s
  | .lpxPowerDown => Sys2Proof.Machine.execLpxPowerDown s
  | .lpxSelfRefresh => Sys2Proof.Machine.execLpxSelfRefresh s
  | .lpxPowerExit => Sys2Proof.Machine.execLpxPowerExit s
  | .lineSamplePoint st ue => Sys2Proof.Machine.execLineSamplePoint st ue s
  | .layerLineComposed st l cycles => Sys2Proof.Machine.execLayerLineComposed st l cycles s
  | .spriteLineDrawn st p => Sys2Proof.Machine.execSpriteLineDrawn st p s
  | .segmentBoundary st late => Sys2Proof.Machine.execSegmentBoundary st late s
  | .latchInstant st => Sys2Proof.Machine.execLatchInstant st s
  | .frameBoundary st => Sys2Proof.Machine.execFrameBoundary st s
  | .holdEnd st => Sys2Proof.Machine.execHoldEnd st s
  | .timCommit st => Sys2Proof.Machine.execTimCommit st s
  | .timRevert st => Sys2Proof.Machine.execTimRevert st s
  | .linkLoss p => Sys2Proof.Machine.execLinkLoss p s
  | .linkTrainingEnd p ok => Sys2Proof.Machine.execLinkTrainingEnd p ok s
  | .tmdsPllLock p => Sys2Proof.Machine.execTmdsPllLock p s
  | .hpdChange p level => Sys2Proof.Machine.execHpdChange p level s
  | .edidRead p v => Sys2Proof.Machine.execEdidRead p v s
  | .edidReadEnd p data => Sys2Proof.Machine.execEdidReadEnd p data s
  | .prismFlipArm st k v => Sys2Proof.Machine.execPrismFlipArm st k v s
  | .prismFlipCancel st k v => Sys2Proof.Machine.execPrismFlipCancel st k v s
  | .fence ini st f v => Sys2Proof.Machine.execFence ini st f v s
  | .fenceAdd ini st f v => Sys2Proof.Machine.execFenceAdd ini st f v s
  | .chordProgramStart st ueWord => Sys2Proof.Machine.execChordProgramStart st ueWord s
  | .chordEnd st => Sys2Proof.Machine.execChordEnd st s
  | .chordWait st => Sys2Proof.Machine.execChordWait st s
  | .chordWaitDue st => Sys2Proof.Machine.execChordWaitDue st s
  | .chordWrite st => Sys2Proof.Machine.execChordWrite st s
  | .maskwrite st => Sys2Proof.Machine.execMaskwrite st s
  | .writeClass0 st => Sys2Proof.Machine.execWriteClass0 st s
  | .skipIf st => Sys2Proof.Machine.execSkipIf st s
  | .loop st => Sys2Proof.Machine.execLoop st s
  | .fenceSignal st => Sys2Proof.Machine.execFenceSignal st s
  | .chordIrq st => Sys2Proof.Machine.execChordIrq st s
  | .badOp st => Sys2Proof.Machine.execBadOp st s
  | .qiFilterAccept q level => Sys2Proof.Machine.execQiFilterAccept q level s
  | .reflexDelivery st => Sys2Proof.Machine.execReflexDelivery st s
  | .qiCfgWrite ini st q v => Sys2Proof.Machine.execQiCfgWrite ini st q v s
  | .sampleStrobe st => Sys2Proof.Machine.execSampleStrobe st s
  | .blockBoundary st late ue => Sys2Proof.Machine.execBlockBoundary st late ue s
  | .voiceClassStep st v => Sys2Proof.Machine.execVoiceClassStep st v s
  | .voiceFeed ini st v n => Sys2Proof.Machine.execVoiceFeed ini st v n s
  | .chanStart ini c => Sys2Proof.Machine.execChanStart ini c s
  | .chanAbort ini c => Sys2Proof.Machine.execChanAbort ini c s
  | .grpDoorbell ini g v => Sys2Proof.Machine.execGrpDoorbell ini g v s
  | .grpSync ini g v => Sys2Proof.Machine.execGrpSync ini g v s
  | .descriptorComplete c asset ue storeErr => Sys2Proof.Machine.execDescriptorComplete c asset ue storeErr s
  | .rootLinkUp p lbaBytes blocks pairs => Sys2Proof.Machine.execRootLinkUp p lbaBytes blocks pairs s
  | .nvmeCommandComplete d idx status => Sys2Proof.Machine.execNvmeCommandComplete d idx status s
  | .ledgerScanEnd d highest => Sys2Proof.Machine.execLedgerScanEnd d highest s
  | .ldgSubmit ini g len => Sys2Proof.Machine.execLdgSubmit ini g len s
  | .pressStart st => Sys2Proof.Machine.execPressStart st s
  | .pressAbort st => Sys2Proof.Machine.execPressAbort st s
  | .pressRowDone st ue => Sys2Proof.Machine.execPressRowDone st ue s
  | .pressWm st v => Sys2Proof.Machine.execPressWm st v s
  | .pressComplete st => Sys2Proof.Machine.execPressComplete st s
  | .pressBurstDeadEnd st => Sys2Proof.Machine.execPressBurstDeadEnd st s
  | .tcArm ini k => Sys2Proof.Machine.execTcArm ini k s
  | .tcStop ini k => Sys2Proof.Machine.execTcStop ini k s
  | .tcTick k => Sys2Proof.Machine.execTcTick k s
  | .tcEnd k => Sys2Proof.Machine.execTcEnd k s
  | .tcLinkEvent k => Sys2Proof.Machine.execTcLinkEvent k s
  | .tcCmpWrite ini k j v => Sys2Proof.Machine.execTcCmpWrite ini k j v s
  | .tcCapture k level => Sys2Proof.Machine.execTcCapture k level s
  | .tcCapcfgWrite ini k v => Sys2Proof.Machine.execTcCapcfgWrite ini k v s
  | .tallySet ini lo => Sys2Proof.Machine.execTallySet ini lo s
  | .tallyAlarm => Sys2Proof.Machine.execTallyAlarm s
  | .unitFaultDetect sector kind unit detector => Sys2Proof.Machine.execUnitFaultDetect sector kind unit detector s
  | .secRepair sector v => Sys2Proof.Machine.execSecRepair sector v s
  | .repairLoadComplete sector ue => Sys2Proof.Machine.execRepairLoadComplete sector ue s
  | .shedPerPolicy st kind lindex => Sys2Proof.Machine.execShedPerPolicy st kind lindex s
  | .mirrorBufferDrain sector => Sys2Proof.Machine.execMirrorBufferDrain sector s
  | .pipCkptTake core => Sys2Proof.Machine.execPipCkptTake core s
  | .checkpointComplete core => Sys2Proof.Machine.execCheckpointComplete core s
  | .keeperHb w => Sys2Proof.Machine.execKeeperHb w s
  | .wardenLost w => Sys2Proof.Machine.execWardenLost w s
  | .faultPin v => Sys2Proof.Machine.execFaultPin v s
  | .entryStepComplete => Sys2Proof.Machine.execEntryStepComplete s
  | .wakeEvent src detail => Sys2Proof.Machine.execWakeEvent src detail s
  | .wakeSequenceEnd => Sys2Proof.Machine.execWakeSequenceEnd s
  | .deepWake lprc => Sys2Proof.Machine.execDeepWake lprc s
  | .spokeReply b frame stopsValid => Sys2Proof.Machine.execSpokeReply b frame stopsValid s
  | .spokeTimeout b => Sys2Proof.Machine.execSpokeTimeout b s
  | .spkBcast b v => Sys2Proof.Machine.execSpkBcast b v s
  | .usbPortReset p => Sys2Proof.Machine.execUsbPortReset p s
  | .usbPortResume p => Sys2Proof.Machine.execUsbPortResume p s
  | .usbPortEvent p kind level => Sys2Proof.Machine.execUsbPortEvent p kind level s
  | .pipeRecordEnd p ini code moved data => Sys2Proof.Machine.execPipeRecordEnd p ini code moved data s
  | .peLinkEvent p st aerUnc aerCor => Sys2Proof.Machine.execPeLinkEvent p st aerUnc aerCor s
  | .i2cStart n v => Sys2Proof.Machine.execI2cStart n v s
  | .i2cTransferEnd n nack arbLost data => Sys2Proof.Machine.execI2cTransferEnd n nack arbLost data s
  | .uartReceive b parityErr framing => Sys2Proof.Machine.execUartReceive b parityErr framing s
  | .spiStart v => Sys2Proof.Machine.execSpiStart v s
  | .spiCommandEnd data => Sys2Proof.Machine.execSpiCommandEnd data s
  | .jtagServiceRequest => Sys2Proof.Machine.execJtagServiceRequest s
  | .jtagDebugResponse sig => Sys2Proof.Machine.execJtagDebugResponse sig s
  | .fuseProgram which v => Sys2Proof.Machine.execFuseProgram which v s
  | .stageGo ini st v => Sys2Proof.Machine.execStageGo ini st v s
  | .registerWrite ini a v => Sys2Proof.Machine.execRegisterWrite ini a v s
  | .lprcCalibration cal => Sys2Proof.Machine.execLprcCalibration cal s
  | .vddBatLow low => Sys2Proof.Machine.execVddBatLow low s
  | .vddaDacReturn => Sys2Proof.Machine.execVddaDacReturn s
  | .vddIo33Return => Sys2Proof.Machine.execVddIo33Return s
  | .usbBusResetEnd p speed => Sys2Proof.Machine.execUsbBusResetEnd p speed s
  | .usbResumeEnd p => Sys2Proof.Machine.execUsbResumeEnd p s
  | .uartTxEmpty => Sys2Proof.Machine.execUartTxEmpty s
  | .hostBar2Access p off wr => Sys2Proof.Machine.execHostBar2Access p off wr s
  | .jtagBootRequest => Sys2Proof.Machine.execJtagBootRequest s
  | .jtagDebugChallenge nonce => Sys2Proof.Machine.execJtagDebugChallenge nonce s
  | .jtagExtest pins => Sys2Proof.Machine.execJtagExtest pins s

end Sys2Proof.Machine
end

