-- ==== Sys2Proof/Safety.lean ====
section
/-!
DEFINITION. The terms claims are stated in: which commands complete, when a Pip instruction executes, what an instruction
leaves alone, and which flags it sets.
-/

namespace Sys2Proof.Machine

/-- The command answers a next state. -/
def completes (c : Instr) (s : State) : Prop := ∃ t, exec c s = .next t

/-! ### When a Pip instruction executes -/

/-- A fetch by core `k` at `va` that misses brings its line: the line is in no store still buffered and holds no symbol error, and
`ue` reports none (R93, R281). -/
def Brings (s : State) (k : Nat) (va : Word) (ue : Bool) : Prop :=
  ue = false ∧ ∀ w a, s.translate k va = some (w, a) →
    (s.core k).buffered (a / 32 * 32) 32 = false ∧ s.damaged [(a / 32 * 32, 32)] = []

/-- The core of `x` is a Pip that may issue, and its instruction is fetched: no check fails, and its line is held or can be
brought (R274, R275, R281). -/
def Fetches (x : Issue) (s : State) : Prop :=
  x.core < 20 ∧ (s.core x.core).canIssue = true ∧ s.fetchCheck x.core (s.core x.core).pc = none ∧
  ((s.core x.core).hits (s.core x.core).pc = true ∨ Brings s x.core (s.core x.core).pc x.fetchUe)

/-- The instruction is fetched, its guard field is assigned in the mode of the core, and its guard is true (R258, R259). -/
def Issues (x : Issue) (s : State) : Prop :=
  Fetches x s ∧ (s.core x.core).guardUndef x.guard = false ∧ (s.core x.core).guardTrue x.guard = true

/-- What a compare compares, by its code (R265): eq, ne, lt, ge, ltu, geu, gt, le, gtu, leu, tst, ntst. -/
def comparison (a b : Word) : Nat → Option Bool
  | 0 => some (a = b) | 1 => some (a ≠ b) | 2 => some (a.toInt < b.toInt) | 3 => some (b.toInt ≤ a.toInt)
  | 4 => some (a.toNat < b.toNat) | 5 => some (b.toNat ≤ a.toNat) | 6 => some (b.toInt < a.toInt) | 7 => some (a.toInt ≤ b.toInt)
  | 8 => some (b.toNat < a.toNat) | 9 => some (a.toNat ≤ b.toNat) | 10 => some (a &&& b ≠ 0) | 11 => some (a &&& b = 0)
  | _ => none

/-! ### What an instruction leaves alone -/

/-- Everything but core `k` and the count of free values is as it was. -/
def OnlyCore (k : Nat) (s t : State) : Prop :=
  t = { s with cores := t.cores, nonce := t.nonce } ∧ ∀ j, j ≠ k → t.core j = s.core j

/-- Nothing of a core changes but its general registers, predicates, STATUS, PC, REPCNT, the counters, the cycles at which results
can be used, and what a fetch leaves behind. -/
def RegsOnly (c d : Core) : Prop :=
  d = { c with gpr := d.gpr, pred := d.pred, status := d.status, pc := d.pc, repcnt := d.repcnt, repNew := d.repNew
               cycle := d.cycle, retired := d.retired, late := d.late, icache := d.icache, fetchBuf := d.fetchBuf }

/-- `rd` holds `v` (0 if it is g0) and every other general register what it held (R253). -/
def Wrote (c d : Core) (rd : Reg) (v : Word) : Prop :=
  (d.g rd = if rd = 0 then 0 else v) ∧ ∀ r, r ≠ rd → d.g r = c.g r

/-- No general register changes. -/
def GprKept (c d : Core) : Prop := ∀ r, d.g r = c.g r

/-- The instruction retired: RETIRED counts it; PC goes to the next instruction, or stays while iterations of a `rep` are
left, of which REPCNT counts one (R255, R271). -/
def Retired (c d : Core) : Prop :=
  d.retired = c.retired + 1 ∧
  (if c.repcnt.toNat ≤ 1 then d.pc = c.pc + 4 ∧ d.repcnt = 0 else d.pc = c.pc ∧ d.repcnt = c.repcnt - 1)

/-- The branch retired to `target` (R269). -/
def Jumped (c d : Core) (target : Word) : Prop := d.retired = c.retired + 1 ∧ d.pc = target ∧ d.repcnt = c.repcnt

/-! ### Flags (R255, R263) -/

/-- In F-mode N and Z follow the result `r` and every other bit of STATUS stays; in P-mode STATUS stays. -/
def FlagsNZ (c d : Core) (r : Word) : Prop :=
  if c.fmode then
    bit d.status 31 = r.getLsbD 31 ∧ bit d.status 30 = decide (r = 0) ∧ ∀ i, i < 30 → bit d.status i = bit c.status i
  else d.status = c.status

/-- In F-mode N and Z follow the result `r`, C becomes `carry`, V becomes `ovf`, and every other bit of STATUS stays; in
P-mode STATUS stays. -/
def FlagsNZCV (c d : Core) (r : Word) (carry ovf : Bool) : Prop :=
  if c.fmode then
    bit d.status 31 = r.getLsbD 31 ∧ bit d.status 30 = decide (r = 0) ∧ bit d.status 29 = carry ∧ bit d.status 28 = ovf ∧
    ∀ i, i < 28 → bit d.status i = bit c.status i
  else d.status = c.status

/-- After a shift by `k`, in F-mode N and Z follow the result `r`, C becomes `out`, or stays when `k` is 0, and every other
bit of STATUS stays; in P-mode STATUS stays. -/
def FlagsShift (c d : Core) (r : Word) (k : Nat) (out : Bool) : Prop :=
  if c.fmode then
    bit d.status 31 = r.getLsbD 31 ∧ bit d.status 30 = decide (r = 0) ∧
    bit d.status 29 = (if k = 0 then bit c.status 29 else out) ∧ ∀ i, i < 29 → bit d.status i = bit c.status i
  else d.status = c.status

/-! ### What an instruction that completes leaves -/

/-- Core `d` is core `c` but for what every instruction changes: PC, REPCNT, RETIRED, CYCLE, the cycles at which results can be
used, and what its fetch leaves. -/
def Progressed (c d : Core) : Prop :=
  d = { c with pc := d.pc, repcnt := d.repcnt, repNew := d.repNew, cycle := d.cycle, retired := d.retired
               late := d.late, icache := d.icache, fetchBuf := d.fetchBuf }

/-- The instruction retired, and left its core as `c` but for what every instruction changes; nothing else changed. -/
def Ran (x : Issue) (s t : State) (c : Core) : Prop :=
  OnlyCore x.core s t ∧ Progressed c (t.core x.core) ∧ Retired (s.core x.core) (t.core x.core)

/-- The branch went to `target`, and left its core as `c` but for what every instruction changes; nothing else changed. -/
def Branched (x : Issue) (s t : State) (c : Core) (target : Word) : Prop :=
  OnlyCore x.core s t ∧ Progressed c (t.core x.core) ∧ Jumped (s.core x.core) (t.core x.core) target

/-- The address units of `d` are those of `c`, but that unit `upd`, if any, has taken its step (R268). -/
def Stepped (c d : Core) (upd : Option Nat) : Prop :=
  ∀ n, n < 4 → d.unit n = if upd = some n then { c.unit n with index := (c.unit n).next } else c.unit n

/-- A load completed with the value `v`: `rd`, the address unit, and nothing else. -/
def Loaded (x : Issue) (s t : State) (rd : Reg) (v : Word) (upd : Option Nat) : Prop :=
  Ran x s t { s.core x.core with gpr := (t.core x.core).gpr, au := (t.core x.core).au } ∧
  Wrote (s.core x.core) (t.core x.core) rd v ∧ Stepped (s.core x.core) (t.core x.core) upd

/-- The Pip address `va` of an access of `size` bytes by core `k` reaches device address `a` through the window `w`, aligned and
assigned, outside the seed. -/
def Reaches (s : State) (k : Nat) (va : Word) (size : Nat) (w : Window) (a : Nat) : Prop :=
  isSeed va = false ∧ va.toNat % size = 0 ∧ s.translate k va = some (w, a) ∧ s.assigned a = true

/-- A line of device address `a` that core `c` holds takes the `n` low bytes of `v` there in `d`, clean or dirty as it was; no other
line of its data cache changes (R33). -/
def Refreshed (c d : Core) (a n : Nat) (v : Word) : Prop :=
  (c.line a = none → d.dcache = c.dcache) ∧ (∀ b, b / 32 ≠ a / 32 → d.line b = c.line b) ∧
  ∀ l, c.line a = some l → ∃ l', d.line a = some l' ∧ l'.dirty = l.dirty ∧
    ∀ j, j < 32 → l'.bytes.getD j 0 =
      if a % 32 ≤ j ∧ j < a % 32 + n then v.extractLsb' (8 * (j - a % 32)) 8 else l.bytes.getD j 0

/-- Memory is as it was outside the `n` bytes from `a` on. -/
def MemKeptOutside (s t : State) (a n : Nat) : Prop := ∀ b, b < a ∨ a + n ≤ b → t.byte b = s.byte b

/-- The exception `code` with EADDR `eaddr` was entered by core `k` (R288-R290): the frame pushed, ECAUSE and EADDR written,
S set, PC at VBASE + 0x40 × CODE, and nothing else of the core changed but CYCLE and what the fetch leaves. -/
def Entered (k : Nat) (s t : State) (code : Nat) (eaddr : Word) (fetch write : Bool) : Prop :=
  let c := s.core k
  let d := t.core k
  OnlyCore k s t ∧
  d = { c with frames := d.frames, ecause := d.ecause, eaddr := d.eaddr, status := d.status, repcnt := d.repcnt
               repNew := d.repNew, pc := d.pc, cycle := d.cycle, icache := d.icache, fetchBuf := d.fetchBuf } ∧
  (∃ f, d.frames = f :: c.frames ∧ f.epc = c.pc ∧ f.repcnt = c.repcnt ∧
    (∀ i, i < 32 → bit f.estatus i = if 12 ≤ i ∧ i < 19 then c.pred.getLsbD (i - 11) else bit c.status i)) ∧
  d.ecause = BitVec.ofNat 32 (code + (if write then 2 ^ 30 else 0) + (if fetch then 2 ^ 31 else 0)) ∧ d.eaddr = eaddr ∧
  bit d.status 0 = true ∧ (∀ i, 0 < i → i < 32 → bit d.status i = bit c.status i) ∧
  d.repcnt = 0 ∧ d.pc = c.vbase + BitVec.ofNat 32 (0x40 * code)

/-- A register-group instruction with the result `v` in `rd`: the registers, the flags apart, and the frame. -/
def RegResult (x : Issue) (s t : State) (rd : Reg) (v : Word) : Prop :=
  OnlyCore x.core s t ∧ RegsOnly (s.core x.core) (t.core x.core) ∧ Wrote (s.core x.core) (t.core x.core) rd v ∧
  (t.core x.core).pred = (s.core x.core).pred ∧ Retired (s.core x.core) (t.core x.core)

/-! ### What a command of the block leaves -/

/-- Nothing but stage `i` changed. -/
def OnlyStage (i : Nat) (s t : State) : Prop := t = { s with stages := t.stages } ∧ ∀ j, j ≠ i → t.stage j = s.stage j

/-- No Chord write is under way, no BCAST is on a Spoke bus, and nothing of this FAB cycle waits for its end (log entries 22, 92). -/
def Quiet (s : State) : Prop :=
  (∀ b, b < 2 → (s.spk b).bcastEnd ≤ s.root) ∧
  ∀ i, i < 4 → let x := s.stage i
    x.chord.flight = [] ∧ x.chord.arrived = [] ∧ x.chord.others = [] ∧ x.chord.flips = [] ∧ x.cyc = {} ∧ x.beam.latchNow = false

/-- Nothing but stage `i` and the count of free values changed. -/
def OnlyStageFree (i : Nat) (s t : State) : Prop :=
  t = { s with stages := t.stages, nonce := t.nonce } ∧ ∀ j, j ≠ i → t.stage j = s.stage j

/-- What a reset to M1 and a fall to M0 lose (R41, R42, R407): memory, stages, units, router, mailboxes, channels, timers; and what
they keep: flash, fuses and the commands that wait. A source whose input is high then is pending (R301). -/
def Lost (s t : State) : Prop :=
  t.mem = [] ∧ t.errs = [] ∧ (∀ i, i < 4 → t.stage i = {}) ∧
  (∀ n, t.irq n = if (n = 403 ∧ s.store.pfw = true) ∨ (416 ≤ n ∧ t.qi.getLsbD (n - 416) = true)
    then { pending := true, events := 1, input := true } else {}) ∧ t.chans = [] ∧ t.mbox = Vector.replicate 24 {} ∧
  t.timers = Vector.replicate 32 {} ∧ t.lpx = {} ∧ t.load = {} ∧ t.flash = s.flash ∧ t.fuses = s.fuses ∧ t.pending = s.pending

/-- The registers after a reset (R391, R410): the journals if they are kept, else and elsewhere the reset values. -/
def RegsReset (s t : State) (journals : Bool) : Prop :=
  ∀ a, isSticky a = false → t.dreg a = if journals && isJournal a then s.dreg a else deviceDefault a

/-- The reset to M1 with sticky cause `cause` (R41, R71 step 1, R410): WA alone runs; the cause bit, the Tally and the count of
resets are in the sticky record, whose other words stay. -/
def Booted (s t : State) (cause : Nat) (journals : Bool) : Prop :=
  t.mode = .boot ∧ Lost s t ∧ (∀ k, k < 22 → t.core k = if k = 20 then { run := .running } else {}) ∧ RegsReset s t journals ∧
  (∀ j, j < 32 → bit (t.dreg 0x10007100) j = if j = cause then true else bit (s.dreg 0x10007100) j) ∧
  t.dreg 0x10007104 = t.tally.count.extractLsb' 0 32 ∧ t.dreg 0x10007108 = t.tally.count.extractLsb' 32 32 ∧
  t.dreg 0x1000710C = s.dreg 0x1000710C + 1 ∧ (∀ a, 0x10007110 ≤ a → a < 0x10007140 → t.dreg a = s.dreg a)

/-- A full load has taken the source `x` and begun pass 1 (R69, R71 step 3). -/
def Sourced (t : State) (x : Nat) : Prop :=
  t.load.busy = true ∧ t.load.source = x ∧ t.load.stage = 15 ∧ t.load.phase = 1 ∧ t.load.step = 3

/-- Nothing but the mailbox of Warden `w` changed. -/
def OnlyMail (w : Nat) (s t : State) : Prop := t = { s with mbox := t.mbox } ∧ ∀ m, m ≠ 20 + w → t.mb m = s.mb m

/-- Warden `w` acknowledged the command in its mailbox with `code` and the reply words `words` after word 0, which repeats that of
the request (R318-R320). -/
def Answered (w : Nat) (s t : State) (code : Nat) (words : List Word) : Prop :=
  t.mb (20 + w) = { s.mb (20 + w) with
    state := .done, result := BitVec.ofNat 32 (code * 2 ^ 16 + 1 + words.length), reply := (t.mb (20 + w)).reply } ∧
  vget 0 (t.mb (20 + w)).reply 0 = vget 0 (s.mb (20 + w)).msg 0 ∧
  ∀ k, k < words.length → vget 0 (t.mb (20 + w)).reply (k + 1) = words.getD k 0

/-- The active Warden `w` takes up a command of opcode `op` that the host sent, of `n` words whose fields are `masks`, with no mode
entry in progress (R318-R320, R396). -/
def HostAsks (w op n : Nat) (masks : List Word) (s : State) : Prop :=
  s.taken w = some op ∧ s.activeWarden = w ∧ s.senderOf w = .host ∧ s.badForm w n masks = false ∧ s.entering = false

end Sys2Proof.Machine
end

