-- ==== Sys2Proof/Certificates/Slice0/Obligations.lean ====
section
/-!
DEFINITION. The statements for the provers. Each is about the block as the rules of spec/ give it; a clause that rests on a choice of the
model names its log entry.
-/

open Sys2Proof Sys2Proof.Machine

/-! ### The block as a whole (spec/01_architecture.md, spec/02_pynal_images.md) -/

/-- The queue is the model's own (log entry 3): a step takes the command at the front and is that command's effect on the state
with the rest of the queue. On an empty queue one FAB cycle passes (log entry 22): while no Chord write is under way, no
broadcast is on a Spoke bus and nothing waits for the end of the cycle, nothing changes but the clocks, the Tally and the note
of this cycle's PFW_N (R26, R345, R372), and those stand while the crystal does or the LPRC counts. -/
def Obligations.StepTakesTheFrontCommand : Prop :=
  (∀ (c : Instr) (r : List Instr) (s : State), s.pending = c :: r → step s = exec c { s with pending := r }) ∧
  (∀ s : State, s.pending = [] → Quiet s → (∀ g, g < 4 → ∀ e ∈ s.ringsOf g, e.2.sync = false) →
    let r := s.root + if s.slow then 4 else 2
    let fab : Bool := s.mode.fabRuns || s.power.step == 6
    step s = .next (if s.tally.lprc = true ∨ s.power.xtal = false then s else
      { s with
        root := r, fab := if fab then s.fab + 1 else s.fab
        store := if fab then { s.store with pfwNow := false } else s.store
        tally := { s.tally with count := s.tally.count + BitVec.ofNat 64 (r / 100 - s.root / 100) } }))

/-- The queue is the model's own (log entry 3): no command changes it, so the commands are served in the order in which they
stand, each once. -/
def Obligations.CommandsAreServedInOrder : Prop :=
  ∀ (c : Instr) (r : List Instr) (s t : State), s.pending = c :: r → step s = .next t → t.pending = r

/-- Memory stays a table of rising addresses that lists no byte that reads as an unlisted one does: every step keeps that form,
from every state that has it. The form is the model's own (log entry 2). -/
def Obligations.EveryStepKeepsMemoryCanonical : Prop :=
  ∀ s t : State, Memory.wf s.mem = true → step s = .next t → Memory.wf t.mem = true

/-- R64: fuses are programmed only in SERVICE, over JTAG, and what is programmed stays; KEY_HASH and IMAGE_KEY take one
operation of all 256 bits each, and a second is refused. -/
def Obligations.ProgrammedFusesStay : Prop :=
  (∀ s t : State, step s = .next t →
    (s.fuses.secure = true → t.fuses.secure = true) ∧ (∀ h, s.fuses.keyHash = some h → t.fuses.keyHash = some h) ∧
    (∀ h, s.fuses.imageKey = some h → t.fuses.imageKey = some h) ∧
    (t.fuses ≠ s.fuses → s.mode = .service ∧ s.debugOpen = true ∧ ∃ which v, s.pending.head? = some (.fuseProgram which v))) ∧
  (∀ (v : BitVec 256) (s : State),
    (s.mode = .service → s.debugOpen = true →
      exec (.fuseProgram 0 v) s = .next { s with fuses := { s.fuses with secure := s.fuses.secure || v.getLsbD 0 } } ∧
      (s.fuses.keyHash = none → exec (.fuseProgram 1 v) s = .next { s with fuses := { s.fuses with keyHash := some v } }) ∧
      (s.fuses.imageKey = none → exec (.fuseProgram 2 v) s = .next { s with fuses := { s.fuses with imageKey := some v } })) ∧
    (s.fuses.keyHash ≠ none → exec (.fuseProgram 1 v) s = .next s) ∧ (s.fuses.imageKey ≠ none → exec (.fuseProgram 2 v) s = .next s))

/-- Every command answers a next state, in every state, but a register write by a Warden or a debugger to an address that R36
leaves unassigned (log entry 6), which stops with that fault; nothing is refused. -/
def Obligations.OnlyUnassignedWritesStop : Prop :=
  (∀ (c : Instr) (s : State),
    (∀ i a v, c = .registerWrite i a v → s.assigned (a / 4 * 4) = true ∨ ((∀ w, i ≠ .warden w) ∧ i ≠ .debug)) →
    ∃ t, exec c s = .next t) ∧
  ∀ s : State, (∃ t, step s = .next t) ∨
    (step s = .fault .unassignedAddress ∧ ∃ i a v, s.pending.head? = some (.registerWrite i a v) ∧ s.assigned (a / 4 * 4) = false ∧
      ((∃ w, i = .warden w) ∨ i = .debug))

/-- R40, R41, R71, R314, R315: right after the release of RESET_N the device is in M1, WA alone runs, every stage slot is empty,
every mailbox is IDLE, no source is pending or in service, every register of the map has its Reset value, no Vine channel runs,
and memory reads 0, no word of it damaged. The reset values the spec does not give are the model's (log entries 1, 2 and 150).
-/
def Obligations.ResetState : Prop :=
  let s := State.reset
  s.mode = .boot ∧ s.pending = [] ∧ s.errs = [] ∧ Memory.wf s.mem = true ∧ (∀ a, s.byte a = 0) ∧
  (∀ k, k < 22 → (s.core k).run = if k = 20 then .running else .stopped) ∧
  (∀ i, i < 4 → (s.stage i).phase = .empty ∧ (s.stage i).segs = [] ∧ ∀ b, ((s.stage i).bind b).bound = false) ∧
  (∀ m, m < 24 → (s.mb m).state = .idle ∧ (s.mb m).err = 0) ∧
  (∀ n, (s.irq n).pending = false ∧ (s.irq n).active = false ∧ (s.irq n).accTgt = 31) ∧
  (∀ a row, deviceRow a = some row → s.dreg a = row.reset) ∧ (∀ c, (s.chan c).run = false)

/-! ### Pip instructions: the register groups (spec/10_pip_isa.md) -/

/-- R262, R263: the register-register operations that set N and Z alone, with their results and frames. R262: division never
traps; a divisor of 0 gives a quotient of all ones and a remainder equal to ra; −2^31 / −1 gives −2^31 and a remainder of 0;
otherwise the quotient is rounded toward zero and the remainder has the sign of ra. -/
def Obligations.RegisterGroupResults : Prop :=
  (
  ∀ p ∈ ([ (.and, fun a b => a &&& b), (.or, fun a b => a ||| b), (.xor, fun a b => a ^^^ b),
           (.andn, fun a b => a &&& ~~~b), (.orn, fun a b => a ||| ~~~b), (.xnor, fun a b => ~~~(a ^^^ b)),
           (.rol, fun a b => a.rotateLeft (b.toNat % 32)),
           (.min, fun a b => if a.slt b then a else b), (.max, fun a b => if a.slt b then b else a),
           (.minu, fun a b => if a.ult b then a else b), (.maxu, fun a b => if a.ult b then b else a),
           (.mul, fun a b => a * b), (.mulh, fun a b => BitVec.ofInt 32 (a.toInt * b.toInt / 2 ^ 32)),
           (.mulhu, fun a b => BitVec.ofNat 32 (a.toNat * b.toNat / 2 ^ 32)) ]
        : List ((Issue → Reg → Reg → Reg → Instr) × (Word → Word → Word))),
    ∀ (x : Issue) (rd ra rb : Reg) (s : State), Issues x s →
      ∃ t, exec (p.1 x rd ra rb) s = .next t ∧
        RegResult x s t rd (p.2 ((s.core x.core).g ra) ((s.core x.core).g rb)) ∧
        FlagsNZ (s.core x.core) (t.core x.core) (p.2 ((s.core x.core).g ra) ((s.core x.core).g rb))) ∧
  (
  ∀ p ∈ ([ (.div, fun a b => if b = 0 then 0xFFFFFFFF
             else if a = 0x80000000 ∧ b = 0xFFFFFFFF then 0x80000000 else BitVec.ofInt 32 (a.toInt.tdiv b.toInt)),
           (.divu, fun a b => if b = 0 then 0xFFFFFFFF else BitVec.ofNat 32 (a.toNat / b.toNat)),
           (.rem, fun a b => if b = 0 then a
             else if a = 0x80000000 ∧ b = 0xFFFFFFFF then 0 else BitVec.ofInt 32 (a.toInt.tmod b.toInt)),
           (.remu, fun a b => if b = 0 then a else BitVec.ofNat 32 (a.toNat % b.toNat)) ]
        : List ((Issue → Reg → Reg → Reg → Instr) × (Word → Word → Word))),
    ∀ (x : Issue) (rd ra rb : Reg) (s : State), Issues x s →
      ∃ t, exec (p.1 x rd ra rb) s = .next t ∧
        RegResult x s t rd (p.2 ((s.core x.core).g ra) ((s.core x.core).g rb)) ∧
        FlagsNZ (s.core x.core) (t.core x.core) (p.2 ((s.core x.core).g ra) ((s.core x.core).g rb)))

/-- R262, R263, R259: the additions and subtractions, with carry and overflow; `adc` and `sbc` in F-mode. R260, R262, R263: the
immediate logic operations, the moves and `mac`; the moves set no flag. -/
def Obligations.SumsImmediatesAndMoves : Prop :=
  (
  ∀ (x : Issue) (rd ra rb : Reg) (imm : BitVec 12) (s : State), Issues x s →
    let c := s.core x.core
    let a := c.g ra
    let b := c.g rb
    let i : Word := imm.signExtend 32
    let k := c.carry.toNat
    (∃ t, exec (.add x rd ra rb) s = .next t ∧ RegResult x s t rd (a + b) ∧
      FlagsNZCV c (t.core x.core) (a + b) (decide (2 ^ 32 ≤ a.toNat + b.toNat)) (decide ((a + b).toInt ≠ a.toInt + b.toInt))) ∧
    (∃ t, exec (.addi x rd ra imm) s = .next t ∧ RegResult x s t rd (a + i) ∧
      FlagsNZCV c (t.core x.core) (a + i) (decide (2 ^ 32 ≤ a.toNat + i.toNat)) (decide ((a + i).toInt ≠ a.toInt + i.toInt))) ∧
    (∃ t, exec (.sub x rd ra rb) s = .next t ∧ RegResult x s t rd (a - b) ∧
      FlagsNZCV c (t.core x.core) (a - b) (decide (b.toNat ≤ a.toNat)) (decide ((a - b).toInt ≠ a.toInt - b.toInt))) ∧
    (c.fmode = true →
      (∃ t, exec (.adc x rd ra rb) s = .next t ∧ RegResult x s t rd (a + b + BitVec.ofNat 32 k) ∧
        FlagsNZCV c (t.core x.core) (a + b + BitVec.ofNat 32 k) (decide (2 ^ 32 ≤ a.toNat + b.toNat + k))
          (decide ((a + b + BitVec.ofNat 32 k).toInt ≠ a.toInt + b.toInt + k))) ∧
      (∃ t, exec (.sbc x rd ra rb) s = .next t ∧ RegResult x s t rd (a - b - BitVec.ofNat 32 (1 - k)) ∧
        FlagsNZCV c (t.core x.core) (a - b - BitVec.ofNat 32 (1 - k)) (decide (b.toNat + (1 - k) ≤ a.toNat))
          (decide ((a - b - BitVec.ofNat 32 (1 - k)).toInt ≠ a.toInt - b.toInt - (1 - k : Int)))))) ∧
  (
  ∀ (x : Issue) (rd ra rb : Reg) (imm : BitVec 12) (wide : BitVec 16) (s : State), Issues x s →
    let c := s.core x.core
    let i : Word := imm.zeroExtend 32
    (∃ t, exec (.andi x rd ra imm) s = .next t ∧ RegResult x s t rd (c.g ra &&& i) ∧ FlagsNZ c (t.core x.core) (c.g ra &&& i)) ∧
    (∃ t, exec (.ori x rd ra imm) s = .next t ∧ RegResult x s t rd (c.g ra ||| i) ∧ FlagsNZ c (t.core x.core) (c.g ra ||| i)) ∧
    (∃ t, exec (.xori x rd ra imm) s = .next t ∧ RegResult x s t rd (c.g ra ^^^ i) ∧ FlagsNZ c (t.core x.core) (c.g ra ^^^ i)) ∧
    (∃ t, exec (.mac x rd ra rb) s = .next t ∧ RegResult x s t rd (c.g rd + c.g ra * c.g rb) ∧
      FlagsNZ c (t.core x.core) (c.g rd + c.g ra * c.g rb)) ∧
    (∃ t, exec (.movl x rd wide) s = .next t ∧ RegResult x s t rd (wide.zeroExtend 32) ∧
      (t.core x.core).status = c.status) ∧
    (∃ t, exec (.movh x rd wide) s = .next t ∧ RegResult x s t rd (wide ++ (c.g rd).extractLsb' 0 16 : BitVec 32) ∧
      (t.core x.core).status = c.status))

/-- R262, R263: the shifts use the low 5 bits of their amount; C is the last bit shifted out and stays after a shift by 0; the
rotates leave C alone. R262: what the one-operand operations compute, said of the bits of ra. -/
def Obligations.ShiftsAndBitCounts : Prop :=
  (
  ∀ (x : Issue) (rd ra rb : Reg) (amt : BitVec 5) (s : State), Issues x s →
    let c := s.core x.core
    let a := c.g ra
    let k := (c.g rb).toNat % 32
    let n := amt.toNat
    (∃ t, exec (.sll x rd ra rb) s = .next t ∧ RegResult x s t rd (a <<< k) ∧
      FlagsShift c (t.core x.core) (a <<< k) k (a.getLsbD (32 - k))) ∧
    (∃ t, exec (.srl x rd ra rb) s = .next t ∧ RegResult x s t rd (a >>> k) ∧
      FlagsShift c (t.core x.core) (a >>> k) k (a.getLsbD (k - 1))) ∧
    (∃ t, exec (.sra x rd ra rb) s = .next t ∧ RegResult x s t rd (a.sshiftRight k) ∧
      FlagsShift c (t.core x.core) (a.sshiftRight k) k (a.getLsbD (k - 1))) ∧
    (∃ t, exec (.slli x rd ra amt) s = .next t ∧ RegResult x s t rd (a <<< n) ∧
      FlagsShift c (t.core x.core) (a <<< n) n (a.getLsbD (32 - n))) ∧
    (∃ t, exec (.srli x rd ra amt) s = .next t ∧ RegResult x s t rd (a >>> n) ∧
      FlagsShift c (t.core x.core) (a >>> n) n (a.getLsbD (n - 1))) ∧
    (∃ t, exec (.srai x rd ra amt) s = .next t ∧ RegResult x s t rd (a.sshiftRight n) ∧
      FlagsShift c (t.core x.core) (a.sshiftRight n) n (a.getLsbD (n - 1))) ∧
    (∃ t, exec (.roli x rd ra amt) s = .next t ∧ RegResult x s t rd (a.rotateLeft n) ∧
      FlagsNZ c (t.core x.core) (a.rotateLeft n))) ∧
  (
  ∀ p ∈ ([ (.clz, fun a r => r.toNat ≤ 32 ∧ (∀ i, i < r.toNat → a.getLsbD (31 - i) = false) ∧
             (r.toNat < 32 → a.getLsbD (31 - r.toNat) = true)),
           (.popc, fun a r => r.toNat = (List.range 32).countP fun i => a.getLsbD i),
           (.brev, fun a r => ∀ i, i < 32 → r.getLsbD i = a.getLsbD (31 - i)),
           (.bswap, fun a r => ∀ i, i < 32 → r.getLsbD i = a.getLsbD (24 - i / 8 * 8 + i % 8)),
           (.sextB, fun a r => r.toInt = (a.extractLsb' 0 8).toInt),
           (.sextH, fun a r => r.toInt = (a.extractLsb' 0 16).toInt) ]
        : List ((Issue → Reg → Reg → Instr) × (Word → Word → Prop))),
    ∀ (x : Issue) (rd ra : Reg) (s : State), Issues x s →
      ∃ t r, exec (p.1 x rd ra) s = .next t ∧ p.2 ((s.core x.core).g ra) r ∧ RegResult x s t rd r ∧
        FlagsNZ (s.core x.core) (t.core x.core) r)

/-! ### Pip instructions: predicates, memory, special registers, branches (spec/10_pip_isa.md, spec/11_pip_execution.md) -/

/-- R265: the compares write qd, and a register compare also qe, with the inverse, last; the predicate operations write qd. A
write to q0 is discarded. -/
def Obligations.ComparesAndPredicates : Prop :=
  ∀ (x : Issue) (s : State), Issues x s →
    let c := s.core x.core
    (∀ (qd qe : BitVec 3) (ra rb : Reg) (cc : BitVec 4) (b : Bool), comparison (c.g ra) (c.g rb) cc.toNat = some b →
      ∃ t, exec (.cmp x qd ra rb qe cc) s = .next t ∧ Ran x s t { c with pred := (t.core x.core).pred } ∧
        ∀ i, (t.core x.core).q i = if i = 0 then true else if i = qe then !b else if i = qd then b else c.q i) ∧
    (∀ (qd cc : BitVec 3) (ra : Reg) (imm : BitVec 12) (b : Bool), comparison (c.g ra) (imm.signExtend 32) cc.toNat = some b →
      ∃ t, exec (.cmpi x qd ra imm cc) s = .next t ∧ Ran x s t { c with pred := (t.core x.core).pred } ∧
        ∀ i, (t.core x.core).q i = if i = 0 then true else if i = qd then b else c.q i) ∧
    (∀ p ∈ ([ (.pand, fun a b => a && b), (.por, fun a b => a || b), (.pxor, fun a b => a != b),
             (.pandn, fun a b => a && !b), (fun x qd qa _ => .pnot x qd qa, fun a _ => !a) ]
          : List ((Issue → BitVec 3 → BitVec 3 → BitVec 3 → Instr) × (Bool → Bool → Bool))),
      ∀ qd qa qb : BitVec 3,
        ∃ t, exec (p.1 x qd qa qb) s = .next t ∧ Ran x s t { c with pred := (t.core x.core).pred } ∧
          ∀ i, (t.core x.core).q i = if i = 0 then true else if i = qd then p.2 (c.q qa) (c.q qb) else c.q i)

/-- R266, R268, R277: an aligned load from the seed writes its bytes, extended, to rd at once, checks no window, and changes
nothing but an address unit it names for its step. R33, R79, R276, R279-R281: a load outside the seed that no line of the data
cache serves holds issue until its data returns, and changes nothing else; one of a cached line that no buffered store overlaps
completes at once with the bytes of the line. When the data returns with no symbol error, the load completes: an uncached one
with the bytes of memory, under those that the core holds dirty, a fill with the bytes of memory, whose line is then in the data
cache. -/
def Obligations.LoadsReadTheirBytes : Prop :=
  (
  ∀ (x : Issue) (s : State), Issues x s →
    let c := s.core x.core
    let h (v : Nat) : BitVec 16 := BitVec.ofNat 16 v
    let b (v : Nat) : BitVec 8 := BitVec.ofNat 8 v
    let ext (u : Bool) (size : BitVec 2) (v : Nat) : Word :=
      if size = 2 then BitVec.ofNat 32 v
      else if size = 1 then (if u then (h v).zeroExtend 32 else (h v).signExtend 32)
      else if u then (b v).zeroExtend 32 else (b v).signExtend 32
    (∀ p ∈ ([ (.ldw, 4, fun v => BitVec.ofNat 32 v), (.ldh, 2, fun v => (h v).signExtend 32), (.ldhu, 2, fun v => (h v).zeroExtend 32),
             (.ldb, 1, fun v => (b v).signExtend 32), (.ldbu, 1, fun v => (b v).zeroExtend 32) ]
          : List ((Issue → Reg → Reg → BitVec 12 → Instr) × Nat × (Nat → Word))),
      ∀ (rd ra : Reg) (imm : BitVec 12), let va := c.g ra + imm.signExtend 32
        isSeed va = true → va.toNat % p.2.1 = 0 →
        ∃ t, exec (p.1 x rd ra imm) s = .next t ∧ Loaded x s t rd (p.2.2 (c.seedRead va p.2.1)) none) ∧
    (∀ (rd ra rb : Reg) (scale size : BitVec 2) (u : Bool), size ≠ 3 → (u = true → size ≠ 2) →
      let va := c.g ra + (c.g rb <<< scale.toNat)
      isSeed va = true → va.toNat % 2 ^ size.toNat = 0 →
      ∃ t, exec (.ldx x rd ra rb scale u size) s = .next t ∧ Loaded x s t rd (ext u size (c.seedRead va (2 ^ size.toNat))) none) ∧
    (∀ (rd : Reg) (unit size : BitVec 2) (upd u : Bool), size ≠ 3 → (u = true → size ≠ 2) →
      let va := (c.unit unit.toNat).base + (c.unit unit.toNat).index * BitVec.ofNat 32 (2 ^ size.toNat)
      isSeed va = true → va.toNat % 2 ^ size.toNat = 0 →
      ∃ t, exec (.lda x rd unit upd u size) s = .next t ∧
        Loaded x s t rd (ext u size (c.seedRead va (2 ^ size.toNat))) (if upd then some unit.toNat else none))) ∧
  (
  (∀ p ∈ ([ (.ldw, 4, false), (.ldh, 2, true), (.ldhu, 2, false), (.ldb, 1, true), (.ldbu, 1, false) ]
        : List ((Issue → Reg → Reg → BitVec 12 → Instr) × Nat × Bool)),
    ∀ (x : Issue) (s : State) (rd ra : Reg) (imm : BitVec 12) (w : Window) (a : Nat), Issues x s →
      let c := s.core x.core
      let va := c.g ra + imm.signExtend 32
      Reaches s x.core va p.2.1 w a → w.r = true →
      ((s.cached w a = true → c.line a = none) →
        ∃ t, exec (p.1 x rd ra imm) s = .next t ∧ OnlyCore x.core s t ∧ (t.core x.core).pc = c.pc ∧
          (t.core x.core).repcnt = c.repcnt ∧ (t.core x.core).retired = c.retired ∧
          Progressed { c with pend := some { va := va, pa := a, rd := rd.toNat, size := p.2.1, signed := p.2.2, fill := s.cached w a } }
            (t.core x.core)) ∧
      (∀ l, s.cached w a = true → c.line a = some l → c.buffered a p.2.1 = false →
        ∃ t, exec (p.1 x rd ra imm) s = .next t ∧
          Loaded x s t rd (extend (leNat ((List.range p.2.1).map fun j => (l.bytes.drop (a % 32)).getD j 0)) p.2.1 p.2.2) none)) ∧
  (∀ (core : Nat) (s : State) (q : PendLoad), core < 20 → (s.core core).pend = some q →
    (s.core core).run = .running → q.rd < 32 → s.isMem q.pa = true → s.heldAt q.pa = false →
    let c := s.core core
    let own (j : Nat) : Byte := match c.line q.pa with
      | some l => if l.dirty.getLsbD (q.pa % 32 + j) = true then l.bytes.getD (q.pa % 32 + j) 0 else s.byte (q.pa + j)
      | none => s.byte (q.pa + j)
    let returned (t : State) (d : Core) (v : Nat) : Prop := t = { s with cores := t.cores, nonce := t.nonce } ∧
      (∀ j, j ≠ core → t.core j = s.core j) ∧ Progressed d (t.core core) ∧
      Retired c (t.core core) ∧ Stepped c (t.core core) q.upd ∧ Wrote c (t.core core) (BitVec.ofNat 5 q.rd) (extend v q.size q.signed)
    (q.fill = false → c.buffered q.pa q.size = false → s.damaged [(q.pa, q.size)] = [] → ∀ evict,
      ∃ t, exec (.pipLoadReturn core false false evict) s = .next t ∧
        returned t { c with gpr := (t.core core).gpr, au := (t.core core).au, pend := none } (leNat ((List.range q.size).map own))) ∧
    (q.fill = true → q.data = none → q.pa % 32 + q.size ≤ 32 → c.buffered (q.pa / 32 * 32) 32 = false →
      s.damaged [(q.pa / 32 * 32, 32)] = [] →
      ∃ t, exec (.pipLoadReturn core false false none) s = .next t ∧
        returned t { c with gpr := (t.core core).gpr, au := (t.core core).au, pend := none, dcache := (t.core core).dcache }
          (s.le q.pa q.size) ∧
        (t.core core).line q.pa = some { bytes := s.bytes (q.pa / 32 * 32) 32, dirty := 0 })))

/-- R266, R268, R277: an aligned store to the seed writes the low bytes of rd there and changes nothing else but an address unit
it names for its step. R33, R281: an uncached store to memory leaves memory as it is and waits in the write buffer; a line of it
that the core holds takes its bytes. The drain of the oldest entry, whose word holds no symbol error, writes the bytes its mask
names, and no other byte of memory. -/
def Obligations.StoresWriteTheirBytes : Prop :=
  (
  ∀ (x : Issue) (s : State), Issues x s →
    let c := s.core x.core
    let stored (t : State) (va : Word) (n : Nat) (rd : Reg) (upd : Option Nat) : Prop :=
      Ran x s t { c with seed := (t.core x.core).seed, au := (t.core x.core).au } ∧ Stepped c (t.core x.core) upd ∧
      ∀ o, sget memDefault (t.core x.core).seed o =
        if va.toNat % 65536 ≤ o ∧ o < va.toNat % 65536 + n
        then (c.g rd).extractLsb' (8 * (o - va.toNat % 65536)) 8 else sget memDefault c.seed o
    (∀ p ∈ ([ (.stw, 4), (.sth, 2), (.stb, 1) ] : List ((Issue → Reg → Reg → BitVec 12 → Instr) × Nat)),
      ∀ (rd ra : Reg) (imm : BitVec 12), let va := c.g ra + imm.signExtend 32
        isSeed va = true → va.toNat % p.2 = 0 → ∃ t, exec (p.1 x rd ra imm) s = .next t ∧ stored t va p.2 rd none) ∧
    (∀ (rd ra rb : Reg) (scale size : BitVec 2), size ≠ 3 →
      let va := c.g ra + (c.g rb <<< scale.toNat)
      isSeed va = true → va.toNat % 2 ^ size.toNat = 0 →
      ∃ t, exec (.stx x rd ra rb scale size) s = .next t ∧ stored t va (2 ^ size.toNat) rd none) ∧
    (∀ (rd : Reg) (unit size : BitVec 2) (upd : Bool), size ≠ 3 →
      let va := (c.unit unit.toNat).base + (c.unit unit.toNat).index * BitVec.ofNat 32 (2 ^ size.toNat)
      isSeed va = true → va.toNat % 2 ^ size.toNat = 0 →
      ∃ t, exec (.sta x rd unit upd size) s = .next t ∧
        stored t va (2 ^ size.toNat) rd (if upd then some unit.toNat else none))) ∧
  (
  (∀ p ∈ ([ (.stw, 4), (.sth, 2), (.stb, 1) ] : List ((Issue → Reg → Reg → BitVec 12 → Instr) × Nat)),
    ∀ (x : Issue) (s : State) (rd ra : Reg) (imm : BitVec 12) (w : Window) (a : Nat), Issues x s →
      let c := s.core x.core
      let va := c.g ra + imm.signExtend 32
      Reaches s x.core va p.2 w a → a % p.2 = 0 → w.w = true → w.c = false → s.isMem a = true → c.wbuf.length < 8 →
      ∃ t, exec (p.1 x rd ra imm) s = .next t ∧
        Ran x s t { c with wbuf := (t.core x.core).wbuf, dcache := (t.core x.core).dcache } ∧
        Refreshed c (t.core x.core) a p.2 (c.g rd) ∧
        ∃ e, (t.core x.core).wbuf.getLast? = some e ∧ e.addr = a / 32 * 32 ∧ e.isReg = false ∧
          ∀ j, j < p.2 → e.mask.getLsbD (a % 32 + j) = true ∧ e.bytes.getD (a % 32 + j) 0 = (c.g rd).extractLsb' (8 * j) 8) ∧
  (∀ (core : Nat) (s : State) (e : WbEntry) (r : List WbEntry), core < 22 → (s.core core).wbuf = e :: r → e.isReg = false →
    s.damaged [(e.addr, 32)] = [] →
    ∃ t, exec (.writeBufferDrain core false) s = .next t ∧
      t = { s with cores := t.cores, mem := t.mem, stages := t.stages } ∧
      t.stages = (match s.initStage (.pip core) with | some i => s.watchMem i e.addr 32 | none => s).stages ∧
      (∀ j, j ≠ core → t.core j = s.core j) ∧ t.core core = { s.core core with wbuf := r } ∧
      ∀ b, t.byte b =
        if e.addr ≤ b ∧ b < e.addr + 32 ∧ e.mask.getLsbD (b - e.addr) = true then e.bytes.getD (b - e.addr) 0 else s.byte b))

/-- R268: `astep` writes the unit's INDEX by its MODE (3 acts as 0, R255) and nothing else. R33, R79, R267: an atomic returns
the old word in rd, as the core's own dirty bytes lie over memory, and leaves the new one in memory and in a line of it that the
core holds; no other byte of memory and no other register changes. The access waits while its word is in the write buffer; its
word holds no symbol error. -/
def Obligations.AddressUnitsAndAtomics : Prop :=
  (
  ∀ (x : Issue) (unit : BitVec 2) (s : State), Issues x s →
    let c := s.core x.core
    let u := c.unit unit.toNat
    let len : Int := (u.cfg.extractLsb' 0 16).toNat + 1
    let k := (u.cfg.extractLsb' 16 4).toNat + 1
    let mode := (u.cfg.extractLsb' 20 2).toNat
    ∃ t v, exec (.astep x unit) s = .next t ∧ Ran x s t { c with au := (t.core x.core).au } ∧
      (∀ n, n < 4 → (t.core x.core).unit n = if n = unit.toNat then { u with index := v } else c.unit n) ∧
      (mode ≠ 1 → mode ≠ 2 → v = u.index + u.step) ∧
      (mode = 1 → (v.toNat : Int) = (u.index.toNat + u.step.toInt).fmod len) ∧
      (mode = 2 → ∃ m : Nat, m < 2 ^ k ∧ (∀ i, i < k → m.testBit i = u.index.getLsbD (k - 1 - i)) ∧
        ∀ i, i < 32 → v.getLsbD i =
          if i < k then (((m : Int) + u.step.toInt).fmod (2 ^ k)).toNat.testBit (k - 1 - i) else false)) ∧
  (
  ∀ p ∈ ([ (.aswap, fun _ b => b), (.aadd, fun a b => a + b), (.aor, fun a b => a ||| b), (.aand, fun a b => a &&& b) ]
        : List ((Issue → Reg → Reg → Reg → Instr) × (Word → Word → Word))),
    ∀ (x : Issue) (rd ra rb : Reg) (s : State) (w : Window) (a : Nat), Issues x s → x.dataUe = false → s.damaged [(a, 4)] = [] →
      let c := s.core x.core
      let own (j : Nat) : Byte := match c.line a with
        | some l => if l.dirty.getLsbD (a % 32 + j) = true then l.bytes.getD (a % 32 + j) 0 else s.byte (a + j)
        | none => s.byte (a + j)
      let old : Word := BitVec.ofNat 32 (leNat ((List.range 4).map own))
      Reaches s x.core (c.g ra) 4 w a → w.r = true → w.w = true → w.c = false → s.isMem a = true → c.buffered a 4 = false →
      ∃ t, exec (p.1 x rd ra rb) s = .next t ∧
        t = { s with cores := t.cores, nonce := t.nonce, mem := t.mem, stages := t.stages } ∧
        t.stages = (match s.initStage (.pip x.core) with | some i => s.watchMem i a 4 | none => s).stages ∧
        (∀ j, j ≠ x.core → t.core j = s.core j) ∧
        Progressed { c with gpr := (t.core x.core).gpr, dcache := (t.core x.core).dcache } (t.core x.core) ∧
        Refreshed c (t.core x.core) a 4 (p.2 old (c.g rb)) ∧
        Retired c (t.core x.core) ∧ Wrote c (t.core x.core) rd old ∧
        t.le a 4 = (p.2 old (c.g rb)).toNat ∧ MemKeptOutside s t a 4)

/-- R255, R290: what `mfs` reads from each special register, in the state that may read it; a read of CYCLE_LO also captures the
high half. The count of cycles includes the free number of cycles for which this issue waits when its fetch misses (log entry
125). R255, R290: what `mts` writes to each special register, in the state that may write it: the fields the layouts mark RW,
and with EPC the REPCNT of the frame. -/
def Obligations.SpecialRegisters : Prop :=
  (
  ∀ (x : Issue) (rd : Reg) (sr : BitVec 12) (s : State) (v : Word), Issues x s →
    let c := s.core x.core
    let saved : Frame := c.frames.head?.getD { epc := c.epc, estatus := c.estatus, repcnt := 0 }
    let cycles := if c.hits c.pc = true then c.cycle else c.cycle + Config.pipStall s.nonce
    let i := (sr.toNat - 0x10) % 4
    let u := c.unit ((sr.toNat - 0x10) / 4)
    (8 ≤ sr.toNat ∧ sr.toNat ≤ 12 → c.super = true) →
    ( (sr = 0x000 ∧ v = c.status) ∨ (sr = 0x001 ∧ v = c.pred.zeroExtend 32 ||| 1) ∨ (sr = 0x002 ∧ v = c.lc) ∨
      (sr = 0x008 ∧ v = saved.epc) ∨
      (sr = 0x009 ∧ ∀ j, bit v j = if 24 ≤ j ∧ j < 28 then c.frames.length.testBit (j - 24) else bit saved.estatus j) ∨
      (sr = 0x00A ∧ v = c.ecause) ∨ (sr = 0x00B ∧ v = c.eaddr) ∨ (sr = 0x00C ∧ v = c.vbase) ∨
      (0x010 ≤ sr.toNat ∧ sr.toNat ≤ 0x01F ∧
        v = if i = 0 then u.base else if i = 1 then u.index else if i = 2 then u.step else u.cfg) ∨
      (sr = 0x020 ∧ v = cycles.extractLsb' 0 32) ∨ (sr = 0x021 ∧ v = c.cycleHi) ∨ (sr = 0x022 ∧ v = c.retired) ∨
      (sr = 0x030 ∧ v = s.pipId x.core) ) →
    ∃ t, exec (.mfs x rd sr) s = .next t ∧ Wrote c (t.core x.core) rd v ∧
      Ran x s t { c with gpr := (t.core x.core).gpr, cycleHi := if sr = 0x020 then cycles.extractLsb' 32 32 else c.cycleHi }) ∧
  (
  ∀ (x : Issue) (ra : Reg) (s : State), Issues x s →
    let c := s.core x.core
    let v := c.g ra
    (∀ p ∈ ([ (0x001, { c with pred := (v.extractLsb' 0 8 ||| 1) }), (0x002, { c with lc := v }) ] : List (BitVec 12 × Core)),
      ∃ t, exec (.mts x p.1 ra) s = .next t ∧ Ran x s t p.2) ∧
    (∀ n : BitVec 12, 0x10 ≤ n.toNat → n.toNat ≤ 0x1F →
      let k := (n.toNat - 0x10) / 4
      let i := (n.toNat - 0x10) % 4
      let u := c.unit k
      ∃ t, exec (.mts x n ra) s = .next t ∧ Ran x s t { c with au := (t.core x.core).au } ∧
        ∀ j, j < 4 → (t.core x.core).unit j = if j ≠ k then c.unit j else if i = 0 then { u with base := v }
          else if i = 1 then { u with index := v } else if i = 2 then { u with step := v } else { u with cfg := v &&& 0x003FFFFF }) ∧
    (c.super = true →
      (∀ p ∈ ([ (0x000, { c with status := (c.status &&& 0x0FFFF8FC) ||| (v &&& 0xF0000703) }),
               (0x00A, { c with ecause := v &&& 0xC1FF000F }), (0x00B, { c with eaddr := v }),
               (0x00C, { c with vbase := v &&& 0xFFFFFC00 }) ] : List (BitVec 12 × Core)),
        ∃ t, exec (.mts x p.1 ra) s = .next t ∧ Ran x s t p.2) ∧
      (∀ (f : Frame) (r : List Frame), c.frames = f :: r →
        (∃ t, exec (.mts x 0x008 ra) s = .next t ∧
          Ran x s t { c with frames := { f with epc := v &&& 0xFFFFFFFC, repcnt := 0 } :: r }) ∧
        (∃ t, exec (.mts x 0x009 ra) s = .next t ∧
          Ran x s t { c with frames := { f with estatus := (f.estatus &&& 0x0FF808FC) ||| (v &&& 0xF007F703) } :: r })) ∧
      (c.frames = [] →
        (∃ t, exec (.mts x 0x008 ra) s = .next t ∧ Ran x s t { c with epc := v &&& 0xFFFFFFFC }) ∧
        (∃ t, exec (.mts x 0x009 ra) s = .next t ∧
          Ran x s t { c with estatus := (c.estatus &&& 0x0FF808FC) ||| (v &&& 0xF007F703) }))))

/-- R260, R264, R269: the branches and jumps, with their links and targets; the flags decide `b.cc` in F-mode, where cond 15
traps UNDEF. R270: `dbnz` and `dblc` decrement their count and branch while the result is not 0; a nullified one does neither;
`dbnz` with g0 traps UNDEF. Neither changes the flags. R271, R272: `rep` latches its count for the instruction after it; a count
of 0 passes over both. -/
def Obligations.BranchesLoopsAndRep : Prop :=
  (
  ∀ (x : Issue) (s : State), Issues x s →
    let c := s.core x.core
    (∀ off : BitVec 22, ∃ t, exec (.br x off) s = .next t ∧ Branched x s t c (c.pc + BitVec.ofInt 32 (4 * off.toInt))) ∧
    (∀ off : BitVec 22, ∃ t, exec (.call x off) s = .next t ∧ Wrote c (t.core x.core) 31 (c.pc + 4) ∧
      Branched x s t { c with gpr := (t.core x.core).gpr } (c.pc + BitVec.ofInt 32 (4 * off.toInt))) ∧
    (∀ ra : Reg, (c.g ra).toNat % 4 = 0 → ∃ t, exec (.jr x ra) s = .next t ∧ Branched x s t c (c.g ra)) ∧
    (∀ rd ra : Reg, (c.g ra).toNat % 4 = 0 → ∃ t, exec (.jalr x rd ra) s = .next t ∧ Wrote c (t.core x.core) rd (c.pc + 4) ∧
      Branched x s t { c with gpr := (t.core x.core).gpr } (c.g ra)) ∧
    (c.fmode = true → ∀ p ∈ ([ (0, fun _ _ _ _ => true), (1, fun _ z _ _ => z), (2, fun _ z _ _ => !z), (3, fun _ _ c _ => c),
          (4, fun _ _ c _ => !c), (5, fun _ z c _ => c && !z), (6, fun _ z c _ => !c || z), (7, fun n _ _ v => n == v),
          (8, fun n _ _ v => n != v), (9, fun n z _ v => !z && n == v), (10, fun n z _ v => z || n != v), (11, fun n _ _ _ => n),
          (12, fun n _ _ _ => !n), (13, fun _ _ _ v => v), (14, fun _ _ _ v => !v) ]
        : List (BitVec 4 × (Bool → Bool → Bool → Bool → Bool))), ∀ off : BitVec 18,
      ∃ t, exec (.bCc x p.1 off) s = .next t ∧
        if p.2 (bit c.status 31) (bit c.status 30) (bit c.status 29) (bit c.status 28) = true
        then Branched x s t c (c.pc + BitVec.ofInt 32 (4 * off.toInt)) else Ran x s t c) ∧
    (c.fmode = true → c.frames.length < 8 → ∀ off : BitVec 18, ∃ t, exec (.bCc x 15 off) s = .next t ∧
      Entered x.core s t 1 (x.guard ++ (0x25 : BitVec 6) ++ (15 : BitVec 4) ++ off) false false)) ∧
  (
  ∀ (x : Issue) (s : State),
    let c := s.core x.core
    (Issues x s →
      (∀ (gn : Reg) (off : BitVec 17), gn ≠ 0 → ∃ t, exec (.dbnz x gn off) s = .next t ∧ Wrote c (t.core x.core) gn (c.g gn - 1) ∧
        if c.g gn ≠ 1 then Branched x s t { c with gpr := (t.core x.core).gpr } (c.pc + BitVec.ofInt 32 (4 * off.toInt))
        else Ran x s t { c with gpr := (t.core x.core).gpr }) ∧
      (∀ off : BitVec 22, ∃ t, exec (.dblc x off) s = .next t ∧
        if c.lc ≠ 1 then Branched x s t { c with lc := c.lc - 1 } (c.pc + BitVec.ofInt 32 (4 * off.toInt))
        else Ran x s t { c with lc := 0 })) ∧
    (Fetches x s → c.guardUndef x.guard = false →
      (c.guardTrue x.guard = false → ∀ (gn : Reg) (off : BitVec 17) (far : BitVec 22), gn ≠ 0 →
        (∃ t, exec (.dbnz x gn off) s = .next t ∧ Ran x s t c) ∧ (∃ t, exec (.dblc x far) s = .next t ∧ Ran x s t c)) ∧
      (c.frames.length < 8 → ∀ off : BitVec 17, ∃ t, exec (.dbnz x 0 off) s = .next t ∧
        Entered x.core s t 1 (x.guard ++ (0x24 : BitVec 6) ++ (0 : BitVec 5) ++ off) false false))) ∧
  (
  ∀ (x : Issue) (form : BitVec 2) (n : Reg) (imm : BitVec 8) (succ k : Word) (s : State), Issues x s →
    let c := s.core x.core
    s.fetchCheck x.core (c.pc + 4) = none → repSuccessorBad succ = false →
    ((c.hits c.pc = true ∧ c.hits (c.pc + 4) = true) ∨ Brings s x.core (c.pc + 4) x.dataUe) →
    ((form = 0 ∧ imm = 0 ∧ k = c.g n) ∨ (form = 1 ∧ n = 0 ∧ k = imm.zeroExtend 32) ∨ (form = 2 ∧ n = 0 ∧ imm = 0 ∧ k = c.lc)) →
    ∃ t, exec (.rep x form n imm succ) s = .next t ∧ OnlyCore x.core s t ∧ Progressed c (t.core x.core) ∧
      if k = 0 then (t.core x.core).pc = c.pc + 8 ∧ (t.core x.core).retired = c.retired + 2 ∧ (t.core x.core).repcnt = c.repcnt
      else (t.core x.core).pc = c.pc + 4 ∧ (t.core x.core).retired = c.retired + 1 ∧ (t.core x.core).repcnt = k)

/-- R261, R283, R284, R294: `nop` only retires; `isync` also discards what was fetched; `fence.w` holds issue exactly while the
core has stores out; `wait` holds issue with PC at the next instruction. R284, R294: `fence.w` ends when nothing of the core is
out any more; a `wait` ends at a pending interrupt above IPL, or at any while IPL is 0. What ends neither changes nothing. -/
def Obligations.SynchronisationHoldsIssue : Prop :=
  (
  ∀ (x : Issue) (s : State), Issues x s →
    let c := s.core x.core
    (∃ t, exec (.nop x) s = .next t ∧ Ran x s t c) ∧
    (∃ t, exec (.isync x) s = .next t ∧ Ran x s t c ∧ (t.core x.core).fetchBuf = none) ∧
    (∃ t, exec (.fenceW x) s = .next t ∧ Ran x s t { c with fencing := s.storesOut x.core c }) ∧
    (c.super = true → ∃ t, exec (.wait x) s = .next t ∧ Ran x s t { c with run := .waiting })) ∧
  (
  (∀ (k : Nat) (s : State), k < 20 →
    let c := s.core k
    exec (.fenceWDrainEnd k) s =
      .next (if c.fencing = true ∧ s.storesOut k c = false then s.setCore k { c with fencing := false } else s)) ∧
  (∀ (k n : Nat) (s : State), k < 22 → (s.core k).run = .waiting → s.presented k = some n →
    ((s.core k).ipl < s.irqPri n ∨ (s.core k).ipl = 0) →
    ∃ t, exec (.waitWake k) s = .next t ∧ OnlyCore k s t ∧
      t.core k = { s.core k with run := .running, cycle := (t.core k).cycle }))

/-- R261, R273, R274, R287-R290: `break`, `syscall` and an undefined encoding enter their exception: the frame saved, ECAUSE,
EADDR and the vector of R288, S set, and no other effect. R289, R296: with 8 frames on the context stack an entry does not take
place and the Pip halts. -/
def Obligations.TrapsEnterTheirVector : Prop :=
  (
  ∀ (x : Issue) (s : State), (s.core x.core).frames.length < 8 →
    (Issues x s → ∃ t, exec (.brk x) s = .next t ∧ Entered x.core s t 7 0 false false) ∧
    (Issues x s → ∃ t, exec (.syscall x) s = .next t ∧ Entered x.core s t 8 0 false false) ∧
    (Fetches x s → ∀ w : Word, undefWord w (s.core x.core).fmode = true →
      ∃ t, exec (.undefinedInstruction x w) s = .next t ∧ Entered x.core s t 1 w false false)) ∧
  (
  ∀ (x : Issue) (s : State), Issues x s → (s.core x.core).frames.length = 8 →
    ∃ t, exec (.syscall x) s = .next t ∧ OnlyCore x.core s t ∧ (t.core x.core).run = .halted ∧
      (t.core x.core).frames = (s.core x.core).frames ∧ (t.core x.core).pc = (s.core x.core).pc ∧
      GprKept (s.core x.core) (t.core x.core) ∧ (t.core x.core).canIssue = false)

/-- R256, R266, R269, R273, R274, R278: what traps instead of executing: a privileged instruction in user state, a misaligned
address, an access that no window serves or permits, a failed fetch. R258: an instruction whose guard is false retires and does
nothing else: no register, predicate, flag or byte changes, and nothing is raised. -/
def Obligations.ChecksComeBeforeEffects : Prop :=
  (
  ∀ (x : Issue) (s : State), (s.core x.core).frames.length < 8 →
    let c := s.core x.core
    (Issues x s → c.super = false →
      ∀ i ∈ ([.rti x, .wait x, .inv x 1, .mts x 0 1, .mfs x 1 0x008] : List Instr),
        ∃ t, exec i s = .next t ∧ Entered x.core s t 2 0 false false) ∧
    (Issues x s → ∀ (rd ra : Reg) (imm : BitVec 12), let va := c.g ra + imm.signExtend 32
      (va.toNat % 4 ≠ 0 → (∃ t, exec (.ldw x rd ra imm) s = .next t ∧ Entered x.core s t 3 va false false) ∧
        (∃ t, exec (.stw x rd ra imm) s = .next t ∧ Entered x.core s t 3 va false true)) ∧
      (va.toNat % 4 = 0 → isSeed va = false → s.translate x.core va = none →
        (∃ t, exec (.ldw x rd ra imm) s = .next t ∧ Entered x.core s t 4 va false false) ∧
        (∃ t, exec (.stw x rd ra imm) s = .next t ∧ Entered x.core s t 4 va false true)) ∧
      ((c.g ra).toNat % 4 ≠ 0 → (∃ t, exec (.jr x ra) s = .next t ∧ Entered x.core s t 3 (c.g ra) false false) ∧
        (∃ t, exec (.jalr x rd ra) s = .next t ∧ Entered x.core s t 3 (c.g ra) false false))) ∧
    (Fetches x s → c.guardUndef x.guard = false → c.fmode = false → ∀ rd ra rb : Reg,
      (∃ t, exec (.adc x rd ra rb) s = .next t ∧
        Entered x.core s t 1 (x.guard ++ (1 : BitVec 6) ++ rd ++ ra ++ rb ++ (0x10 : BitVec 7)) false false) ∧
      (∃ t, exec (.sbc x rd ra rb) s = .next t ∧
        Entered x.core s t 1 (x.guard ++ (1 : BitVec 6) ++ rd ++ ra ++ rb ++ (0x11 : BitVec 7)) false false)) ∧
    (x.core < 20 → c.canIssue = true → isSeed c.pc = false → s.translate x.core c.pc = none →
      ∃ t, exec (.nop x) s = .next t ∧ Entered x.core s t 4 c.pc true false)) ∧
  (
  ∀ (x : Issue) (s : State), Fetches x s → (s.core x.core).guardUndef x.guard = false →
    (s.core x.core).guardTrue x.guard = false → ∀ (rd ra rb : Reg) (imm : BitVec 12) (off : BitVec 22),
    ∀ i ∈ ([.add x rd ra rb, .div x rd ra rb, .addi x rd ra imm, .ldw x rd ra imm, .stw x rd ra imm, .aswap x rd ra rb,
            .br x off, .call x off, .jalr x rd ra, .syscall x, .brk x, .fenceW x, .cln x ra] : List Instr),
      ∃ t, exec i s = .next t ∧ Ran x s t (s.core x.core))

/-- R290: `rti` with no interrupt that it may chain to restores PC, STATUS but FMODE, q1-q7 and REPCNT from the top frame and
pops it; with an empty stack it takes PC and STATUS from EPC and ESTATUS, with REPCNT 0. R271, R288-R292, R295: an interrupt
presented above IPL is entered between instructions while IE is set: its source is in service and its frame, cause, IPL and
vector are written; below or at IPL nothing happens. A retained Pip to which an interrupt is delivered is in `wait` again. -/
def Obligations.ReturnAndInterruptEntry : Prop :=
  (
  ∀ (x : Issue) (s : State), Issues x s → (s.core x.core).super = true → s.presented x.core = none →
    let c := s.core x.core
    ∃ t, exec (.rti x) s = .next t ∧ OnlyCore x.core s t ∧ GprKept c (t.core x.core) ∧
      (t.core x.core).retired = c.retired + 1 ∧ bit (t.core x.core).status 2 = bit c.status 2 ∧
      (∀ (f : Frame) (r : List Frame), c.frames = f :: r →
        (t.core x.core).frames = r ∧ (t.core x.core).pc = f.epc ∧ (t.core x.core).repcnt = f.repcnt ∧
        (∀ i ∈ [0, 1, 8, 9, 10, 28, 29, 30, 31], bit (t.core x.core).status i = bit f.estatus i) ∧
        ∀ q : BitVec 3, (t.core x.core).q q = if q = 0 then true else bit f.estatus (11 + q.toNat)) ∧
      (c.frames = [] →
        (t.core x.core).frames = [] ∧ (t.core x.core).pc = c.epc ∧ (t.core x.core).repcnt = 0 ∧
        (∀ i ∈ [0, 1, 8, 9, 10, 28, 29, 30, 31], bit (t.core x.core).status i = bit c.estatus i) ∧
        (t.core x.core).pred = c.pred)) ∧
  (
  ∀ (k n : Nat) (s : State), k < 20 → s.presented k = some n →
    let c := s.core k
    (c.canIssue = true → c.repNew = false → bit c.status 1 = true → c.frames.length < 8 → n < 512 → s.irqPri n < 8 → c.ipl < s.irqPri n →
      ∃ t, exec (.pipInterruptEntry k) s = .next t ∧ t = { s.accept n k with cores := t.cores } ∧
        (∀ j, j ≠ k → t.core j = (s.accept n k).core j) ∧
        (∃ f, (t.core k).frames = f :: c.frames ∧ f.epc = c.pc ∧ f.repcnt = c.repcnt) ∧ GprKept c (t.core k) ∧
        (t.core k).pred = c.pred ∧ (t.core k).ecause = BitVec.ofNat 32 (9 + n * 2 ^ 16) ∧ (t.core k).eaddr = 0 ∧
        (t.core k).ipl = s.irqPri n ∧ bit (t.core k).status 0 = true ∧ bit (t.core k).status 1 = true ∧
        (t.core k).repcnt = 0 ∧ (t.core k).pc = c.vbase + BitVec.ofNat 32 (0x240 + 0x40 * s.irqPri n)) ∧
    (s.irqPri n ≤ c.ipl → exec (.pipInterruptEntry k) s = .next s) ∧
    (c.run = .retention → exec (.pipRetentionWake k) s = .next (s.setCore k { c with run := .waiting })))

/-- R278, R282: the cache operations on a cacheable line: a clean writes the dirty bytes back and keeps the line, `clinv` also
drops it, `inv` drops it with its dirty bytes, `iinv` drops the instruction-cache line; on an uncached window each is no
operation. -/
def Obligations.CacheOperations : Prop :=
  ∀ (x : Issue) (ra : Reg) (s : State) (w : Window) (a : Nat), Issues x s →
    let c := s.core x.core
    isSeed (c.g ra) = false → s.translate x.core (c.g ra) = some (w, a) →
    (s.cached w a = false → ∀ i ∈ ([.cln x ra, .clinv x ra, .iinv x ra] : List Instr), ∃ t, exec i s = .next t ∧ Ran x s t c) ∧
    (s.cached w a = false → c.super = true → ∃ t, exec (.inv x ra) s = .next t ∧ Ran x s t c) ∧
    (s.cached w a = true → c.wbuf.length < 8 →
      (∃ t, exec (.cln x ra) s = .next t ∧ Ran x s t (c.clean a)) ∧
      (∃ t, exec (.clinv x ra) s = .next t ∧ Ran x s t ((c.clean a).dropLine a) ∧ (t.core x.core).line a = none) ∧
      (c.super = true → ∃ t, exec (.inv x ra) s = .next t ∧ Ran x s t (c.dropLine a) ∧ (t.core x.core).line a = none ∧
        (t.core x.core).wbuf = c.wbuf) ∧
      (∃ t, exec (.iinv x ra) s = .next t ∧ Ran x s t c ∧ (c.g ra).toNat / 32 * 32 ∉ (t.core x.core).icache)) ∧
    (∀ l, c.line a = some l → l.dirty ≠ 0 →
      (c.clean a).wbuf = c.wbuf ++ [{ addr := a / 32 * 32, bytes := l.bytes, mask := l.dirty }])

/-! ### Reset, supplies and loads (spec/01_architecture.md, 02_pynal_images.md, 16, 17, 19) -/

/-- R41, R393, R404, R410, R441: each cause of a reset to M1 loses everything but what the spec keeps, notes its cause in the
sticky record, and lets WA run. Without a stopped crystal the Tally goes on as it was; after DEEP it goes on from the LPRC
count. R41, R42, R441: RESET_N asserted takes the device to M1, where nothing runs, and keeps the Tally, the sticky record, the
journals, flash and fuses; in M0 the device stays in M0. -/
def Obligations.ResetsToBootMode : Prop :=
  (
  ∀ s : State,
    (∀ (straps : BitVec 3) (pins : BitVec 64), (s.power.inReset = true ∨ s.mode = .off) → s.power.io18 = true →
      s.power.railEn = true →
      ∃ t, exec (.resetNRelease straps pins) s = .next t ∧ Booted s t 2 false ∧ t.straps = straps ∧ t.qiPins = pins) ∧
    (s.power.inReset = false → s.mode ≠ .off →
      (∀ p ∈ ([(.brownOut, 3), (.keeperFailure, 4)] : List (Instr × Nat)),
        ∃ t, exec p.1 s = .next t ∧ Booted s t p.2 true ∧ (s.tally.lprc = false → t.tally.count = s.tally.count)) ∧
      (s.mode ≠ .deep → ∃ t, exec (.rootPllLoss true) s = .next t ∧ Booted s t 6 true) ∧
      (s.mode ≠ .deep → s.mode ≠ .sleep → ∃ t, exec (.rootPllLoss false) s = .next t ∧ Booted s t 5 true)) ∧
    (s.power.inReset = false → s.mode = .deep → s.power.step = 6 → ∀ n : Nat,
      ∃ t, exec (.deepWake n) s = .next t ∧ Booted s t 7 true ∧
        t.tally.count = s.tally.count + BitVec.ofNat 64 (n * s.tally.cal.toNat / 65536) ∧ t.tally.est = true ∧ t.tally.skewEst = true)) ∧
  (
  ∀ s : State, s.power.inReset = false →
    (s.mode ≠ .off → ∃ t, exec .resetNAssert s = .next t ∧ t.mode = .boot ∧ t.power.inReset = true ∧ Lost s t ∧
      (∀ k, k < 22 → t.core k = {}) ∧ RegsReset s t true ∧ (∀ a, isSticky a = true → t.dreg a = s.dreg a) ∧
      t.tally.count = s.tally.count) ∧
    (s.mode = .off → exec .resetNAssert s = .next { s with power := { s.power with inReset := true } }))

/-- R374, R407, R411, R426, R439, R440, R443: the supplies as they come and go while the AON domain is fed. R349, R406: PFW_N
low is held by the queue manager until the pin is released; neither edge changes the mode. -/
def Obligations.SuppliesAndPowerFail : Prop :=
  (
  ∀ s : State,
    let noted (changed : Bool) : State := if changed then s.modDreg 0x10007024 fun w => setBit w 1 true else s
    let p := s.power
    (s.mode = .off → p.io18 = true → exec .railEnRise s = .next { s with power := { p with railEn := true } }) ∧
    (p.io18 = false → ∀ c ∈ ([.powerGood, .aonSupplySwitch true] : List Instr),
      exec c s = .next { noted p.onBat with power := { p with onBat := false, io18 := true } }) ∧
    exec .vddaDacFault s = .next { s with power := { p with dac := false } } ∧
    exec .vddaDacReturn s = .next { s with power := { p with dac := true } } ∧
    exec .vddIo33Loss s = .next { s with power := { p with io33 := false }, qiPins := 0 } ∧
    (p.io33 = false → ∃ t, exec .vddIo33Return s = .next t ∧
      t = { s with power := { p with io33 := true }, qiPins := t.qiPins, nonce := t.nonce }) ∧
    (∀ low : Bool, exec (.vddBatLow low) s =
      .next { noted (p.batLow != low) with power := { p with batLow := low, bat := p.bat || !low } }) ∧
    (p.io18 = true → exec .vddBatLoss s = .next { noted (!p.batLow) with power := { p with batLow := true, bat := false } })) ∧
  (
  ∀ s : State,
    (∃ t, exec .pfwNAssert s = .next t ∧ t.store.pfw = true ∧ t.mode = s.mode ∧ (s.store.pfw = true → t = s)) ∧
    (∃ t, exec .pfwNRelease s = .next t ∧ t.store.pfw = false ∧ t.mode = s.mode))

/-- R41, R374, R407, R443: a loss of power and a fault of a monitored rail end in M0. The Tally and the sticky record outlive it
on VDD_IO18 or on VDD_BAT; with neither, both restart at 0 with LOST and POWER_LOST. -/
def Obligations.LossOfPowerEndsInM0 : Prop :=
  ∀ s : State,
    let off (t : State) : Prop := t.mode = .off ∧ Lost s t ∧ (∀ k, k < 22 → t.core k = {}) ∧ t.power.rails = false
    (s.power.io18 = true → s.power.bat = true → ∀ c ∈ ([.powerLoss, .aonSupplySwitch false] : List Instr),
      ∃ t, exec c s = .next t ∧ off t ∧ t.power.io18 = false ∧ t.power.railEn = false ∧ t.power.onBat = true ∧
        t.tally.count = s.tally.count ∧ t.tally.lprc = true ∧ ∀ a, isSticky a = true → t.dreg a = s.dreg a) ∧
    (s.power.io18 = true → s.power.bat = false → ∀ c ∈ ([.powerLoss, .aonSupplySwitch false] : List Instr),
      ∃ t, exec c s = .next t ∧ off t ∧ t.tally.count = 0 ∧ t.tally.lost = true ∧
        ∀ a, isSticky a = true → t.dreg a = if a = 0x10007100 then 1 else deviceDefault a) ∧
    (s.mode ≠ .off → s.mode ≠ .deep → ∃ t, exec .monitoredRailFault s = .next t ∧ off t ∧ t.power.io18 = s.power.io18 ∧
      t.power.railEn = s.power.railEn ∧ t.tally.count = s.tally.count ∧ ∀ a, isSticky a = true → t.dreg a = s.dreg a)

/-- R65, R71, R80, R417, R453: a full load zeroes the Orchard, enters M2 and tries its sources in the order of BOOT_ORDER, after
JTAG if that was asked for and is allowed. The host is taken at its turn if READY was accepted, waited for while its link is up,
and passed over otherwise. The wait for the asset store ends with the store, or with SOURCE_ERROR and the next source; a full
load whose Reads find no drive when it ends fails likewise. The wait for the host ends with the next source and no code. READY
is held, or taken at the host's turn and in the final wait. -/
def Obligations.FullLoadTakesItsSources : Prop :=
  ∀ s : State,
    (s.mode = .boot → s.power.inReset = false → (s.core 20).run = .running → s.load.busy = false →
      let a := s.activeSlot.1
      let kept (t : State) : Prop := t = { s with mem := t.mem, errs := t.errs, mode := .config, jtag := { s.jtag with bootReq := false }
                                                  load := t.load, store := { s.store with drives := t.store.drives } } ∧
        (∀ a, a < 0x8000000 → t.byte a = 0) ∧ ∀ a, 0x8000000 ≤ a → t.byte a = s.byte a
      let order := if s.straps.getLsbD 0 = true then [3, a, 1 - a, 2] else [a, 1 - a, 2, 3]
      (s.jtag.bootReq = false → s.straps.getLsbD 0 = false → ∃ t, exec .fullLoadStart s = .next t ∧
        Sourced t a ∧ t.load.sources = [1 - a, 2, 3] ∧ kept t) ∧
      (s.jtag.bootReq = false → s.straps.getLsbD 0 = true →
        (∀ p, p < 2 → vget false s.load.ready p = true → (p = 1 → vget false s.load.ready 0 = false) →
          ∃ t, exec .fullLoadStart s = .next t ∧ Sourced t (3 + p) ∧ kept t) ∧
        (s.load.ready = Vector.replicate 2 false → s.hostLinked = true → ∃ t, exec .fullLoadStart s = .next t ∧
          t.load.waitHost = true ∧ t.load.busy = false ∧ t.load.sources = [a, 1 - a, 2] ∧ kept t) ∧
        (s.load.ready = Vector.replicate 2 false → s.hostLinked = false → ∃ t, exec .fullLoadStart s = .next t ∧
          Sourced t a ∧ t.load.sources = [1 - a, 2] ∧ kept t)) ∧
      (s.jtag.bootReq = true → s.fuses.secure = false ∨ s.jtag.unlocked = true → ∃ t, exec .fullLoadStart s = .next t ∧
        Sourced t 5 ∧ t.load.sources = order ∧ kept t) ∧
      (s.jtag.bootReq = true → s.fuses.secure = true → s.jtag.unlocked = false → s.straps.getLsbD 0 = false →
        ∃ t, exec .fullLoadStart s = .next t ∧ Sourced t a ∧ t.load.code = 0x43 ∧ kept t)) ∧
    (s.mode = .config → s.load.waitAsset = true →
      (s.readyDrives ≠ [] → ∃ t, exec .assetStoreWaitEnd s = .next t ∧ Sourced t 2 ∧ t.load.sources = s.load.sources ∧
        t = { s with load := t.load, store := { s.store with drives := t.store.drives } }) ∧
      (∀ x r, s.readyDrives = [] → s.load.sources = x :: r → x ≤ 1 → ∃ t, exec .assetStoreWaitEnd s = .next t ∧
        Sourced t x ∧ t.load.code = 0x30 ∧ t.load.sources = r ∧
        t = { s with load := t.load, store := { s.store with drives := t.store.drives } })) ∧
    (∀ x r, s.load.waitAsset = false → s.inPass 3 = true → s.load.stage = 15 → s.load.reads ≠ [] → s.readyDrives = [] →
      s.load.sources = x :: r → x ≤ 1 → ∃ t, exec .assetStoreWaitEnd s = .next t ∧ Sourced t x ∧ t.load.code = 0x30 ∧
        t.load.sources = r ∧ t = { s with load := t.load, store := { s.store with drives := t.store.drives } }) ∧
    (∀ x r, s.mode = .config → s.load.waitHost = true → s.load.sources = x :: r → x ≤ 1 →
      ∃ t, exec .hostReadyWaitEnd s = .next t ∧ Sourced t x ∧ t.load.code = s.load.code ∧ t.load.sources = r ∧
        t = { s with load := t.load, store := { s.store with drives := t.store.drives } }) ∧
    (∀ p, p < 2 → s.mode = .config → s.straps.getLsbD (p + 1) = false →
      let taken (t : State) : Prop := bit (t.dreg (0x1000A10C + 0x40 * p)) 19 = true ∧
        Sourced t (if p = 0 ∨ vget false s.load.ready 0 = true then 3 else 4) ∧
        t = { s with load := t.load, regs := t.regs, store := { s.store with drives := t.store.drives } }
      (s.load.waitHost = false → s.load.finalWait = false → exec (.peStageReady p) s =
        .next (({ s with load := { s.load with ready := vset s.load.ready p true } } : State).modDreg
          (0x1000A10C + 0x40 * p) fun w => setBit w 19 true)) ∧
      (s.load.waitHost = true → s.load.finalWait = false → ∃ t, exec (.peStageReady p) s = .next t ∧ taken t) ∧
      (s.load.finalWait = true → s.load.sources = [] → ∃ t, exec (.peStageReady p) s = .next t ∧ taken t))

/-- R69-R71, R74, R85-R87, R453, R454: how pass 1 ends, when its source has been read. A stage load that fails before its stage
stops reports its code and leaves stages and memory untouched; one that passes waits for the latch line of a running stage, or
goes on with an empty slot. A full load that fails takes the next source; one that passes has reset the stages, and waits for
LP5X to be trained and zero-filled before pass 2 if that has not been done. R69-R74: how pass 2 ends, when what it reads has
been read and the sound of a stage that is replaced has ramped to silence. Bytes that differ from those of pass 1 fail a full
load with CHANGED, which the next source follows, and a stage load with every byte of its partitions zeroed once step 3 is done;
a full load that commits takes the device to M3, or M5 with a unit shed; a stage load goes on to the latch line with its
BIND_GEN one higher, or ends with SPARES_TAKEN. -/
def Obligations.LoadPassesEnd : Prop :=
  (
  ∀ s : State,
    let l := s.load
    let failed (t : State) (code : Nat) : Prop := t.load.busy = false ∧ t.load.code = code ∧ t.load.phase = 6 ∧
      t.mem = s.mem ∧ t.stages = s.stages ∧ (t.mode = .run ∨ t.mode = .degraded)
    (s.inPass 1 = true → l.stage < 4 → l.step < 3 →
      (∃ t, exec .sourceReadError s = .next t ∧ failed t 0x30) ∧
      ∀ image : List Byte,
        let bs := s.sourceBytes image
        let judged := s.pass1 bs (s.sourceLen bs.length) (some l.stage) (if l.source = 6 then some (l.addr, l.maxLen) else none)
        let m := readImage s.fuses.imageKey bs
        s.passRead image.length = true → (l.source = 6 → s.damaged [(l.addr, bs.length)] = []) →
        (∀ code, judged = some code → ∃ t, exec (.loadPass1End image) s = .next t ∧ failed t code) ∧
        (judged = none → m.assetRuns ≠ [] → s.readyDrives = [] → ∃ t, exec (.loadPass1End image) s = .next t ∧ failed t 0x30) ∧
        (judged = none → (m.assetRuns = [] ∨ s.readyDrives ≠ []) →
          let p := if (s.stage l.stage).phase = .empty then 3 else 2
          ∃ t, exec (.loadPass1End image) s = .next t ∧ t.load.busy = true ∧ t.load.image = m.bytes ∧ t.load.version = m.version ∧
            t.load.step = p ∧ t.load.phase = p ∧
            t = { s with load := t.load, store := { s.store with drives := t.store.drives } })) ∧
    (s.inPass 1 = true → l.stage = 15 → l.step ≠ 4 →
      (∀ x r, l.sources = x :: r → x ≤ 1 → ∃ t, exec .sourceReadError s = .next t ∧ Sourced t x ∧ t.load.code = 0x30) ∧
      ∀ image : List Byte,
        let bs := s.sourceBytes image
        let judged := s.pass1 bs (s.sourceLen bs.length) none (if l.source = 6 then some (l.addr, l.maxLen) else none)
        s.passRead image.length = true → (l.source = 6 → s.damaged [(l.addr, bs.length)] = []) →
        (∀ code x r, judged = some code → l.sources = x :: r → x ≤ 1 → ∃ t, exec (.loadPass1End image) s = .next t ∧
          Sourced t x ∧ t.load.code = code ∧ t.mem = s.mem ∧ t.stages = s.stages) ∧
        (judged = none → s.lpx.filled = false → ∃ t, exec (.loadPass1End image) s = .next t ∧ t.load.step = 4 ∧ t.load.phase = 1 ∧
          t.load.image = (readImage s.fuses.imageKey bs).bytes ∧ t.mem = s.mem ∧ (∀ i, i < 4 → t.stage i = {}) ∧
          ∀ n, 32 ≤ n → n < 288 → fld (t.dreg (0x13000000 + 8 * n)) 8 5 = 31)) ∧
    (∀ mts raw : Nat, mts ∈ [8533, 7500, 6400] → raw ∈ [8, 16, 32] → s.inPass 1 = true → l.step = 4 → s.lpx.trained = false →
      ∃ t, exec (.lp5xTrained mts raw) s = .next t ∧ t.lpx = { s.lpx with trained := true, mts := mts, rawGib := raw, state := 0 } ∧
        (∀ a, t.byte a = if 0x100000000 ≤ a ∧ a < 0x900000000 then 0 else s.byte a) ∧
        ((readImage s.fuses.imageKey l.image).badRange raw = false → t = { s with mem := t.mem, errs := t.errs, lpx := t.lpx }) ∧
        (∀ x r, (readImage s.fuses.imageKey l.image).badRange raw = true → l.sources = x :: r → x ≤ 1 →
          Sourced t x ∧ t.load.code = 0x26)) ∧
    (s.lpx.trained = true → s.lpx.filled = false →
      ∃ t, exec .lp5xZeroFillEnd s = .next t ∧ (∀ a, t.byte a = if 0x100000000 ≤ a ∧ a < 0x900000000 then 0 else s.byte a) ∧
        t = { s with mem := t.mem, errs := t.errs, lpx := { s.lpx with filled := true }, load := t.load
                     store := { s.store with drives := t.store.drives } } ∧
        if s.inPass 1 = true ∧ l.step = 4 then t.load.step = 5 ∧ t.load.phase = 3 else t.load = l)) ∧
  (
  ∀ (image assets : List Byte) (s : State), s.inPass 3 = true → s.rampDone = true → s.load.reads = [] → s.loadOut = false →
    (s.load.source = 6 → s.damaged [(s.load.addr, s.load.image.length)] = []) →
    let l := s.load
    let bs := (s.sourceBytes image).take (totalLen l.image)
    let m := readImage s.fuses.imageKey l.image
    (∀ x r, l.stage = 15 → bs ≠ l.image → sha256 bs ≠ sha256 l.image → l.sources = x :: r → x ≤ 1 →
      ∃ t, exec (.loadPass2End image assets) s = .next t ∧ Sourced t x ∧ t.load.code = 0x31 ∧
        t = { s with load := t.load, store := { s.store with drives := t.store.drives } }) ∧
    (l.stage < 4 → bs ≠ l.image → sha256 bs ≠ sha256 l.image →
      ∃ t, exec (.loadPass2End image assets) s = .next t ∧ t.load.busy = false ∧ t.load.code = 0x31 ∧ t.load.phase = 6 ∧
        (t.mode = .run ∨ t.mode = .degraded) ∧
        (3 ≤ l.step → (t.stage l.stage).loaded = false ∧
          ∀ g ∈ (m.plan l.stage).segs, ∀ a, g.base ≤ a → a < g.base + g.size → t.byte a = 0)) ∧
    (bs = l.image → m.assetBytes ≤ assets.length →
      (∀ u, l.stage = 15 → (s.installDevice m).applyImage m true assets = some u →
        ∃ t, exec (.loadPass2End image assets) s = .next t ∧ t.load.busy = false ∧ t.load.code = 0 ∧ t.load.phase = 5 ∧
          t.mem = u.mem ∧ t.stages = u.stages ∧ t.goDriven = true ∧ (t.mode = .run ∨ t.mode = .degraded) ∧
          (t.anyShed = true → t.mode = .degraded)) ∧
      (l.stage < 4 → m.stages = [l.stage] → ∃ t, exec (.loadPass2End image assets) s = .next t ∧
        ((t.load.phase = 4 ∧ t.load.busy = true ∧ (t.stage l.stage).bindGen = (s.stage l.stage).bindGen + 1) ∨
          (t.load.busy = false ∧ t.load.code = 0x42)))))

/-- R71 step 7, R74, R75, R82, R116: a synthesizer that locks starts its stage's raster at the latch line; at the latch line a
loaded stage runs and its load ends with OK; a stage to be replaced or unloaded stops there, and one to be replaced frees its
Orchard positions; an unload ends with its partitions zeroed and its slot empty, once its sound has ramped to silence. -/
def Obligations.StagesStartAndStop : Prop :=
  ∀ s : State,
    (∀ p i : Nat, s.portStage p = some i → ((s.stage i).phase = .loaded ∨ (s.stage i).restart = true) →
      (s.stage i).beam.run = false → (s.stage i).portA = p →
      let tm := (s.stage i).beam.inForce
      ∃ t, exec (.synthLocked p) s = .next t ∧ OnlyStage i s t ∧ (t.stage i).beam.run = true ∧ (t.stage i).beam.locked = true ∧
        (t.stage i).beam.hold = false ∧ (t.stage i).beam.field = tm.interlace ∧
        (t.stage i).beam.nextLine = tm.latchAt tm.interlace) ∧
    (∀ i : Nat, i < 4 → s.atLatch i = true → (s.stage i).phase = .loaded → s.mode.stagesRun = true → s.power.step = 0 →
      (s.load.busy = true → s.load.stage = i → s.load.step = 5 ∧ s.mode ≠ .orphan) →
      ∃ t, exec (.stageStart i) s = .next t ∧ (t.stage i).phase = .running ∧
        (s.load.busy = true → s.load.stage = i → t.load.busy = false ∧ t.load.code = 0 ∧ t.load.phase = 5)) ∧
    (∀ i : Nat, i < 4 → (s.atLatch i = true ∨ (s.stage i).phase = .empty) → s.mode = .retune → s.load.busy = true →
      s.load.stage = i → s.load.step = 2 →
      ∃ t, exec (.stageStop i) s = .next t ∧ (t.stage i).phase = .stopped ∧ t.load.step = 3 ∧
        t.load.phase = (if s.load.unload then 2 else 3) ∧ t.mem = s.mem ∧ bit t.keeper.faultPin (8 + i) = false ∧
        (s.load.unload = false → (t.stage i).slotPos = []) ∧
        ∀ j, j < 4 → j ≠ i → (t.stage j).phase = (s.stage j).phase) ∧
    (∀ i : Nat, i < 4 → s.mode = .retune → s.load.busy = true → s.load.unload = true → s.load.stage = i → s.load.step = 3 →
      (s.stage i).sound.stopRamp = none →
      ∃ t, exec (.unloadStageEnd i) s = .next t ∧ (t.stage i).phase = .empty ∧ (t.stage i).binds = [] ∧ t.load.busy = false ∧
        t.load.code = 0 ∧ (t.mode = .run ∨ t.mode = .degraded) ∧ (∀ j, j < 4 → j ≠ i → t.stage j = s.stage j) ∧
        ∀ a, ((s.stage i).segs.any fun g => decide (g.base ≤ a) && decide (a < g.base + g.size)) = true → t.byte a = 0)

/-! ### Warden commands (spec/12_interrupts_mailboxes.md, 02_pynal_images.md, 17_power_modes.md) -/

/-- R318-R320: the commands that ask for status are answered at once with the words of R319, and change nothing but the mailbox.
R318, R320, R396: what turns a command away: STANDBY from the standby, DENIED to a sender not listed, BAD_ARGS for its form,
BUSY during a mode entry. Nothing but the mailbox changes. -/
def Obligations.WardenAnswersOrTurnsAway : Prop :=
  (
  ∀ (w : Nat) (s : State),
    (∀ tj : BitVec 16, s.taken w = some 1 → s.badForm w 1 [] = false → ∃ t w1 w2,
      exec (.health w tj) s = .next t ∧ OnlyMail w s t ∧ Answered w s t 0 [w1, w2, tj.zeroExtend 32] ∧
      (w1.extractLsb' 0 4).toNat = s.mode.num ∧ bit w1 4 = (s.activeWarden == w) ∧ bit w1 5 = s.peerGood w ∧
      (∀ i, i < 4 → bit w1 (8 + i) = (s.stage i).loaded ∧ bit w1 (12 + i) = (s.stage i).degraded ∧
        bit w1 (16 + i) = (s.stage i).prism.frozen) ∧
      w2 = (s.sector 0).repairs + (s.sector 1).repairs + (s.sector 2).repairs + (s.sector 3).repairs) ∧
    (s.taken w = some 6 → s.activeWarden = w → s.badForm w 2 [3] = false →
      let c := (s.arg w 1).toNat % 4
      let x := s.sector c
      let spare (k : Nat) : Nat := (s.freeUnits k c).length
      ∃ t, exec (.repairStatus w) s = .next t ∧ OnlyMail w s t ∧
        Answered w s t 0 [x.repairs, x.sheds, BitVec.ofNat 32 (spare 0 + spare 1 * 2 ^ 8 + spare 2 * 2 ^ 16 + spare 3 * 2 ^ 24),
          BitVec.ofNat 32 (spare 5 + spare 4 * 2 ^ 8 + s.spareVoices c * 2 ^ 16),
          BitVec.ofNat 32 (x.lastKind + x.lastUnit * 2 ^ 8), x.lastTime]) ∧
    (s.taken w = some 8 → s.activeWarden = w → s.senderOf w ≠ .peer → s.badForm w 1 [] = false →
      ∃ t, exec (.ledgerStatus w) s = .next t ∧ OnlyMail w s t ∧
        Answered w s t 0 [vget 0 s.store.acked 0 + vget 0 s.store.acked 1 + vget 0 s.store.acked 2 + vget 0 s.store.acked 3 +
          vget 0 s.store.acked 4, BitVec.ofNat 32 s.store.recs.length,
          BitVec.ofNat 32 (s.store.pfw.toNat + 2 * s.ldgAccepting.toNat)]) ∧
    (s.taken w = some 9 → s.activeWarden = w → s.badForm w 2 [0xFF0F03] = false →
      let a := (s.arg w 1).toNat
      let k := a / 2 ^ 8 % 2 ^ 4
      let l := a / 2 ^ 16 % 2 ^ 8
      ((∀ o, s.senderOf w = .pip o → o = some (a % 4)) → k < 7 → l < kindIndices k →
        ∃ t, exec (.bindQuery w) s = .next t ∧ OnlyMail w s t ∧
          Answered w s t 0 [((s.stage (a % 4)).bind (bindAt k l)).word]) ∧
      ((∀ o, s.senderOf w = .pip o → o = some (a % 4)) → k = 7 → l = 0 →
        ∃ t v, exec (.bindQuery w) s = .next t ∧ OnlyMail w s t ∧ Answered w s t 0 [v] ∧
          ∀ c, c < 32 → bit v c = (s.stage (a % 4)).timers.contains c) ∧
      (∀ o, s.senderOf w = .pip o → o ≠ some (a % 4) →
        ∃ t, exec (.bindQuery w) s = .next t ∧ OnlyMail w s t ∧ Answered w s t 0x82 [])) ∧
    (∀ op, s.taken w = some op → op = 0 ∨ 10 ≤ op →
      ∃ t, exec (.badOpcode w) s = .next t ∧ OnlyMail w s t ∧ Answered w s t (if s.activeWarden = w then 0x80 else 0x83) [])) ∧
  (
  ∀ (w : Nat) (image : List Byte) (s : State),
    ∀ p ∈ ([ (2, 5, [0xF3, 0xFFFFFFFF, 0xFF, 0xFFFFFFFF], .loadStage w), (3, 2, [3], .unloadStage w), (4, 2, [0xF], .setMode w),
             (5, 3, [0xFFFF03, 0xFFFF], .shed w), (7, 4, [0xF0, 0xFFFFFFFF, 0xFFFFFFFF], .updateSlot w image) ]
          : List (Nat × Nat × List Word × Instr)),
      s.taken w = some p.1 →
      (∀ code, (s.activeWarden ≠ w ∧ code = 0x83) ∨ (s.activeWarden = w ∧ s.senderOf w ≠ .host ∧ code = 0x82) ∨
          (s.activeWarden = w ∧ s.senderOf w = .host ∧ s.badForm w p.2.1 p.2.2.1 = true ∧ code = 0x81) ∨
          (s.activeWarden = w ∧ s.senderOf w = .host ∧ s.badForm w p.2.1 p.2.2.1 = false ∧ s.entering = true ∧ code = 0x40) →
        ∃ t, exec p.2.2.2 s = .next t ∧ OnlyMail w s t ∧ Answered w s t code []))

/-- R69, R74, R75, R319, R453: LOAD_STAGE and UNLOAD_STAGE are accepted in M3 and M5 alone, take the device to M4 and are not
yet acknowledged; BUSY, NOT_LOADED and NOT_PERMITTED are told at once, and from the asset store SOURCE_ERROR while no drive is
ready. R67, R319: UPDATE_SLOT writes the image into the slot that is not active and leaves the active slot and the control
copies as they are; once its pass-1 checks pass, the other control copy is written to name it, with the next SEQUENCE. -/
def Obligations.StageLoadsAndUpdates : Prop :=
  (
  ∀ (w : Nat) (s : State),
    let i := (s.arg w 1).toNat % 4
    let accepted (t : State) (step : Nat) : Prop :=
      t = { s with
              mode := .retune, load := t.load, keeper := t.keeper, regs := t.regs
              store := { s.store with drives := t.store.drives } } ∧ t.load.busy = true ∧
        t.load.stage = i ∧ t.load.asker = some w ∧ t.load.step = step ∧ t.load.phase = step
    (HostAsks w 2 5 [0xF3, 0xFFFFFFFF, 0xFF, 0xFFFFFFFF] s →
      let src := (s.arg w 1).toNat / 2 ^ 4 % 2 ^ 4
      (s.load.busy = true → (src = 2 ∨ src = 3 ∨ src = 4 ∨ src = 6) →
        ∃ t, exec (.loadStage w) s = .next t ∧ OnlyMail w s t ∧ Answered w s t 0x40 []) ∧
      (s.load.busy = false → s.mode ≠ .run → s.mode ≠ .degraded → (src = 2 ∨ src = 3 ∨ src = 4 ∨ src = 6) →
        ∃ t, exec (.loadStage w) s = .next t ∧ OnlyMail w s t ∧ Answered w s t 0x43 []) ∧
      (s.load.busy = false → (s.mode = .run ∨ s.mode = .degraded) → src = 2 → s.readyDrives = [] →
        vget false s.load.muted w = false → vget false s.keeper.lost w = false →
        ∃ t, exec (.loadStage w) s = .next t ∧ Answered w s t 0x30 [] ∧ t.load.busy = false ∧ t.stages = s.stages ∧
          t.mode = if s.anyShed ∨ s.power.shedAway = true then .degraded else .run) ∧
      (s.load.busy = false → (s.mode = .run ∨ s.mode = .degraded) →
        (src = 2 ∧ s.readyDrives ≠ [] ∨ src = 3 ∨ src = 4 ∨
          src = 6 ∧ s.lpxSourceOk ((s.arg w 2).toNat + (s.arg w 3).toNat % 2 ^ 8 * 2 ^ 32) (s.arg w 4).toNat = true) →
        ∃ t, exec (.loadStage w) s = .next t ∧ accepted t 1 ∧ t.load.source = src ∧ t.load.unload = false ∧
          t.load.addr = (s.arg w 2).toNat + (s.arg w 3).toNat % 2 ^ 8 * 2 ^ 32 ∧ t.load.maxLen = (s.arg w 4).toNat)) ∧
    (HostAsks w 3 2 [3] s →
      (s.load.busy = true → ∃ t, exec (.unloadStage w) s = .next t ∧ OnlyMail w s t ∧ Answered w s t 0x40 []) ∧
      (s.load.busy = false → (s.stage i).phase = .empty →
        ∃ t, exec (.unloadStage w) s = .next t ∧ OnlyMail w s t ∧ Answered w s t 0x41 []) ∧
      (s.load.busy = false → (s.stage i).phase ≠ .empty → (s.mode = .run ∨ s.mode = .degraded) →
        ∃ t, exec (.unloadStage w) s = .next t ∧ accepted t 2 ∧ t.load.unload = true))) ∧
  (
  (∀ (w : Nat) (image : List Byte) (s : State), HostAsks w 7 4 [0xF0, 0xFFFFFFFF, 0xFFFFFFFF] s →
    let src := (s.arg w 1).toNat / 2 ^ 4 % 2 ^ 4
    let n := (s.arg w 3).toNat
    let slot := 1 - s.activeSlot.1
    let base := 0x10000 + 0x1000000 * slot
    (src = 3 ∨ src = 4) → 0 < n → n ≤ 16320 * 1024 → n ≤ image.length → s.load.busy = false → s.load.update = none →
    ∃ t, exec (.updateSlot w image) s = .next t ∧
      (∀ a, a < n → sget flashDefault t.flash (base + a) = image.getD a 0) ∧
      (∀ a, a < base ∨ base + 16320 * 1024 ≤ a → sget flashDefault t.flash a = sget flashDefault s.flash a) ∧
      ((∃ c, Answered w s t c [] ∧ t.load = s.load) ∨ (t.load = { s.load with update := some (w, slot) } ∧ t.mbox = s.mbox))) ∧
  (∀ (w slot : Nat) (s : State), s.load.update = some (w, slot) → slot ≤ 1 → w < 2 → vget false s.keeper.lost w = false →
    vget false s.load.muted w = false → (s.mb (20 + w)).state = .posted →
    let c := match s.slotWinner with | some c => 1 - c | none => 0
    let seq := (s.activeSlot.2 + 1) % 2 ^ 32
    ∃ t, exec .updateSlotEnd s = .next t ∧ t.load.update = none ∧ Answered w s t 0 [BitVec.ofNat 32 slot, BitVec.ofNat 32 seq] ∧
      t.slotCopy c = some (seq, slot) ∧
      ∀ a, a < 0x1000000 * c ∨ 0x1000000 * c + 0x1000 ≤ a → sget flashDefault t.flash a = sget flashDefault s.flash a))

/-- R40-R42, R396-R399: SET_MODE follows the transitions of R41. ATTRACT is entered and left at once; a mode entry begins at
step 1 and is acknowledged later; SERVICE stops the stages first; the mode the device is in is acknowledged with OK; every other
request is NOT_PERMITTED, or BUSY in M4. -/
def Obligations.SetModeFollowsTheTransitions : Prop :=
  ∀ (w : Nat) (s : State), HostAsks w 4 2 [0xF] s →
    let n := (s.arg w 1).toNat % 2 ^ 4
    let run := s.mode = .run ∨ s.mode = .degraded
    (12 ≤ n → ∃ t, exec (.setMode w) s = .next t ∧ OnlyMail w s t ∧ Answered w s t 0x81 []) ∧
    (n < 12 → s.mode = .retune → ∃ t, exec (.setMode w) s = .next t ∧ OnlyMail w s t ∧ Answered w s t 0x40 []) ∧
    (s.mode ≠ .retune → n = s.mode.num → ∃ t, exec (.setMode w) s = .next t ∧ OnlyMail w s t ∧ Answered w s t 0 []) ∧
    (s.mode ≠ .retune → n ≠ s.mode.num →
      n ∈ [0, 1, 2, 4, 6] ∨ (n ∈ [3, 5] ∧ s.mode ≠ .attract) ∨ (n ∈ [7, 11] ∧ ¬run) ∨ (n ∈ [8, 9, 10] ∧ ¬run ∧ s.mode ≠ .attract) →
      ∃ t, exec (.setMode w) s = .next t ∧ OnlyMail w s t ∧ Answered w s t 0x43 []) ∧
    (n = 7 → run → ∃ t, exec (.setMode w) s = .next t ∧ t.mode = .attract ∧ Answered w s t 0 [] ∧ t.mem = s.mem) ∧
    (n ∈ [3, 5] → s.mode = .attract → ∃ t, exec (.setMode w) s = .next t ∧ Answered w s t 0 [] ∧ t.mem = s.mem ∧
      t.mode = if s.anyShed ∨ s.power.shedAway = true then .degraded else .run) ∧
    (n = 11 → run → ∃ t, exec (.setMode w) s = .next t ∧
      (t.mode = .service ∨ (t.mode = s.mode ∧ t.power.target = .service ∧ t.power.asker = some w)) ∧
      (∀ i, i < 4 → (s.stage i).phase = .running → (t.stage i).stopReq = true)) ∧
    (∀ m, (m, n) ∈ [(Mode.doze, 8), (.sleep, 9), (.deep, 10)] → (run ∨ s.mode = .attract) →
      exec (.setMode w) s = .next { s with
        power := { s.power with step := 1, target := m, left := s.mode, wakes := [], asker := some w } })

/-- R319, R387, R394: SHED of a whole stage unloads it, SHED of a unit marks the logical unit SHED, SHED of voices takes the
number asked for; each takes M3 to M5 and is acknowledged. A unit that is not bound or is shed already is NO_UNIT. -/
def Obligations.ShedTakesUnitsOut : Prop :=
  ∀ (w : Nat) (s : State), HostAsks w 5 3 [0xFFFF03, 0xFFFF] s →
    (s.mode = .run ∨ s.mode = .degraded) →
    let i := (s.arg w 1).toNat % 4
    let a := (s.arg w 1).toNat / 2 ^ 8 % 2 ^ 8
    let l := (s.arg w 1).toNat / 2 ^ 16 % 2 ^ 8
    let b := if a = 1 then l else if a = 2 then 16 + l else if a = 4 then 27 + l else 26
    (a = 6 → (s.stage i).phase ≠ .empty → ∃ t, exec (.shed w) s = .next t ∧ Answered w s t 0 [] ∧
      (t.stage i).loaded = false ∧ t.mode = .degraded) ∧
    (a = 3 → 0 < (s.arg w 2).toNat % 2 ^ 16 → 0 < (s.stage i).voiceCount → ∃ t, exec (.shed w) s = .next t ∧ Answered w s t 0 [] ∧
        (t.stage i).voiceCount = (s.stage i).voiceCount - (s.arg w 2).toNat % 2 ^ 16 ∧ t.mode = .degraded) ∧
    (((a = 1 ∧ l < 16) ∨ (a = 2 ∧ l < 8) ∨ (a = 4 ∧ l < 8) ∨ a = 5) →
      (((s.stage i).bind b).bound = true → ((s.stage i).bind b).shed = false → ∃ t, exec (.shed w) s = .next t ∧
        Answered w s t 0 [] ∧ ((t.stage i).bind b).shed = true ∧ ((t.stage i).bind b).bound = false ∧ t.mode = .degraded) ∧
      (((s.stage i).bind b).bound = false ∨ ((s.stage i).bind b).shed = true →
        ∃ t, exec (.shed w) s = .next t ∧ OnlyMail w s t ∧ Answered w s t 0x85 []))

/-! ### Mailboxes and router (spec/12_interrupts_mailboxes.md) -/

/-- R314, R315: of the claims of an IDLE mailbox the lowest target is granted, but a stage Pip's none on MB20 and MB21 while the
host has been refused; a mailbox that is not IDLE grants none. A host claim that is not granted is remembered. R314-R317: the
life of a message: its sender posts it, its receiver acknowledges it, its sender releases the mailbox; a claim lapses and the
Warden's FORCE abandons a message. Each touches that mailbox alone. R315: a doorbell, an acknowledgement or a release that the
mailbox does not allow is ignored but for WRONG_WRITER and BAD_STATE. -/
def Obligations.MailboxesCarryMessages : Prop :=
  (
  ∀ (m : Nat) (ts : List Nat) (s : State), m < 24 →
    let b := s.mb m
    let may := ts.filter fun t => s.mbReach t m && !(decide (t < 20) && (m == 20 || m == 21) && b.hostRefused)
    ∃ t, exec (.mbClaim m ts) s = .next t ∧ t = { s with mbox := t.mbox } ∧ (∀ k, k ≠ m → t.mb k = s.mb k) ∧
      t.mb m = { b with state := (t.mb m).state, sender := (t.mb m).sender, hostRefused := (t.mb m).hostRefused } ∧
      (b.state = .idle → ∀ w, w ∈ may → (∀ v, v ∈ may → w ≤ v) → (t.mb m).state = .claimed ∧ (t.mb m).sender = w) ∧
      (b.state ≠ .idle ∨ may = [] → (t.mb m).state = b.state ∧ (t.mb m).sender = b.sender) ∧
      ((t.mb m).hostRefused = true ↔ b.hostRefused = true ∨
        ∃ h, h ∈ ts ∧ 22 ≤ h ∧ s.mbReach h m = true ∧ ¬(b.state = .idle ∧ (t.mb m).sender = h))) ∧
  (
  ∀ (m t : Nat) (v : Word) (s : State), m < 24 →
    let b := s.mb m
    (s.mbReach t m = true → b.state = .claimed → b.sender = t →
      exec (.mbDoorbell m t v) s = .next (s.setMb m { b with
        state := .posted, ackPri := v.toNat / 2 ^ 8 % 2 ^ 3, posted := s.tally.count.extractLsb' 0 32
        count := if v.toNat % 16 = 0 then 1 else min (v.toNat % 16) 8 })) ∧
    (b.state = .posted → s.mbReach m m = true → ∃ r, exec (.mbAck m m v) s = .next (s.setMb m { b with state := .done, result := r }) ∧
      ∀ i, i < 32 → bit r i = if 16 ≤ i then bit v i else (min (v.toNat % 16) 8).testBit i) ∧
    (s.mbReach t m = true → (b.state = .claimed ∨ b.state = .done) → b.sender = t →
      exec (.mbRelease m t) s = .next (s.setMb m { b with state := .idle, hostRefused := false })) ∧
    (b.state = .claimed →
      exec (.mbClaimLapse m) s = .next (s.setMb m { b with state := .idle, hostRefused := false, err := b.err ||| 8 })) ∧
    (∀ w : Nat, w < 2 → (m = 20 ∨ m = 21 → s.serving (m - 20) = false) → exec (.mbReleaseForce m (.warden w)) s =
      .next (s.setMb m { b with state := .idle, hostRefused := false, err := b.err ||| 4 }))) ∧
  (
  ∀ (m t : Nat) (v : Word) (s : State), m < 24 → s.mbReach t m = true →
    let b := s.mb m
    ∀ p ∈ ([ (.mbDoorbell m t v, decide (b.state = .claimed), t == b.sender), (.mbAck m t v, decide (b.state = .posted), t == m),
             (.mbRelease m t, decide (b.state = .claimed ∨ b.state = .done), t == b.sender) ] : List (Instr × Bool × Bool)),
      (p.2.1 && p.2.2) = false →
      exec p.1 s = .next (s.setMb m { b with err :=
        b.err ||| (if t ≠ b.sender ∧ t ≠ m then 1 else 0) ||| (if p.2.1 then 0 else 2) }))

/-- R301, R305: a sampled source becomes pending by its SENSE: a level by its level while no target serves it, an edge when its
input changes the selected way, each of its edges an event. No other source changes. R308, R312: a stage's software sets and
clears its own software sources; a write to another stage's is blocked and reported. -/
def Obligations.SourcesBecomePending : Prop :=
  (
  ∀ (n : Nat) (s : State),
    let q := s.irq n
    let now := s.sourceInput n
    let sense := s.irqSense n
    let high := if sense = 1 then !now else now
    ∃ t, exec (.irqSourceEvent n) s = .next t ∧ t = { s with irqs := t.irqs, pe := t.pe } ∧
      (∀ k, k ≠ n → t.irq k = s.irq k) ∧ (t.irq n).input = now ∧ (t.irq n).active = q.active ∧ (t.irq n).accTgt = q.accTgt ∧
      (sense = 2 → (t.irq n).pending = (q.pending || (now && !q.input))) ∧
      (sense = 3 → (t.irq n).pending = (q.pending || (!now && q.input))) ∧
      (sense = 4 → (t.irq n).pending = (q.pending || now != q.input)) ∧
      (∀ e : Bool, (sense = 2 ∧ e = (now && !q.input)) ∨ (sense = 3 ∧ e = (!now && q.input)) ∨ (sense = 4 ∧ e = (now != q.input)) →
        (t.irq n).events = q.events + e.toNat) ∧
      (sense ≠ 2 → sense ≠ 3 → sense ≠ 4 → (t.irq n).pending = (high && !q.active))) ∧
  (
  ∀ (i : Initiator) (n : Nat) (v : Word) (s : State),
    (s.mayWrite i (some n) = true →
      exec (.irqSwset i n v) s = .next (s.setDreg (0x13003100 + 4 * n) (s.dreg (0x13003100 + 4 * n) ||| v)) ∧
      exec (.irqSwclr i n v) s = .next (s.setDreg (0x13003100 + 4 * n) (s.dreg (0x13003100 + 4 * n) &&& ~~~v))) ∧
    (s.mayWrite i (some n) = false →
      exec (.irqSwset i n v) s = .next (s.accViol i (0x13003100 + 4 * n)) ∧
      exec (.irqSwclr i n v) s = .next (s.accViol i (0x13003110 + 4 * n))))

/-- R302, R304: a claim accepts the source presented to the target, which is a deliverable one of the highest priority, then of
the lowest number; it is in service from then on and not pending. R305, R313: once MIN_INT has run out and a source is held no
more, a host whose set of deliverable sources of a priority has become non-empty is sent that priority's vector, or has it
pending while its entry is masked. R303: an end of interrupt from the target that accepted the source ends its service and
samples a level source again, and an edge source stays pending if it became so; one from any other target, or of a source not in
service, sets BAD_EOI of the writer and ends nothing. -/
def Obligations.SourcesAreServed : Prop :=
  (
  (∀ (k : Nat) (s : State), k < 24 →
    (∀ n, s.presented k = some n →
      (s.deliverable n = true ∧ s.irqTarget n = k ∧ ∀ j, j ∈ s.irqs.map Prod.fst → s.deliverable j = true → s.irqTarget j = k →
        s.irqPri j < s.irqPri n ∨ (s.irqPri j = s.irqPri n ∧ n ≤ j)) ∧
      ∃ t, exec (.irqClaim k) s = .next t ∧ t = { s with irqs := t.irqs, pe := t.pe } ∧ (k < 22 → t.pe = s.pe) ∧
        (∀ j, j ≠ n → t.irq j = s.irq j) ∧
        t.irq n = { s.irq n with
          pending := false, active := true, accTgt := k, events := 0, ta := s.root / 8, pulse := false
          input := (s.irq n).input && !pulseSource n }) ∧
    (s.presented k = none → exec (.irqClaim k) s = .next s)) ∧
  (∀ (n : Nat) (s : State),
    (s.isPending n = true → s.isHeld n = false → ∃ t, exec (.moderationRelease n) s = .next t ∧ t = { s with pe := t.pe } ∧
      ∀ h p : Nat, h < 2 → p < 8 →
        let e := vget {} s.pe h
        let e' := vget {} t.pe h
        let full := (s.deliverables (22 + h)).any fun j => s.irqPri j == p
        e'.nonEmpty.getLsbD p = full ∧ e'.msix = e.msix ∧ e'.status = e.status ∧
        let goes := full && !e.nonEmpty.getLsbD p
        let masked := bit (sget (fun k => if k % 4 = 3 then 1 else 0) e.msix (4 * p + 3)) 0
        e'.pba.getLsbD p = (e.pba.getLsbD p || (goes && masked)) ∧
        sget (fun _ => 0) e'.sent p = sget (fun _ => 0) e.sent p + (goes && !masked).toNat) ∧
    (s.isPending n = false ∨ s.isHeld n = true → exec (.moderationRelease n) s = .next s))) ∧
  (
  ∀ (k n : Nat) (s : State), k < 24 →
    ((s.irq n).active = true → (s.irq n).accTgt = k → ∃ t, exec (.irqEoi k n) s = .next t ∧
      t = { s with irqs := t.irqs, pe := t.pe } ∧ (t.irq n).active = false ∧ (t.irq n).accTgt = 31 ∧
      (t.irq n).pending = (if s.irqSense n ∈ [2, 3, 4] then (s.irq n).pending
        else if s.irqSense n = 1 then !s.sourceInput n else s.sourceInput n) ∧ ∀ j, j ≠ n → t.irq j = s.irq j) ∧
    ((s.irq n).active = false ∨ (s.irq n).accTgt ≠ k → ∃ t, exec (.irqEoi k n) s = .next t ∧
      t = { s with badEoi := t.badEoi, pe := t.pe } ∧ ∀ i, i < 24 → t.badEoi.getLsbD i = (s.badEoi.getLsbD i || i == k)))

/-! ### Memory, beam ports, layers, sprites and Prism (spec/03-07) -/

/-- R90, R93-R96: scrub reads the next word in turn of a memory whose scrub is on. A good word stays; one with one or two symbol
errors is put right and counts in CE_COUNT; one with more counts in UE_COUNT, and its address is captured unless one is held, or
is read and written back wrong and counts as put right. Another word, or scrub that is off or pauses, changes nothing. LP5X
falls to power-down and self-refresh while every stage tolerates it, and comes back. -/
def Obligations.MemoryCountsErrorsAndRests : Prop :=
  (∀ (w : Nat) (ce ue : Bool) (s : State),
    let a := 32 * w
    let orch := a < 0x8000000
    let r := if orch then 0x11000000 + a / 0x2000000 * 0x400000 + 0x1F0000 else 0x10005000 + 0x10 * ((a - 0x100000000) / 256 % 4)
    let k := if orch then a % 0x2000000 / 32 else (a - 0x100000000) / 32
    let next (t : State) : Prop :=
      (orch → (t.sector (a / 0x2000000)).scrub = (k + 1) % 0x100000) ∧
      (¬orch → t.lpx.scrub = (k + 1) % (lpxUsable s.lpx.rawGib / 32))
    let only (t : State) : Prop := next t ∧ t = { s with
      regs := t.regs, mem := t.mem, errs := t.errs, nonce := t.nonce
      sectors := t.sectors, lpx := { s.lpx with scrub := t.lpx.scrub } } ∧
      ∀ n, n < 4 → t.sector n = { s.sector n with scrub := (t.sector n).scrub }
    let fixed (t : State) : Prop := t.symbols a = 0 ∧ (∀ b, b ≠ r → t.dreg b = s.dreg b) ∧
      (t.dreg r).extractLsb' 0 16 = (s.dreg r).extractLsb' 0 16 ∧ fld (t.dreg r) 16 16 = min (fld (s.dreg r) 16 16 + 1) 0xFFFF
    let n := max (s.symbols a) (if ue then 3 else if ce then 1 else 0)
    s.isMem a = true → s.damaged [(a, 32)] = (if s.symbols a = 0 then [] else [a]) →
    (s.scrubs a = true →
      (n = 0 → ∃ t, exec (.scrubRead w ce ue) s = .next t ∧ only t ∧ t.mem = s.mem ∧ t.regs = s.regs ∧ t.errs = s.errs) ∧
      (1 ≤ n → n ≤ 2 → ∃ t, exec (.scrubRead w ce ue) s = .next t ∧ only t ∧ t.mem = s.mem ∧ fixed t) ∧
      (3 ≤ n → ∃ t, exec (.scrubRead w ce ue) s = .next t ∧ only t ∧
        ((MemKeptOutside s t a 32 ∧ fixed t) ∨
         (t.mem = s.mem ∧ t.symbols a = n ∧ (∀ b, b ≠ r → b ≠ r + 4 → t.dreg b = s.dreg b) ∧
          fld (t.dreg r) 8 8 = min (fld (s.dreg r) 8 8 + 1) 0xFF ∧
          (∀ i, i < 32 → (i < 8 ∨ 16 ≤ i) → bit (t.dreg r) i = bit (s.dreg r) i) ∧
          t.dreg (r + 4) = if bit (s.dreg (r + 4)) 31 then s.dreg (r + 4) else BitVec.ofNat 32 (0x80000000 + k % 2 ^ 30))))) ∧
    (s.scrubs a = false → exec (.scrubRead w ce ue) s = .next s)) ∧
  ∀ s : State, s.lpx.trained = true →
    (s.lpx.state = 0 → s.tolerates 100 = true → exec .lpxPowerDown s = .next { s with lpx := { s.lpx with state := 1 } }) ∧
    (s.lpx.state ≤ 1 → s.tolerates 3000 = true → exec .lpxSelfRefresh s = .next { s with lpx := { s.lpx with state := 2 } }) ∧
    ((s.lpx.state = 1 ∨ s.lpx.state = 2) → s.mode ≠ .sleep → s.mode ≠ .doze → s.power.step ≠ 4 →
      exec .lpxPowerExit s = .next { s with lpx := { s.lpx with state := 0 } }) ∧
    ((s.mode = .sleep ∨ s.mode = .doze) → s.power.step ≠ 6 → exec .lpxPowerExit s = .next s)

/-- R109, R110, R118: COMMIT puts a staging copy that passes R53 and R105 and keeps to the outputs and lanes of the primary
record into the pending slot, and refuses any other with REJECT and TIMING, the pending one kept; REVERT loads the timing in
force into the staging copy. -/
def Obligations.TimingsAreCommittedOrRefused : Prop :=
  ∀ (i : Nat) (s : State), i < 4 →
    let x := s.stage i
    let p := x.beam.primary
    let t := x.staged
    let passes := t.ok53 x.twin = true ∧ t.ok105 x.twin = true ∧ (t.dp = true → p.dp = true) ∧ (t.hdmi = true → p.hdmi = true) ∧
      (t.analog = true → p.analog = true) ∧ t.lanes ≤ p.lanes
    (passes → ∃ u, exec (.timCommit i) s = .next u ∧ OnlyStage i s u ∧
      u.stage i = { x with beam := { x.beam with pending := some t } }) ∧
    (¬ passes → ∃ u, exec (.timCommit i) s = .next u ∧ OnlyStage i s u ∧ u.stage i = { x with regs := (u.stage i).regs } ∧
      bit ((u.stage i).reg 0x434) 1 = true ∧ bit ((u.stage i).reg 0x40C) 2 = true ∧
      ∀ o j, j < 32 → (o, j) ≠ (0x434, 1) → (o, j) ≠ (0x40C, 2) → bit ((u.stage i).reg o) j = bit (x.reg o) j) ∧
    (∀ y : Stage, x.beam.inForce = y.staged → ∃ u, exec (.timRevert i) s = .next u ∧ OnlyStage i s u ∧
      u.stage i = { x with regs := (u.stage i).regs } ∧ (u.stage i).staged = y.staged ∧
      ∀ o, o ∉ [0x410, 0x414, 0x418, 0x41C, 0x420, 0x424, 0x428, 0x42C] → (u.stage i).reg o = x.reg o)

/-- R31, R106, R109, R114, R115, R126: the raster goes from line to line, composes the line after the one it reaches, and begins
a new frame, in the other field if interlaced, with the timing that waits for it, a committed one before the port controller's
own; a change of the pixel clock holds it for a relock, which ends at line 0. -/
def Obligations.RasterAdvances : Prop :=
  ∀ (i : Nat) (s : State), i < 4 → (s.stage i).beam.run = true →
    let x := s.stage i
    let b := x.beam
    let n := b.inForce.lines b.field
    (∀ ue, b.hold = false → b.nextLine < n → ∃ t, exec (.lineSamplePoint i ue) s = .next t ∧
      (s.errs = [] → ue = [] → t.mem = s.mem) ∧
      (t.stage i).beam = { b with line := b.nextLine, nextLine := b.nextLine + 1, lineAt := s.root } ∧ (∀ j, j ≠ i → t.stage j = s.stage j) ∧
      (x.reg 0x408 = BitVec.ofNat 32 b.nextLine → bit ((t.stage i).reg 0x40C) 1 = true) ∧
      (x.live = true →
        (b.nextLine + 1 < n → b.nextLine + 1 < b.inForce.vactive →
          ∃ c, (t.stage i).prism.comp = some c ∧ c.y = b.nextLine + 1) ∧
        (b.nextLine + 1 = n → 0 < (b.nextTiming.getD b.inForce).vactive → ∃ c, (t.stage i).prism.comp = some c ∧ c.y = 0))) ∧
    (b.hold = false → b.nextLine = n → ∃ t, exec (.frameBoundary i) s = .next t ∧ OnlyStage i s t ∧
      (t.stage i).beam.nextLine = 0 ∧ (t.stage i).beam.latched = false ∧ (t.stage i).beam.run = true ∧
      (b.nextTiming = none → (t.stage i).beam.inForce = b.inForce ∧ (t.stage i).beam.hold = false ∧
        (t.stage i).beam.field = (b.inForce.interlace && !b.field)) ∧
      (∀ tm, b.nextTiming = some tm → (t.stage i).beam.inForce = tm ∧ (t.stage i).beam.nextTiming = none ∧ (t.stage i).beam.field = false ∧
        (t.stage i).beam.hold = decide (tm.pixclk ≠ b.inForce.pixclk) ∧ bit ((t.stage i).reg 0x40C) 2 = true)) ∧
    (b.hold = true → ∃ t, exec (.holdEnd i) s = .next t ∧ OnlyStage i s t ∧
      (t.stage i).beam = { b with hold := false, locked := true, line := 0, nextLine := 0, lineAt := s.root, latched := false } ∧
      bit ((t.stage i).reg 0x40C) 2 = true)

/-- R109, R111, R114, R183, R185: the latch instant of a running stage is counted; the pending timing waits for its frame
boundary; the registers of class 2 come into force; an armed slot of no group whose fence is reached flips. -/
def Obligations.LatchInstantCommits : Prop :=
  ∀ (i : Nat) (s : State), i < 4 → s.power.step = 0 → s.power.target ≠ .service →
    let x := s.stage i
    let b := x.beam
    b.run = true → b.hold = false → b.latched = false → b.line = b.inForce.latchAt b.field →
    x.live = true → x.restart = false → x.stopReq = false →
    ∃ t, exec (.latchInstant i) s = .next t ∧ OnlyStage i s t ∧
      (t.stage i).beam = { b with
        latched := true, frame := b.frame + 1, pending := none, waiting := b.pending.orElse fun _ => b.waiting
        latchNow := true } ∧
      bit ((t.stage i).reg 0x40C) 0 = true ∧
      (∀ o, (∀ p, p < 8 → o ≠ spriteBase p + 0x1C) → (t.stage i).latched o = x.reg o) ∧
      (∀ k, k < 24 → x.prism.armed.getLsbD k = true → x.srcBound k = true → x.flipGroup k = none →
        let c := sget (fun _ => ({} : FlipCap)) x.prism.caps k
        (c.nofence = true ∨ x.fenceReached c.fence c.target = true →
          (t.stage i).prism.armed.getLsbD k = false ∧ bit ((t.stage i).reg (prismBase + 0x4A4)) k = true ∧
          (t.stage i).reg (x.flipTarget k) = BitVec.ofNat 32 c.addr ∧
          (t.stage i).reg (x.flipTarget k + 4) = BitVec.ofNat 32 (c.addr / 2 ^ 32)) ∧
        (c.nofence = false → x.fenceReached c.fence c.target = false →
          (t.stage i).prism.armed.getLsbD k = true ∧ bit ((t.stage i).reg (prismBase + 0x4A0)) k = true))

/-- R34, R35, R102, R181, R199: at a segment boundary the mix goes on to the next segment, and after the last to the next line;
outside the active lines it gives nothing, and black from a stage that is not running, is frozen or whose Prism has failed. The
costs of a composed layer line and of a drawn sprite line are recorded with their maxima. -/
def Obligations.SegmentsAreMixed : Prop :=
  ∀ (i : Nat) (s : State), i < 4 →
    let x := s.stage i
    let tm := x.mixTiming
    let p := x.prism
    let pix := x.segPixels tm p.mixSeg
    (∀ late, x.beam.run = true → x.beam.hold = false → x.mixHeld = false → tm.segPix x.twin ≠ 0 →
      ∃ t, exec (.segmentBoundary i late) s = .next t ∧ (∀ j, j ≠ i → t.stage j = s.stage j) ∧ (t.stage i).beam = x.beam ∧
        (p.mixSeg + 1 < x.segCount tm → (t.stage i).prism.mixSeg = p.mixSeg + 1 ∧ (t.stage i).prism.mixLine = p.mixLine) ∧
        (x.segCount tm ≤ p.mixSeg + 1 → (t.stage i).prism.mixSeg = 0 ∧
          (t.stage i).prism.mixLine = if p.mixLine + 1 < tm.lines x.beam.field then p.mixLine + 1 else 0) ∧
        (tm.vactive ≤ p.mixLine → (t.stage i).prism.out = [] ∧ t.mem = s.mem) ∧
        (p.mixLine < tm.vactive → (t.stage i).prism.out.length = pix.length) ∧
        (p.mixLine < tm.vactive → x.phase ≠ .running ∨ p.frozen = true ∨ p.freezeNext = true ∨ p.dead = true →
          (t.stage i).prism.out = pix.map fun _ => blackCode tm)) ∧
    (∀ l cycles : Nat, (∃ c, p.comp = some c ∧ (c.layers.any fun e => e.1 == l) = true) →
      ∃ t, exec (.layerLineComposed i l cycles) s = .next t ∧ OnlyStage i s t ∧
        t.stage i = { x with regs := (t.stage i).regs } ∧
        (∀ o, o ≠ layerBase l + 0x84 → (t.stage i).reg o = x.reg o) ∧
        fld ((t.stage i).reg (layerBase l + 0x84)) 0 16 = min cycles 0xFFFF ∧
        fld ((t.stage i).reg (layerBase l + 0x84)) 16 16 = max (fld (x.reg (layerBase l + 0x84)) 16 16) (min cycles 0xFFFF)) ∧
    (∀ k c r, p.mix = none → p.comp = some c → c.record k = some r →
      ∃ t, exec (.spriteLineDrawn i k) s = .next t ∧ OnlyStage i s t ∧
        t.stage i = { x with regs := (t.stage i).regs, cyc := (t.stage i).cyc, prism := { p with comp := some (c.recorded k) } } ∧
        fld ((t.stage i).reg (spriteBase k + 0x84)) 0 16 = min r.cost 0xFFFF ∧
        fld ((t.stage i).reg (spriteBase k + 0x8C)) 0 13 = r.drawn % 2 ^ 13 ∧
        fld ((t.stage i).reg (spriteBase k + 0x8C)) 16 13 = r.dropped % 2 ^ 13 ∧
        (r.ovf = true → bit ((t.stage i).reg (spriteBase k + 0x80)) 1 = true ∧
          fld ((t.stage i).reg (spriteBase k + 0x88)) 16 16 = min (fld (x.reg (spriteBase k + 0x88)) 16 16 + 1) 0xFFFF))

/-- R102, R107, R109, R114, R117, R118, R433: the digital output of a port: a lost link trains again at once; training that ends
well on every port of the stage shows the raster from line 0 of the next frame; an HDMI output shows it once every PLL locks,
after a change of the pixel clock from line 0 of a frame; a failed training goes on with fewer lanes, then with the fallback;
HPD is noted, and a rise trains again. The EDID controller reads a block, or answers NACK. -/
def Obligations.DigitalOutputsAndEdid : Prop :=
  (∀ (p i : Nat) (s : State), s.portStage p = some i → i < 4 →
    let x := s.stage i
    let b := x.beam
    (b.inForce.dp = true ∨ b.inForce.hdmi = true → b.trainStep = 0 → ∃ t, exec (.linkLoss p) s = .next t ∧ OnlyStage i s t ∧
      (t.stage i).beam = { b with digital := .training, trainStep := 1, showNext := false, ready := 0 } ∧
      bit ((t.stage i).reg 0x434) 11 = true ∧ bit ((t.stage i).reg 0x40C) 2 = true) ∧
    (let r := bset b.ready (if x.twin = true ∧ x.portA ≠ p then 1 else 0) true
      let all := r.getLsbD 0 = true ∧ (x.twin = true → r.getLsbD 1 = true)
      (b.digital = .training → ∃ t, exec (.linkTrainingEnd p true) s = .next t ∧ OnlyStage i s t ∧
        (all → (t.stage i).beam = { b with ready := r, digital := .black, trainStep := 0, showNext := true }) ∧
        (¬all → (t.stage i).beam = { b with ready := r })) ∧
      (b.inForce.hdmi = true → (b.digital = .black ∨ b.digital = .training) → ∃ t, exec (.tmdsPllLock p) s = .next t ∧
        OnlyStage i s t ∧
        (all → b.fromLine0 = false → (t.stage i).beam = { b with ready := r, digital := .running, trainStep := 0 }) ∧
        (all → b.fromLine0 = true → (t.stage i).beam = { b with
          ready := r, digital := .black, trainStep := 0, showNext := true, fromLine0 := false }) ∧
        (¬all → (t.stage i).beam = { b with ready := r }))) ∧
    (b.digital = .training → b.trainStep = 1 → b.inForce.dp = true → ∀ l, b.inForce.fewerLanes b.lanesNow = some l →
      ∃ t, exec (.linkTrainingEnd p false) s = .next t ∧ OnlyStage i s t ∧
        (t.stage i).beam = { b with trainStep := 2, lanesNow := l, showNext := false, ready := 0 } ∧ l < b.lanesNow ∧
        bit ((t.stage i).reg 0x40C) 2 = true) ∧
    (b.digital = .training → b.trainStep = 1 ∨ b.trainStep = 2 → b.inForce.dp = true → b.inForce.fewerLanes b.lanesNow = none →
      ∀ f, b.fallback = some f → b.fbTried = false → b.onFallback = false →
      ∃ t, exec (.linkTrainingEnd p false) s = .next t ∧ OnlyStage i s t ∧
        (t.stage i).beam = { b with trainStep := 3, linkNext := some f, fbTried := true, showNext := false, ready := 0 }) ∧
    (∀ level, s.hpd.getLsbD p ≠ level → p < 4 → ∃ t, exec (.hpdChange p level) s = .next t ∧
      t = { s with hpd := t.hpd, stages := t.stages } ∧ (∀ q, q < 4 → t.hpd.getLsbD q = if q = p then level else s.hpd.getLsbD q) ∧
      bit ((t.stage i).reg 0x40C) 2 = true ∧ (∀ j, j ≠ i → t.stage j = s.stage j) ∧
      (level = true → b.run = true → b.inForce.dp = true → b.digital ≠ .running →
        (t.stage i).beam.digital = .training ∧ (t.stage i).beam.lanesNow = b.inForce.lanes) ∧
      (level = true → b.run = true → b.onFallback = true → (t.stage i).beam.linkNext = some b.primary))) ∧
  (∀ (p : Nat) (s : State), p < 4 →
    (∀ v, ∃ t, exec (.edidRead p v) s = .next t ∧ t = { s with regs := t.regs, edidBusy := t.edidBusy } ∧
      t.edidBusy.getLsbD p = (bit v 31 || s.edidBusy.getLsbD p) ∧ (∀ q, q ≠ p → t.edidBusy.getLsbD q = s.edidBusy.getLsbD q) ∧
      t.dreg (0x1000B000 + 0x200 * p) = v &&& 0x100FF ∧ ∀ a, a ≠ 0x1000B000 + 0x200 * p → t.dreg a = s.dreg a) ∧
    (s.edidBusy.getLsbD p = true →
      (∀ bs : List Byte, bs.length = 128 → s.hpd.getLsbD p = true → ∃ t, exec (.edidReadEnd p (some bs)) s = .next t ∧
        t.edidBusy.getLsbD p = false ∧ bit (t.dreg (0x1000B004 + 0x200 * p)) 0 = true ∧
        (∀ k, k < 32 → t.dreg (0x1000B100 + 0x200 * p + 4 * k) =
          BitVec.ofNat 32 (leNat [bs.getD (4 * k) 0, bs.getD (4 * k + 1) 0, bs.getD (4 * k + 2) 0, bs.getD (4 * k + 3) 0])) ∧
        t = { s with edidBusy := t.edidBusy, regs := t.regs }) ∧
      (∀ data, data = none ∨ s.hpd.getLsbD p = false → ∃ t, exec (.edidReadEnd p data) s = .next t ∧
        t.edidBusy.getLsbD p = false ∧ bit (t.dreg (0x1000B004 + 0x200 * p)) 1 = true ∧
        (∀ a, a ≠ 0x1000B004 + 0x200 * p → t.dreg a = s.dreg a) ∧ t = { s with edidBusy := t.edidBusy, regs := t.regs })))

/-- R182, R183: ARM captures the slot's address, target and fence and arms it, ARM before CANCEL, and CANCEL disarms it; a fence
is set or added to by the stage's software, and by no one else's. -/
def Obligations.FlipsAreArmedAndFencesSet : Prop :=
  (∀ (i k : Nat) (v : Word) (s : State), i < 4 → k < 24 →
    let x := s.stage i
    let o := prismBase + 0x300 + 16 * k
    let unit := if k < 16 then 64 else 32
    (x.bind 24).bound = true → x.held = [] → x.chord.flips = [] → x.chord.arrived = [] →
    (∃ t, exec (.prismFlipArm i k v) s = .next t ∧ (∀ j, j ≠ i → t.stage j = s.stage j) ∧ t.mem = s.mem ∧
      (∀ j, j < 24 → (t.stage i).prism.armed.getLsbD j = if j = k then true else x.prism.armed.getLsbD j) ∧
      sget (fun _ => ({} : FlipCap)) (t.stage i).prism.caps k =
        { addr := ((x.reg o).toNat + (x.reg (o + 4)).toNat % 2 ^ 8 * 2 ^ 32) / unit * unit, target := x.reg (o + 8)
          fence := v.toNat % 2 ^ 8, nofence := bit v 8 }) ∧
    (bit v 31 = false → ∃ t, exec (.prismFlipCancel i k v) s = .next t ∧ (∀ j, j ≠ i → t.stage j = s.stage j) ∧ t.mem = s.mem ∧
      (∀ j, j < 24 → (t.stage i).prism.armed.getLsbD j = if j = k then false else x.prism.armed.getLsbD j) ∧
      (t.stage i).prism.caps = x.prism.caps)) ∧
  (∀ (ini : Initiator) (i f : Nat) (v : Word) (s : State), i < 4 → f < 256 →
    (s.stage i).chord.flips = [] → (s.stage i).chord.arrived = [] → (s.stage i).cyc = {} →
    (s.mayWrite ini (some i) = true →
      (∃ t, exec (.fence ini i f v) s = .next t ∧ (∀ j, j ≠ i → t.stage j = s.stage j) ∧ t.mem = s.mem ∧
        ∀ g, g < 256 → (t.stage i).reg (0x1000 + 4 * g) = if g = f then v else (s.stage i).reg (0x1000 + 4 * g)) ∧
      (∃ t, exec (.fenceAdd ini i f v) s = .next t ∧ (∀ j, j ≠ i → t.stage j = s.stage j) ∧ t.mem = s.mem ∧
        ∀ g, g < 256 → (t.stage i).reg (0x1000 + 4 * g) =
          if g = f then (s.stage i).reg (0x1000 + 4 * g) + v else (s.stage i).reg (0x1000 + 4 * g))) ∧
    (s.mayWrite ini (some i) = false →
      exec (.fence ini i f v) s = .next (s.accViol ini (0x12001000 + 0x400000 * i + 4 * f)) ∧
      exec (.fenceAdd ini i f v) s = .next (s.accViol ini (0x12001400 + 0x400000 * i + 4 * f))))

/-! ### Chord and Bramble (spec/08_chord.md, 09_bramble.md) -/

/-- R203-R206, R211-R213, R377: what an instruction of the Chord does when it issues: END and a reserved opcode stop the
program, WAIT waits for its target or is late by the segments mixed and the clock, SKIP-IF and LOOP set the PC, IRQ sets an
event. A PC past 2047 ends the program. R93, R202, R203, R206: a reload fills the store from memory, 64 bytes at a time, zeros
outside the partitions and nothing from a word read as uncorrectable on, and starts the program at instruction 0; a WAIT in
progress ends when the segment of its target is next to be mixed, and not before. -/
def Obligations.ChordProgramsRun : Prop :=
  (
  ∀ (i : Nat) (s : State), i < 4 →
    let x := s.stage i
    let c := x.chord
    let w := c.instr
    c.running = true → c.waiting = none → c.faulted = false → x.prism.frozen = false → 25 ∉ x.held →
    let ended : Chord := { c with running := false, waiting := none, never := false }
    let go (n : Nat) : Chord := if 2047 < n then ended else { c with pc := n }
    let upd (y : Stage) : State := s.setStage i y
    (c.op = 0 → exec (.chordEnd i) s = .next (upd { x with chord := ended })) ∧
    (9 ≤ c.op → exec (.badOp i) s = .next (upd { x.setRegBit 0x1A0010 3 with chord := ended })) ∧
    (c.op = 8 → exec (.chordIrq i) s = .next (upd { x.setRegBit 0x1A001C (w / 2 ^ 32 % 4) with chord := go (c.pc + 1) })) ∧
    (c.op = 5 →
      let skip := if s.qi.getLsbD (w / 2 ^ 32 % 64) = w.testBit 59 then max 1 (w % 256) else 0
      exec (.skipIf i) s = .next (upd { x with chord := go (c.pc + 1 + skip) })) ∧
    (c.op = 6 →
      let k := w / 2 ^ 56 % 4
      let old := sget (fun _ => 0) c.ctrs k
      let left := (if old = 0 then max 1 (w / 2 ^ 32 % 2 ^ 16) else old) - 1
      ∃ m, exec (.loop i) s = .next (upd { x with chord :=
          { go (if left = 0 then c.pc + 1 else w % 2 ^ 16) with ctrs := m } }) ∧
        ∀ j, sget (fun _ => 0) m j = if j = k then left else sget (fun _ => 0) c.ctrs j) ∧
    (c.op = 1 →
      let n := x.beam.inForce.lines c.latchField
      let line := if w.testBit 59 then (c.prevLine + w / 2 ^ 32 % 2 ^ 12) % (if n = 0 then 1 else n) else w / 2 ^ 32 % 2 ^ 12
      let px := w % 2 ^ 16
      let waits : Chord := { c with prevLine := line, waiting := some (line, px) }
      let late : Chord := { go (c.pc + 1) with prevLine := line }
      (x.neverDue line px = true → exec (.chordWait i) s = .next (upd { x with chord := { waits with never := true } })) ∧
      (x.neverDue line px = false →
        let a := x.targetOrder line px
        let m := x.mixOrder
        let tm := x.beam.inForce
        let ahead : Int := ((c.order tm line : Int) - c.order tm x.beam.line) * tm.portTotal x.twin + px
        let clock := ahead * 2400000000 * x.halves <
          ((s.root - x.beam.lineAt : Nat) + (c.lead + 16) * (if s.slow then 4 else 2) : Int) * tm.pixclk
        exec (.chordWait i) s = .next (upd (if a + 1 < m ∨ (a ≤ m + 1 ∧ clock) then { x.setRegBit 0x1A0010 2 with chord := late }
          else { x with chord := waits }))))) ∧
  (
  ∀ (i : Nat) (s : State), i < 4 →
    let x := s.stage i
    let c := x.chord
    (c.reloading = true →
      let n := min ((x.latched 0x1A000C).toNat % 2 ^ 12) 2048
      let base := (x.latched 0x1A0004).toNat + 2 ^ 32 * ((x.latched 0x1A0008).toNat % 2 ^ 8)
      let held (t : State) : Prop := (∀ j, j ≠ i → t.stage j = s.stage j) ∧ (t.stage i).chord =
        { c with store := (t.stage i).chord.store, reloading := false, running := !c.faulted, pc := 0, ctrs := []
                 prevLine := c.latch, waiting := none, never := false }
      s.errs = [] →
      (∃ t, exec (.chordProgramStart i none) s = .next t ∧ held t ∧ t.mem = s.mem ∧ (t.stage i).chord.store.length = n ∧
        (∀ k, k < n → x.inSegs (base + k / 8 * 64) 64 = true →
          (t.stage i).chord.store.getD k 0 = BitVec.ofNat 64 (s.le (base + 8 * k) 8)) ∧
        ∀ k, k < n → x.inSegs (base + k / 8 * 64) 64 = false → (t.stage i).chord.store.getD k 0 = 0) ∧
      (∀ w, w < 2 * ((n + 7) / 8) → base % 64 = 0 → s.isMem (base + 32 * w) = true → x.inSegs (base + w / 2 * 64) 64 = true →
        ∃ t, exec (.chordProgramStart i (some w)) s = .next t ∧ held t ∧
        ((t.mem = s.mem ∧ (t.stage i).chord.store.length = min n (4 * w) ∧ bit ((t.stage i).reg 0x1A0010) 5 = true) ∨
         (MemKeptOutside s t (base + 32 * w) 32 ∧ (t.stage i).chord.store.length = n)))) ∧
    (∀ l p, c.running = true → c.waiting = some (l, p) → c.never = false → c.faulted = false → x.prism.frozen = false →
      (x.targetOrder l p ≤ x.mixOrder + 1 → c.pc < 2047 →
        exec (.chordWaitDue i) s = .next (s.setStage i { x with chord := { c with waiting := none, pc := c.pc + 1 } })) ∧
      (x.mixOrder + 1 < x.targetOrder l p → exec (.chordWaitDue i) s = .next s)))

/-- R207, R209, R210, R212: WRITE and MASKWRITE set out and arrive after 12 to 40 cycles, not before a write sent earlier;
WRITE-CLASS0 arrives after exactly 12, and not at all at a register of another class; a fence signal arrives after 40. -/
def Obligations.ChordWritesSetOut : Prop :=
  ∀ (i : Nat) (s : State), i < 4 →
    let x := s.stage i
    let c := x.chord
    let w := c.instr
    c.running = true → c.waiting = none → c.faulted = false → x.prism.frozen = false → 25 ∉ x.held → c.pc < 2047 →
    let sent (t : State) (e : ChordWrite) (earlier : List ChordWrite) : Prop :=
      OnlyStageFree i s t ∧ t.stage i = { x with chord := { c with pc := c.pc + 1, flight := earlier ++ [e] } }
    let inOrder (e : ChordWrite) : Prop := s.fab + 12 ≤ e.due ∧ (∀ o ∈ c.flight, o.isFence = false → o.due ≤ e.due) ∧
      (e.due ≤ s.fab + 40 ∨ ∃ o ∈ c.flight, o.isFence = false ∧ o.due = e.due)
    let off := 4 * (w / 2 ^ 32 % 2 ^ 20)
    (c.op = 2 → ∃ t d, exec (.chordWrite i) s = .next t ∧
      sent t { due := d, off := off, val := BitVec.ofNat 32 w, mask := 0xFFFFFFFF } c.flight ∧
      inOrder { due := d, off := off, val := BitVec.ofNat 32 w, mask := 0xFFFFFFFF }) ∧
    (c.op = 3 →
      let k := if w.testBit 52 then 2 ^ 16 else 1
      let e (d : Nat) : ChordWrite := { due := d, off := off, val := BitVec.ofNat 32 (w % 2 ^ 16 * k)
                                        mask := BitVec.ofNat 32 (w / 2 ^ 16 % 2 ^ 16 * k) }
      ∃ t d, exec (.maskwrite i) s = .next t ∧ sent t (e d) c.flight ∧ inOrder (e d)) ∧
    (c.op = 4 →
      (isClass0 off = true → ∃ t earlier, exec (.writeClass0 i) s = .next t ∧
        sent t { due := s.fab + 12, off := off, val := BitVec.ofNat 32 w, mask := 0xFFFFFFFF } earlier ∧
        earlier.length = c.flight.length ∧ ∀ o ∈ earlier, o.isFence = false → o.due ≤ s.fab + 12) ∧
      (isClass0 off = false → exec (.writeClass0 i) s =
        .next (s.setStage i { x.setRegBit 0x1A0010 4 with chord := { c with pc := c.pc + 1 } }))) ∧
    (c.op = 7 → ∃ t, exec (.fenceSignal i) s = .next t ∧
      sent t { due := s.fab + 40, off := w / 2 ^ 32 % 2 ^ 8, val := BitVec.ofNat 32 w
               mask := if w.testBit 59 then 0xFFFFFFFF else 0, isFence := true } c.flight)

/-- R214-R217: an edge of a quick input changes its filtered level, is counted by its owner's prescaler, and fires the owner's
matching entries, in order of their numbers, 12 cycles later, the seventeenth and each next sixteen a cycle later; ONESHOT
disarms the entry. Of a stage that does not own the input, QI_CFG is not written. -/
def Obligations.QuickInputsFireReflexes : Prop :=
  (∀ (q : Nat) (level : Bool) (s : State), q < 64 → s.qi.getLsbD q ≠ level → (level = true → s.power.io33 = true) →
    let moved (t : State) : Prop := ∀ j, j < 64 → t.qi.getLsbD j = if j = q then level else s.qi.getLsbD j
    (s.qiOwner q = none → ∃ t, exec (.qiFilterAccept q level) s = .next t ∧ moved t ∧
      t = { s with qi := t.qi, qiPins := t.qiPins, qiAt := t.qiAt }) ∧
    (∀ i, s.qiOwner q = some i →
      let x := s.stage i
      let cfg := x.reg (0x1A0100 + 4 * q)
      let kind := cfg.toNat / 2 ^ 8 % 4
      let counted := if level then kind % 2 = 1 else 2 ≤ kind
      let n := sget (fun _ => 0) s.qiPresc q + 1
      let full := cfg.toNat / 2 ^ 16 % 2 ^ 8 < n
      let es := (List.range 64).filter (x.rfxMatch q level)
      ∃ t, exec (.qiFilterAccept q level) s = .next t ∧ moved t ∧ (∀ j, j ≠ i → t.stage j = s.stage j) ∧ t.mem = s.mem ∧
        (t.stage i).reg (0x1A0200 + 4 * q) = x.reg (0x1A0200 + 4 * q) + (if counted ∧ full then 1 else 0) ∧
        sget (fun _ => 0) t.qiPresc q = (if counted then if full then 0 else n else n - 1) ∧
        (x.chord.faulted = false → x.reflexOn = true → x.cyc.edges = [] → (∀ g ∈ x.chord.reflex, g.edge ≠ s.fab) →
          (es = [] → (t.stage i).chord.reflex = x.chord.reflex) ∧
          (0 < es.length → es.length ≤ 16 → (t.stage i).chord.reflex = (x.chord.reflex.filter fun g => g.due ≤ s.fab + 12) ++
            [{ edge := s.fab, due := s.fab + 12, entries := es.map fun e => (e, x.rfxWrites (s.fab + 12) e) }] ++
            x.chord.reflex.filter fun g => s.fab + 12 < g.due) ∧
          (∀ r e, es[r]? = some e → ∃ g ∈ (t.stage i).chord.reflex, g.edge = s.fab ∧ g.due = s.fab + 12 + r / 16 ∧
            (e, x.rfxWrites (s.fab + 12) e) ∈ g.entries) ∧
          ∀ e, e ∈ es → bit ((t.stage i).reg (0x1A1000 + 64 * e)) 0 = !bit (x.reg (0x1A1000 + 64 * e)) 24) ∧
        (x.chord.faulted = true → (t.stage i).chord.edges = x.chord.edges ++ [(q, level)]))) ∧
  (∀ (i : Nat) (g : ReflexGroup) (r : List ReflexGroup) (w : ChordWrite) (e : Nat) (s : State), i < 4 →
    let x := s.stage i
    x.chord.reflex = g :: r → g.due ≤ s.fab → g.entries = [(e, [w])] →
    x.chord.flips = [] → x.chord.others = [] → x.held = [] →
    (isClass0 w.off = true → x.unboundAt w.off = false → ∀ row, stageRow w.off = some row →
      ∃ t, exec (.reflexDelivery i) s = .next t ∧ (t.stage i).chord.reflex = r ∧ (∀ j, j ≠ i → t.stage j = s.stage j) ∧
        t.mem = s.mem ∧ (t.stage i).reg w.off = row.write (x.reg w.off) w.val w.mask) ∧
    (isClass0 w.off = false → exec (.reflexDelivery i) s =
      .next (s.setStage i ({ x with chord := { x.chord with reflex := r } } |>.setRegBit 0x1A0010 4)))) ∧
  (∀ (ini : Initiator) (i q : Nat) (v : Word) (s : State), i < 4 → q < 64 → s.mayWrite ini (some i) = true →
    let x := s.stage i
    (x.bind 25).bound = true → x.held = [] → x.chord.flips = [] →
    x.chord.arrived = [] →
    (x.qiOwn.getLsbD q = true → ∃ t, exec (.qiCfgWrite ini i q v) s = .next t ∧ (t.stage i).reg (0x1A0100 + 4 * q) = v &&& 0xFF03FF ∧
      sget (fun _ => 0) t.qiPresc q = 0 ∧ (∀ j, j ≠ i → t.stage j = s.stage j) ∧ t.mem = s.mem) ∧
    (x.qiOwn.getLsbD q = false → ∃ t, exec (.qiCfgWrite ini i q v) s = .next t ∧ bit ((t.stage i).reg 0x1A0010) 7 = true ∧
      (t.stage i).reg (0x1A0100 + 4 * q) = x.reg (0x1A0100 + 4 * q) ∧ (∀ j, j ≠ i → t.stage j = s.stage j) ∧ t.mem = s.mem))

/-- R223, R224, R237, R244: a block boundary takes the snapshot of the sound fields and begins a block; a strobe, of a beam-
locked stage when its accumulator is full, puts out the sample mixed 16 strobes before; a voice-class step, from its sample on,
puts LEVEL and PAN in force; VOICE_FEED adds to FILL and saturates. -/
def Obligations.SoundGoesBlockByBlock : Prop :=
  ∀ (i : Nat) (s : State), i < 4 →
    let x := s.stage i
    let d := x.sound
    (∀ late ue, d.started = true → d.blocks * 16 = d.strobe → ∃ t, exec (.blockBoundary i late ue) s = .next t ∧
      (t.stage i).sound.blocks = d.blocks + 1 ∧ (t.stage i).sound.snap = x.sndSnap ∧ (t.stage i).sound.strobe = d.strobe ∧
      (t.stage i).sound.queue = d.queue ∧ (t.stage i).chord = x.chord ∧ (t.stage i).beam = x.beam ∧
      ∀ j, j ≠ i → t.stage j = s.stage j) ∧
    (d.started = true → d.muted = false → d.stopRamp = none → d.blocks = d.strobe / 16 + 1 → d.queue.length = 16 →
      x.strobeDue = true → x.phase ≠ .empty → ∃ t new, exec (.sampleStrobe i) s = .next t ∧ OnlyStageFree i s t ∧
        (t.stage i).sound.strobe = d.strobe + 1 ∧ (t.stage i).sound.queue = d.queue.tail ++ [new] ∧
        (t.stage i).sound.lastAt = s.root ∧ (t.stage i).sound.past = [d.out] ∧
        let home := ∃ k, x.homeEntry = some k ∧ x.entrySilent k = false
        (home → (t.stage i).sound.out = d.queue.headD []) ∧
        (¬home → (t.stage i).sound.out = (d.queue.headD []).map fun e => (e.1, 0, 0))) ∧
    (d.started = true → d.blocks = d.strobe / 16 + 1 → x.strobeDue = false → exec (.sampleStrobe i) s = .next s) ∧
    (∀ v, d.stepDue v = false → exec (.voiceClassStep i v) s = .next (s.setStage i x)) ∧
    (∀ v a, (d.voice v).stepAt = some a → 16 * (d.blocks - 1) + a ≤ d.strobe → ∃ t, exec (.voiceClassStep i v) s = .next t ∧
      OnlyStage i s t ∧
      t.stage i = { x with sound := { d with voices := (t.stage i).sound.voices } } ∧
      ((t.stage i).sound.voice v) = { d.voice v with
        level := d.eff (voiceBase v + 8), pan := min 256 ((d.eff (voiceBase v + 0xC)).toNat % 2 ^ 9), pend := false, pendT := 0
        stepAt := none, stepTo := (d.voice v).stepLate } ∧
      ∀ u, u ≠ v → (t.stage i).sound.voice u = d.voice u) ∧
    (∀ ini v n, v < 1024 → s.mayWrite ini (some i) = true → x.voiceBound v = true → x.held = [] → x.chord.flips = [] →
      x.chord.arrived = [] →
      let size := 2 ^ max 12 (min 24 ((d.eff (voiceBase v + 0x68)).toNat / 2 ^ 24 % 2 ^ 5))
      let fill := (d.voice v).fill + n.toNat % 2 ^ 25
      ∃ t, exec (.voiceFeed ini i v n) s = .next t ∧ ((t.stage i).sound.voice v).fill = min size fill ∧
        (size < fill → bit ((t.stage i).reg (voiceBase v + 0x80)) 3 = true) ∧
        (∀ u, u ≠ v → (t.stage i).sound.voice u = d.voice u) ∧ (∀ j, j ≠ i → t.stage j = s.stage j) ∧ t.mem = s.mem)

/-! ### Vine, asset store, Ledger and Press (spec/13_vine_and_store.md, 14_press.md) -/

/-- R12, R322, R324, R332, R338: START of a direct channel fetches the descriptor at CHAN_DESC and runs it, or ends it with the
code of an invalid one; ABORT stops the channel. START of a running channel and ABORT of a stopped one do nothing to it. -/
def Obligations.ChannelsStartAndStop : Prop :=
  ∀ (ini : Initiator) (c : Nat) (s : State), c < 64 →
    (s.mayChan ini c = true →
      let v := s.chan c
      let a := (s.dreg (chanReg c 8)).toNat + 2 ^ 32 * ((s.dreg (chanReg c 0xC)).toNat % 2 ^ 8)
      let d := words64 (s.bytes a 32)
      (v.run = true → exec (.chanStart ini c) s = .next s) ∧
      (v.run = false → v.park = false → s.ringMode c = false → s.isMem a = true → s.isMem (a + 31) = true →
        (c < 56 → (s.stage (c / 14)).inSegs a 32 = true) → s.damaged [(a, 32)] = [] →
        (s.descCode c d = 0 → descOp d ≠ 3 → assetSide d = none → exec (.chanStart ini c) s = .next (s.setChan c
          { v with run := true, busy := true, cur := a, ring := none, next := none, desc := d })) ∧
        (s.descCode c d ≠ 0 → ∃ t, exec (.chanStart ini c) s = .next t ∧ (t.chan c).run = false ∧ (t.chan c).busy = false ∧
          (t.chan c).code = s.descCode c d ∧ (t.chan c).cur = a ∧ bit (t.dreg (chanReg c 0x18)) 1 = true ∧
          ∀ k, k ≠ c → t.chan k = s.chan k)) ∧
      (v.run = true → ∃ t, exec (.chanAbort ini c) s = .next t ∧ (t.chan c).run = false ∧ (t.chan c).busy = false ∧
        (v.busy = false → (t.chan c).code = 1 ∧ (t.chan c).resid = 0 ∧ bit (t.dreg (chanReg c 0x18)) 2 = true)) ∧
      (v.run = false → ∃ t, exec (.chanAbort ini c) s = .next t ∧ t.chan c = { v with todo := (t.chan c).todo } ∧ t.mem = s.mem)) ∧
    (s.mayChan ini c = false → (∀ p, ini ≠ .host p) →
      exec (.chanStart ini c) s = .next (s.accViol ini (chanReg c 4)) ∧
      exec (.chanAbort ini c) s = .next (s.accViol ini (chanReg c 4)))

/-- R323, R324, R327, R338: a fill or a copy that comes to its end, with no symbol error in memory, has written each byte of its
destination rows, and no other byte of memory; the last one of a direct list stops the channel with OK, counted, with DONE if it
asks for it. -/
def Obligations.DescriptorsMoveBytes : Prop :=
  ∀ (c : Nat) (asset : List Byte) (s : State), c < 64 →
    let v := s.chan c
    let d := v.desc
    let total := descTotal d
    let flags := dfld d 0 0 5
    let source (k : Nat) : Byte :=
      if descOp d = 1 then BitVec.ofNat 8 (dfld d 1 (8 * (k % max 1 (descLen d) % 4)) 8)
      else if sideAsset d 1 then asset.getD k 0 else s.byte (sideByte d 1 k)
    v.run = true → v.busy = true → v.todo = [] → s.cmdsOut c = [] → v.ring = none → (flags = 1 ∨ flags = 3) →
    (s.dreg (chanReg c 0x10) = 0 ∧ s.dreg (chanReg c 0x14) = 0) → descOp d ≤ 1 → sideAsset d 2 = false →
    (∀ k, k < total → s.vineCode c (sideByte d 2 k) = 0 ∧ windowStage (sideByte d 2 k) = none) →
    (∀ j k, j < k → k < total → sideByte d 2 j ≠ sideByte d 2 k) → s.errs = [] →
    (descOp d = 0 → if sideAsset d 1 then total ≤ asset.length else descOverlaps d = false ∧
      ∀ k, k < total → s.vineCode c (sideByte d 1 k) = 0 ∧ windowStage (sideByte d 1 k) = none) →
    ∃ t, exec (.descriptorComplete c asset false false) s = .next t ∧
      (∀ k, k < total → t.byte (sideByte d 2 k) = source k) ∧
      (∀ a, (∀ k, k < total → a ≠ sideByte d 2 k) → t.byte a = s.byte a) ∧
      (t.chan c).run = false ∧ (t.chan c).busy = false ∧ (t.chan c).code = 0 ∧ (t.chan c).resid = 0 ∧
      t.dreg (chanReg c 0x28) = s.dreg (chanReg c 0x28) + 1 ∧ (flags = 3 → bit (t.dreg (chanReg c 0x18)) 0 = true)

/-- R329-R331: a doorbell of a cached ring adds to its TAIL, in the context in memory too; one that the context does not admit
sets DB_BAD and changes nothing of the ring. GRP_SYNC marks a ring, and at the end of the FAB cycle (log entry 22) a marked ring
that is not pinned is no longer cached. -/
def Obligations.DoorbellsMoveTails : Prop :=
  ∀ (ini : Initiator) (g : Nat) (v : Word) (s : State), g < 4 → s.mayWrite ini (some g) = true →
    let n := v.toNat % 2 ^ 18
    let k := if v.toNat / 2 ^ 18 = 0 then 1 else v.toNat / 2 ^ 18
    let r := sget (fun _ => ({} : RingCtx)) (s.ringsOf g) n
    ((s.ringsOf g).any (fun e => e.1 == n) = true →
      (n < s.ctxCount g → s.ctxInLpx g = true → s.ctxAdmits g r k = true → (s.chan (14 * g + r.chan)).run = false → (s.stage g).inSegs (s.ctxAddr g n + 0x10) 4 = true →
        s.damaged [(s.ctxAddr g n + 0x10, 4)] = [] →
        ∃ t stamp, exec (.grpDoorbell ini g v) s = .next t ∧
          sget (fun _ => ({} : RingCtx)) (t.ringsOf g) n = { r with tail := r.tail + BitVec.ofNat 32 k, used := stamp } ∧
          (∀ m, m ≠ n → sget (fun _ => ({} : RingCtx)) (t.ringsOf g) m = sget (fun _ => ({} : RingCtx)) (s.ringsOf g) m) ∧
          t.le (s.ctxAddr g n + 0x10) 4 = (r.tail + BitVec.ofNat 32 k).toNat ∧
          MemKeptOutside s t (s.ctxAddr g n + 0x10) 4) ∧
      (s.ctxCount g ≤ n ∨ s.ctxInLpx g = false ∨ s.ctxAdmits g r k = false → ∃ t, exec (.grpDoorbell ini g v) s = .next t ∧
        t = { s with regs := t.regs, badRing := t.badRing } ∧ bit (t.dreg (0x13024014 + 0x100 * g)) 1 = true ∧
        ∀ a, a ≠ 0x13024014 + 0x100 * g → t.dreg a = s.dreg a)) ∧
    (∃ t, exec (.grpSync ini g v) s = .next t ∧ t = { s with rings := t.rings } ∧
      (∀ m, m ≠ n → sget (fun _ => ({} : RingCtx)) (t.ringsOf g) m = sget (fun _ => ({} : RingCtx)) (s.ringsOf g) m) ∧
      ((s.ringsOf g).any (fun e => e.1 == n) = true →
        sget (fun _ => ({} : RingCtx)) (t.ringsOf g) n = { r with sync := true })) ∧
    (s.pending = [] → Quiet s → s.tally.lprc = false → s.power.xtal = true → s.mode.fabRuns = true → ∃ t, step s = .next t ∧
      ∀ e, e ∈ t.ringsOf g ↔ e ∈ s.ringsOf g ∧ ∀ u ∈ s.ringsOf g, u.1 = e.1 → u.2.sync = false ∨ u.2.tail ≠ u.2.head)

/-- R340, R341, R344-R348: a drive's link comes up, its Ledger is scanned, its commands complete or fail; a Ledger block is
flushed after it is written, and its records are acknowledged after the Flush. A submit is taken while the Ledger accepts and
the bank has room; one in the FAB cycle in which PFW_N is asserted is taken too. -/
def Obligations.DrivesAndLedgerProgress : Prop :=
  ∀ s : State,
    (∀ p lba blocks pairs : Nat, p < 2 → s.straps.getLsbD (1 + p) = true → bit (s.dreg 0x1302C000) p = true →
      (lba = 512 ∨ lba = 4096 → ∃ t, exec (.rootLinkUp p lba blocks pairs) s = .next t ∧
        (t.drive p).blocks = blocks * lba / 4096 ∧ (t.drive p).lbaBytes = lba ∧ (t.drive p).pairs = min pairs 16 ∧
        t.store.stripe = bit (s.dreg 0x1302C000) 2 ∧ bit (t.dreg 0x1302C00C) 0 = true ∧
        (t.drive p).state = if s.store.scanned = false ∧ 2 ≤ (s.dreg 0x1302C084).toNat % 2 ^ 17 ∧ (s.drive (1 - p)).state ≠ 5
          then 5 else 2) ∧
      (lba ≠ 512 → lba ≠ 4096 → ∃ t, exec (.rootLinkUp p lba blocks pairs) s = .next t ∧ (t.drive p).state = 4 ∧
        t.drive (1 - p) = s.drive (1 - p))) ∧
    (∀ (d : Nat) (highest : Option Nat), d < 2 → (s.drive d).state = 5 → ∃ t, exec (.ledgerScanEnd d highest) s = .next t ∧
      (t.drive d).state = 2 ∧ t.store.scanned = true ∧ t.store.recs = s.store.recs ∧
      (s.store.recs = [] → t.store.nextSeq = (match highest with | some h => (h + 1) % 2 ^ 64 | none => 0))) ∧
    (∀ d idx x, d < 2 → (s.drive d).out[idx]? = some x → s.load.readErr = false →
      (∃ t more, exec (.nvmeCommandComplete d idx 0) s = .next t ∧
        (t.drive d).out = (s.drive d).out.eraseIdx idx ++ (match x with | .ledgerWrite q _ => [.ledgerFlush q] | _ => []) ++ more ∧
        t.mem = s.mem ∧
        (∀ q, x = .ledgerFlush q → t.store.recs = s.store.recs.drop s.store.inBlock ∧ ∀ g, g < 5 →
          let done := ((s.store.recs.take s.store.inBlock).filter fun r => r.src == g).length
          vget 0 t.store.acked g = vget 0 s.store.acked g + BitVec.ofNat 32 done ∧
          (done ≠ 0 → bit (t.dreg (0x1302E104 + 0x200 * g)) 3 = true)) ∧
        (∀ n lba, x = .loadRead n lba → t.load.got = s.load.got + n) ∧
        ((∀ q, x ≠ .ledgerFlush q) → t.store.recs = s.store.recs ∧ t.store.acked = s.store.acked)) ∧
      (∀ status : BitVec 16, status ≠ 0 → (∀ n lba, x ≠ .loadRead n lba) → ∃ t, exec (.nvmeCommandComplete d idx status) s = .next t ∧
        fld (t.dreg (0x1302C010 + 4 * d)) 0 16 = status.toNat ∧
        fld (t.dreg (0x1302C010 + 4 * d)) 16 16 = min (fld (s.dreg (0x1302C010 + 4 * d)) 16 16 + 1) 0xFFFF ∧
        bit (t.dreg 0x1302C00C) 1 = true ∧
        (∀ c, x.chan = some c → (t.chan c).run = false ∧ (t.chan c).busy = false ∧ (t.chan c).code = 7))) ∧
    (∀ (ini : Initiator) (g : Nat) (len : Word), g < 5 → s.mayWrite ini (if g < 4 then some g else none) = true →
      let n := len.toNat % 2 ^ 9
      let mine := (s.store.recs.filter fun r => r.src == g).length
      let room := mine < if g < 4 then 12 else 16
      let accepting := (s.store.pfw = false ∨ s.store.pfwNow = true) ∧ s.store.closed = false ∧ s.store.scanned = true ∧
        s.readyDrives ≠ [] ∧ 2 ≤ (s.dreg 0x1302C084).toNat % 2 ^ 17
      (n = 0 → exec (.ldgSubmit ini g len) s = .next s) ∧
      (n ≠ 0 → accepting → room → ∃ t r, exec (.ldgSubmit ini g len) s = .next t ∧
        t.store.recs = s.store.recs ++ [r] ∧ r.src = g ∧ r.num = vget 0 s.store.submitted g + 1 ∧ r.data.length = min n 256 ∧
        (∀ k, k < min n 256 → r.data.getD k 0 = (s.dreg (0x1302E000 + 0x200 * g + k / 4 * 4)).extractLsb' (8 * (k % 4)) 8) ∧
        t.store.submitted = vset s.store.submitted g r.num ∧ t.mem = s.mem) ∧
      (n ≠ 0 → ¬ accepting ∨ ¬ room → ∃ t, exec (.ldgSubmit ini g len) s = .next t ∧ t = { s with regs := t.regs } ∧
        bit (t.dreg (0x1302E104 + 0x200 * g)) 1 = true ∧ ∀ a, a ≠ 0x1302E104 + 0x200 * g → t.dreg a = s.dreg a))

/-- R351, R354, R356-R358, R361: START captures the parameters and begins an operation that passes its checks, and refuses any
other; a row of a fill or copy of whole bytes writes its pixels and nothing else; an operation completes with DONE and its
fence; ABORT ends it with ERR; the watermark fires once its rows are written. -/
def Obligations.PressWorksRowByRow : Prop :=
  ∀ (i : Nat) (s : State), i < 4 →
    let x := s.stage i
    let p := x.press
    x.held = [] → x.chord.flips = [] → x.chord.arrived = [] → (x.bind 26).bound = true →
    let status (t : State) : Word := (t.stage i).reg 0x1B0038
    let others (t : State) : Prop := ∀ j, j ≠ i → t.stage j = s.stage j
    (p.busy = true → ∃ t, exec (.pressStart i) s = .next t ∧ (t.stage i).press = p ∧ bit (status t) 3 = true ∧ t.mem = s.mem ∧ others t) ∧
    (p.busy = false → ∃ t q, exec (.pressStart i) s = .next t ∧ t.mem = s.mem ∧ others t ∧
      (∀ o, o ∈ [0, 4, 8, 0xC, 0x10, 0x14, 0x18, 0x1C, 0x20, 0x2C, 0x30] → q.p o = x.reg (0x1B0000 + o)) ∧
      (s.pressCheck i q = 0 → (t.stage i).press = q ∧ q.busy = true ∧ q.rows = 0 ∧ q.wmFired = false ∧ q.code = 0 ∧
        (q.dirx, q.diry) = q.dirs) ∧
      (s.pressCheck i q ≠ 0 → (t.stage i).press.busy = false ∧ (t.stage i).press.code = s.pressCheck i q ∧ bit (status t) 1 = true)) ∧
    (p.busy = true → p.finished = false → ∃ t, exec (.pressAbort i) s = .next t ∧ (t.stage i).press.busy = false ∧
      ((∀ a, p.dst ≤ a → windowStage a = none) → (t.stage i).press.rows = p.rows) ∧
      bit (status t) 1 = true ∧ (s.errs = [] → (t.stage i).press.code = 1 ∨ (t.stage i).press.code = 4)) ∧
    (p.busy = false → ∃ t, exec (.pressAbort i) s = .next t ∧ (t.stage i).press = p ∧ t.mem = s.mem ∧ others t) ∧
    (p.busy = true → p.faulted = false → p.finished = false → p.dead = false → p.op ≤ 1 → p.format ∈ [3, 4, 5] → p.loose = false → s.errs = [] →
      let n := p.bits / 8
      let a := p.dst + p.row * p.dpitch
      let b := p.src + p.row * p.spitch
      let free (c : Nat) : Prop := x.inSegs c (p.w * n) = true ∧ ∀ k, k < p.w * n → windowStage (c + k) = none
      free a → (p.op = 0 → free b) → ∃ t, exec (.pressRowDone i false) s = .next t ∧ others t ∧
        (t.stage i).press.rows = p.rows + 1 ∧ (t.stage i).press.busy = true ∧
        (t.stage i).press.dead = decide ((x.reg 0x1B0024).toNat % 2 ^ 10 ≠ 0) ∧
        (∀ k, k < p.w * n → t.byte (a + k) =
          if p.op = 0 then s.byte (b + k) else (p.p 0x1C).extractLsb' (8 * (k % n)) 8) ∧
        MemKeptOutside s t a (p.w * n)) ∧
    (∀ v : Word, ∃ t, exec (.pressWm i v) s = .next t ∧ t.mem = s.mem ∧ others t ∧ (t.stage i).reg 0x1B0028 = v &&& 0x1FFF ∧
      (p.busy = true → p.wmFired = false → p.diry = false → v.toNat % 2 ^ 13 < p.rows →
        (t.stage i).press.wmFired = true ∧ bit (status t) 2 = true)) ∧
    (p.finished = true → p.faulted = false → ∃ t, exec (.pressComplete i) s = .next t ∧ OnlyStage i s t ∧
      (t.stage i).press.busy = false ∧ (t.stage i).press.code = 0 ∧ bit (status t) 0 = true ∧
      (p.wmFired = false → bit (status t) 2 = true) ∧
      let f := p.p 0x2C
      let fence := 0x1000 + 4 * (f.toNat % 2 ^ 8)
      (bit f 31 = true → x.cyc.fences = [] → x.cyc.fence0 = [] → (t.stage i).reg fence = if bit f 30 then x.reg fence + p.p 0x30 else p.p 0x30) ∧
      ∀ o, 0x1000 ≤ o → o < 0x1400 → (bit f 31 = false ∨ o ≠ fence) → (t.stage i).reg o = x.reg o) ∧
    exec (.pressBurstDeadEnd i) s = .next (s.setStage i { x with press := { p with dead := false } })

/-! ### Timers and Tally (spec/15_timers_tally.md) -/

/-- R364-R369, R371: ARM starts a run from PHASE, STOP ends it, a tick counts while the channel runs with its gate open, and
ends the run at TOP, and its capture input is looked at; a channel that shows FAULT stands still; each compare that is eligible
matches at its value, and a periodic one moves on. A linked channel is armed or ticked by a master's event of an earlier PERI
cycle. Another channel is at most told of an event. This is said of a PERI cycle in which nothing has happened at the channel
yet; of one in which something has: a cycle gives one tick and one ARM; a command wins over the tick, before it or after it; a
compare written before the tick matches by its old value and is then judged against the new COUNT. The order of two commands
within a PERI cycle is the sender's (log entry 140). R370, R372-R374: a level that the capture input has held for CFILT is
accepted; an edge of the selected kind that passes the prescaler captures COUNT, with SRC 6 after its tick, and a tick of the
same PERI cycle that comes after the edge still counts in the capture; TC_CAPCFG restarts the prescaler; the Warden alone sets
the Tally, with its staged high half; the alarm is set once the Tally is at or above it; the LPRC is calibrated while the
crystal runs. -/
def Obligations.TimersCountCaptureAndTell : Prop :=
  (
  ∀ (k : Nat) (s : State), k < 32 →
    let q := s.timer k
    let now := s.root / 8
    let r (o : Nat) : Nat := 0x13030000 + 0x100 * k + o
    let top := s.dreg (r 0x10)
    let own := s.srcTicks k = true ∧ (s.dreg (r 0)).toNat % 2 ^ 3 ≠ 6
    let live := q.run = true ∧ q.fault = false ∧ s.gateOpen k = true
    let fresh := q.cyc.peri = now → q.cyc = { peri := now }
    let seen := if s.qi.getLsbD ((s.dreg (r 0x40)).toNat % 2 ^ 6) = q.level then 0 else min (q.seen + 1) 255
    let frame (t : State) (n : Nat) : Prop := t = { s with timers := t.timers, regs := t.regs } ∧
      (∀ j, j ≠ k → t.timer j = { s.timer j with linked := (t.timer j).linked }) ∧
      t.timer k = { q with
        run := (t.timer k).run, count := (t.timer k).count, elig := (t.timer k).elig, linked := (t.timer k).linked
        cyc := (t.timer k).cyc, seen := n } ∧
      ∀ a, a ≠ r 0x48 → (∀ j, j < 4 → a ≠ r (0x20 + 4 * j)) → t.dreg a = s.dreg a
    let judged (t : State) (elig : Nat → Bool) (n : Word) : Prop := (t.timer k).count = n ∧ ∀ j, j < 4 →
      let cmp := s.dreg (r (0x20 + 4 * j))
      let hit := elig j && cmp == n
      let periodic := bit (s.dreg (r 0)) (8 + j)
      let next := cmp + s.dreg (r (0x30 + 4 * j))
      bit (t.dreg (r 0x48)) j = (bit (s.dreg (r 0x48)) j || hit) ∧
      t.dreg (r (0x20 + 4 * j)) = (if hit && periodic then next else cmp) ∧
      (t.timer k).elig.getLsbD j = if hit then periodic && n.ult next else elig j
    let armed (t : State) : Prop := (t.timer k).run = true ∧ judged t (fun _ => true) (s.dreg (r 0xC)) ∧ frame t q.seen
    let ticked (t : State) : Prop := (t.timer k).run = true ∧ judged t q.elig.getLsbD (q.count + 1) ∧ frame t seen
    let unmoved (t : State) : Prop := t = { s with timers := t.timers } ∧
      t.timer k = { q with seen := seen, cyc := (t.timer k).cyc } ∧ ∀ j, j ≠ k → t.timer j = s.timer j
    (∀ ini : Initiator, s.mayWrite ini (s.timerOwner k) = true →
      (q.fault = false → fresh → ∃ t, exec (.tcArm ini k) s = .next t ∧ armed t) ∧
      (q.fault = true → exec (.tcArm ini k) s = .next s) ∧
      (fresh → exec (.tcStop ini k) s = .next (s.setTimer k { q with run := false, cyc := { peri := now, cmd := true } })) ∧
      (∀ (j : Nat) (v : Word), j < 4 → ∃ t, exec (.tcCmpWrite ini k j v) s = .next t ∧ t.dreg (r (0x20 + 4 * j)) = v ∧
        (∀ b, b < 4 → (t.timer k).elig.getLsbD b = if b = j then q.count.ult v else q.elig.getLsbD b) ∧
        t.timer k = { q with elig := (t.timer k).elig, cyc := (t.timer k).cyc } ∧ t = { s with timers := t.timers, regs := t.regs } ∧
        (fresh → (t.timer k).cyc = { peri := now, writes := [(j, s.dreg (r (0x20 + 4 * j)), q.elig.getLsbD j)] }) ∧
        (∀ a, a ≠ r (0x20 + 4 * j) → t.dreg a = s.dreg a) ∧ ∀ j, j ≠ k → t.timer j = s.timer j) ∧
      (q.cyc.peri = now → q.cyc.arm = true → exec (.tcArm ini k) s = .next s) ∧
      (∀ u, q.cyc.peri = now → q.cyc.undo = some u → q.cyc.writes = [] → ∃ t, exec (.tcStop ini k) s = .next t ∧
        (t.timer k).run = false ∧ (t.timer k).count = u.count ∧ (t.timer k).elig = u.elig ∧
        (∀ j, j < 4 → t.dreg (r (0x20 + 4 * j)) = u.cmps.getD j 0) ∧ t.dreg (r 0x48) = s.dreg (r 0x48) &&& ~~~u.status ∧
        ∀ j, j < 32 → (k, now) ∉ (t.timer j).linked)) ∧
    (∀ ini : Initiator, s.mayWrite ini (s.timerOwner k) = false →
      exec (.tcArm ini k) s = .next (s.accViol ini (r 8)) ∧ exec (.tcStop ini k) s = .next (s.accViol ini (r 8)) ∧
      ∀ (j : Nat) (v : Word), exec (.tcCmpWrite ini k j v) s = .next (s.accViol ini (r (0x20 + 4 * j)))) ∧
    (own → live → fresh →
      (q.count.toNat + 1 < top.toNat → ∃ t, exec (.tcTick k) s = .next t ∧ ticked t ∧
        (t.timer k).cyc.undo = some {
          run := true, count := q.count, elig := q.elig, cmps := (List.range 4).map fun j => s.dreg (r (0x20 + 4 * j))
          status := t.dreg (r 0x48) &&& ~~~(s.dreg (r 0x48)) }) ∧
      (q.count.toNat + 1 = top.toNat → ∃ t, exec (.tcEnd k) s = .next t ∧ (t.timer k).run = false ∧
        judged t q.elig.getLsbD top ∧ bit (t.dreg (r 0x48)) 4 = true ∧ frame t seen) ∧
      (top.toNat ≤ q.count.toNat → ∃ t, exec (.tcEnd k) s = .next t ∧ (t.timer k).run = false ∧ (t.timer k).count = q.count ∧
        bit (t.dreg (r 0x48)) 4 = true ∧ bit (t.dreg (r 0x48)) 5 = true ∧ frame t seen)) ∧
    (¬own → exec (.tcTick k) s = .next s ∧ exec (.tcEnd k) s = .next s) ∧
    (own → fresh → ¬live → ∃ t, exec (.tcTick k) s = .next t ∧ unmoved t) ∧
    (own → q.cyc.peri = now → q.cyc.tick = true → exec (.tcTick k) s = .next s ∧ exec (.tcEnd k) s = .next s) ∧
    (own → q.cyc.peri = now → q.cyc.tick = false → q.cyc.cmd = true → ∃ t, exec (.tcTick k) s = .next t ∧ unmoved t) ∧
    (∀ (j : Nat) (old : Word) (e : Bool), j < 4 → own → live → q.cyc = { peri := now, writes := [(j, old, e)] } →
      q.count.toNat + 1 < top.toNat → ∃ t, exec (.tcTick k) s = .next t ∧ (t.timer k).count = q.count + 1 ∧
        t.dreg (r (0x20 + 4 * j)) = s.dreg (r (0x20 + 4 * j)) ∧
        (t.timer k).elig.getLsbD j = (q.count + 1).ult (s.dreg (r (0x20 + 4 * j))) ∧
        bit (t.dreg (r 0x48)) j = (bit (s.dreg (r 0x48)) j || (e && old == q.count + 1))) ∧
    ((∀ e ∈ q.linked, now ≤ e.2) → exec (.tcLinkEvent k) s = .next s) ∧
    ((∃ e ∈ q.linked, e.2 < now) → q.fault = false → fresh →
      let mode := (s.dreg (r 4)).toNat / 2 ^ 8 % 4
      (mode = 2 → ∃ t, exec (.tcLinkEvent k) s = .next t ∧ armed t) ∧
      (mode = 3 → q.run = true → q.count.toNat + 1 < top.toNat → ∃ t, exec (.tcLinkEvent k) s = .next t ∧ ticked t))) ∧
  (
  (∀ (k : Nat) (level : Bool) (s : State), k < 32 →
    let q := s.timer k
    let r (o : Nat) : Nat := 0x13030000 + 0x100 * k + o
    let cfg := s.dreg (r 0x40)
    let chosen := bit cfg (if level then 8 else 9)
    let src := (s.dreg (r 0)).toNat % 2 ^ 3
    let qi := cfg.toNat % 2 ^ 6
    let accepted := s.qi.getLsbD qi = level ∧ q.level ≠ level ∧
      cfg.toNat / 2 ^ 16 % 2 ^ 8 ≤ if src = 6 then s.root / 8 - sget (fun _ => 0) s.qiAt qi else q.seen
    let captured (t : State) (n : Word) : Prop :=
      t.timer k = { q with
        level := level, seen := 0, presc := 0, cap := n, count := n, run := (t.timer k).run, elig := (t.timer k).elig
        linked := (t.timer k).linked, cyc := (t.timer k).cyc } ∧
      bit (t.dreg (r 0x48)) 6 = true ∧ bit (t.dreg (r 0x48)) 7 = (bit (s.dreg (r 0x48)) 7 || bit (s.dreg (r 0x48)) 6)
    (accepted → chosen = false → exec (.tcCapture k level) s = .next (s.setTimer k { q with level := level, seen := 0 })) ∧
    (accepted → chosen = true → q.presc < cfg.toNat / 2 ^ 24 →
      exec (.tcCapture k level) s = .next (s.setTimer k { q with level := level, seen := 0, presc := q.presc + 1 })) ∧
    (accepted → chosen = true → cfg.toNat / 2 ^ 24 ≤ q.presc →
      (src ≠ 6 ∨ s.srcTicks k = false → ∃ t, exec (.tcCapture k level) s = .next t ∧
        t = { s with timers := t.timers, regs := t.regs } ∧ captured t q.count ∧ (t.timer k).run = q.run ∧
        (t.timer k).elig = q.elig ∧ (t.timer k).linked = q.linked ∧ (∀ j, j ≠ k → t.timer j = s.timer j) ∧
        ∀ a, a ≠ r 0x48 → t.dreg a = s.dreg a) ∧
      (src = 6 → s.srcTicks k = true → (q.cyc.peri = s.root / 8 → q.cyc = { peri := s.root / 8 }) → ∃ t, exec (.tcCapture k level) s = .next t ∧
        t = { s with timers := t.timers, regs := t.regs } ∧
        captured t (if q.run ∧ q.fault = false ∧ s.gateOpen k = true ∧ q.count.toNat < (s.dreg (r 0x10)).toNat then q.count + 1
          else q.count) ∧
        ∀ j, j ≠ k → t.timer j = { s.timer j with linked := (t.timer j).linked })) ∧
    (src ≠ 6 → s.srcTicks k = true → q.run = true → q.fault = false → s.gateOpen k = true →
      q.cyc = { peri := s.root / 8, edge := true } → q.count.toNat + 1 < (s.dreg (r 0x10)).toNat →
      ∃ t, exec (.tcTick k) s = .next t ∧ (t.timer k).count = q.count + 1 ∧ (t.timer k).cap = q.count + 1) ∧
    (¬accepted → exec (.tcCapture k level) s = .next s) ∧
    (∀ (ini : Initiator) (v : Word), s.mayWrite ini (s.timerOwner k) = true → ∃ t, exec (.tcCapcfgWrite ini k v) s = .next t ∧
      t = { s with timers := t.timers, regs := t.regs } ∧ t.dreg (r 0x40) = v &&& 0xFFFF033F ∧ t.timer k = { q with presc := 0 } ∧
      (∀ j, j ≠ k → t.timer j = s.timer j) ∧ ∀ a, a ≠ r 0x40 → t.dreg a = s.dreg a)) ∧
  ∀ s : State,
    (∀ (ini : Initiator) (lo : Word), s.wardenMay ini = true → ∃ t, exec (.tallySet ini lo) s = .next t ∧
      t = { s with tally := { s.tally with
        count := t.tally.count, setHi := none, est := false, lost := false, err := 0
        alarm := s.tally.alarm || (bit (s.dreg 0x13040010) 0 &&
          decide ((s.dreg 0x13040020).toNat + 2 ^ 32 * (s.dreg 0x13040024).toNat ≤ t.tally.count.toNat)) } } ∧
      t.tally.count.extractLsb' 0 32 = lo ∧
      t.tally.count.extractLsb' 32 32 = s.tally.setHi.getD (s.tally.count.extractLsb' 32 32)) ∧
    (∀ (ini : Initiator) (lo : Word), s.wardenMay ini = false → exec (.tallySet ini lo) s = .next (s.accViol ini 0x13040008)) ∧
    exec .tallyAlarm s = .next (
      if bit (s.dreg 0x13040010) 0 = true ∧ (s.dreg 0x13040020).toNat + 2 ^ 32 * (s.dreg 0x13040024).toNat ≤ s.tally.count.toNat
      then { s with tally := { s.tally with alarm := true } } else s) ∧
    (∀ cal : Word, s.power.xtal = true → s.tally.lprc = false →
      exec (.lprcCalibration cal) s = .next { s with tally := { s.tally with cal := cal } }))

/-! ### Faults, repair, shedding and the Keeper (spec/16_faults_repair.md) -/

/-- R364, R377, R389, R390: a fault is recorded in its Sector, the first since SEC_FAULT was cleared with its place and time;
the unit is marked failed, and a logical unit bound to it is blanked or halted, a Pip not started stays stopped; a timer channel
stops, a Warden is lost, an island's loss is marked. -/
def Obligations.UnitFaultsAreContained : Prop :=
  ∀ (sec kind unit det : Nat) (s : State), sec < 4 → kind ≤ 9 → s.watched sec kind unit det = true →
    s.mode ≠ .off → s.mode ≠ .deep → (s.mode = .doze ∨ s.mode = .sleep → s.power.step = 6) → s.power.step ≠ 3 → s.power.step ≠ 4 →
    let x := s.sector sec
    ∃ t, exec (.unitFaultDetect sec kind unit det) s = .next t ∧
      ((t.sector sec).lastKind = kind ∧ (t.sector sec).lastUnit = unit ∧ (t.sector sec).lastTime = s.tally.count.extractLsb' 0 32 ∧
        fld (t.sector sec).fault 8 8 = min (fld x.fault 8 8 + 1) 0xFF ∧ bit (t.sector sec).fault 31 = true ∧
        (if bit x.fault 31 then fld (t.sector sec).fault 16 16 = fld x.fault 16 16 ∧ (t.sector sec).faultTime = x.faultTime
          else fld (t.sector sec).fault 28 3 = det ∧ fld (t.sector sec).fault 24 4 = kind ∧ fld (t.sector sec).fault 16 5 = unit ∧
            (t.sector sec).faultTime = s.tally.count)) ∧
      (kind < 7 → t.healthy kind sec unit = false ∧ t.mem = s.mem ∧
        (s.holders kind sec unit = [] → t.stages = s.stages ∧ t.cores = s.cores ∧ t.faults = s.faults) ∧
        (∀ i b e, s.holders kind sec unit = [(i, b, e)] → t.faults = s.faults ++ [(sec, kind, unit)] ∧
          (b < 24 → (t.stage i).prism.faulted.getLsbD b = true) ∧ (b = 24 → (t.stage i).prism.dead = true) ∧
          (b = 25 → (t.stage i).chord.faulted = true) ∧ (b = 26 → (t.stage i).press.faulted = true) ∧
          (27 ≤ b → b < 35 → (t.core (5 * sec + unit)).run =
            if (s.core (5 * sec + unit)).run = .stopped then .stopped else .halted))) ∧
      (kind = 7 → (t.timer (8 * sec + unit)).run = false ∧ (t.timer (8 * sec + unit)).fault = true) ∧
      (∀ w, kind = 8 → wardenIn sec = some w → vget false t.keeper.lost w = true ∧
        ((s.activeWarden = w → ∀ k, k < 256 → s.openEntry w k = false) → (t.core (20 + w)).run = .halted)) ∧
      (kind = 9 → det = 5 → (t.sector sec).memFault = true ∧ bit (t.sector sec).failed 30 = true) ∧
      (kind = 9 → det = 4 → bit (t.sector sec).failed 31 = true ∧
        ∀ j, wardenIn sec = none → j < 8 → (t.timer (8 * sec + j)).run = false ∧ (t.timer (8 * sec + j)).fault = true)

/-- R23, R381, R457: a repair command that names a bound unit and a free spare holds the unit's accesses and is busy until its
load completes; the unit is then bound to the spare, and counted. Any other command sets ERR; a word of the shadow with more
than two symbol errors makes it stale, unless it is read wrong (R93). -/
def Obligations.RepairsRebindUnits : Prop :=
  ∀ (sec : Nat) (s : State), sec < 4 →
    let x := s.sector sec
    let kept : Word := 0x3FF31F1F
    (∀ v : Word,
      let i := v.toNat / 2 ^ 28 % 4
      let b := bindAt (v.toNat / 2 ^ 24 % 2 ^ 4) (v.toNat / 2 ^ 20 % 2 ^ 4)
      let err := x.err && !bit v 30
      (x.busy = true → exec (.secRepair sec v) s = .next (s.setSector sec { x with err := err })) ∧
      (x.busy = false → s.repairRefused sec v = true →
        exec (.secRepair sec v) s = .next (s.setSector sec { x with err := true, cmd := v &&& kept })) ∧
      (x.busy = false → s.repairRefused sec v = false → ∃ t, exec (.secRepair sec v) s = .next t ∧
        t.sector sec = { x with err := err, cmd := v &&& kept, busy := true } ∧ b ∈ (t.stage i).held ∧ t.mem = s.mem ∧
        t.stage i = { s.stage i with held := (t.stage i).held } ∧ ∀ j, j ≠ i → t.stage j = s.stage j)) ∧
    (x.busy = true →
      let i := x.cmd.toNat / 2 ^ 28 % 4
      let k := x.cmd.toNat / 2 ^ 24 % 2 ^ 4
      let b := bindAt k (x.cmd.toNat / 2 ^ 20 % 2 ^ 4)
      let e := (s.stage i).bind b
      let place := shadowPlace k e.unit
      let stays (t : State) : Prop := (t.stage i).bind b = e ∧
        (unitSlot k e.unit ≤ 32 → bit (t.sector e.sector).stale (unitSlot k e.unit - 1) = true)
      let moves (t : State) : Prop :=
        (t.stage i).bind b = { e with bound := true, shed := false, repaired := true, sector := sec, unit := x.cmd.toNat % 2 ^ 5 } ∧
        (t.sector e.sector).repairs = (s.sector e.sector).repairs + 1 ∧ (e.sector, k, e.unit) ∉ t.faults
      (s.stage i).heldWrites = [] → e.sector < 4 →
      (∃ t, exec (.repairLoadComplete sec true) s = .next t ∧ (t.sector sec).busy = false ∧ b ∉ (t.stage i).held ∧ (stays t ∨ moves t)) ∧
      (s.damaged [(0x2000000 * e.sector + 0x1F00000 + place.1, place.2)] = [] →
        ∃ t, exec (.repairLoadComplete sec false) s = .next t ∧ (t.sector sec).busy = false ∧ b ∉ (t.stage i).held ∧ moves t))

/-- R52, R379, R380, R387: a failed unit that no spare can serve is shed as POLICY says, or its whole stage is; the mirror
buffer puts the oldest register word into the shadow; a checkpoint holds its Pip, and keeps the Pip's state once it is complete.
-/
def Obligations.ShedsMirrorsAndCheckpoints : Prop :=
  (∀ (i kind l : Nat) (s : State), i < 4 → kind < 7 → l < kindIndices kind →
    let b := bindAt kind l
    let e := (s.stage i).bind b
    let step := (takeStep (s.stage i) kind (s.stage i).shedList).2
    s.holds i = true → e.bound = true → s.wardenUp = true → s.healthy kind e.sector e.unit = false → s.spareFor i b = none →
    ∃ t, exec (.shedPerPolicy i kind l) s = .next t ∧ (s.mode = .run → t.mode = .degraded) ∧ (e.sector, kind, e.unit) ∉ t.faults ∧
      (step = none ∨ step.any (fun p => p.action == 6) = true → (t.stage i).loaded = false) ∧
      (∀ p, step = some p → p.action ∈ [1, 2, 4, 5] →
        let other := bindAt kind (if p.action = 5 then 0 else p.lindex)
        ((t.stage i).bind other).shed = true ∧ ((t.stage i).bind other).bound = false ∧
        (other ≠ b → (t.stage i).bind b = { e with
          bound := true, shed := false, repaired := true, sector := ((s.stage i).bind other).sector
          unit := ((s.stage i).bind other).unit }))) ∧
  (∀ (sec slot k : Nat) (r : List (Nat × Nat)) (s : State), sec < 4 →
    let x := s.sector sec
    (x.memFault = true → exec (.mirrorBufferDrain sec) s = .next s) ∧
    (x.memFault = false → x.mirror = (slot, k) :: r → x.stale = 0 →
      ∃ t, exec (.mirrorBufferDrain sec) s = .next t ∧
        t = { s with mem := t.mem, errs := t.errs, nonce := t.nonce, sectors := t.sectors } ∧ (t.sector sec).mirror = r ∧
        ∀ off size i b, shadowOf slot = some (off, size) → s.slotHolder sec slot = some (i, b) → 64 * (k % 0x400) < size →
          let a := 0x2000000 * sec + 0x1F00000 + off + 64 * (k % 0x400)
          (∀ j, j < 16 → t.le (a + 4 * j) 4 = ((s.stage i).reg (unitBase b + 64 * (k % 0x400) + 4 * j)).toNat) ∧
          MemKeptOutside s t a 64)) ∧
  ∀ (core : Nat) (s : State), core < 20 →
    ((s.core core).canIssue = true → (s.pipOf core).isSome = true →
      exec (.pipCkptTake core) s = .next (s.setCore core { s.core core with taking := true, takeUnit := none })) ∧
    ((s.core core).taking = true → ∃ t, exec (.checkpointComplete core) s = .next t ∧
      let d := t.core core
      d.taking = false ∧ d.ckpt = {
        gpr := d.gpr, pred := d.pred, lc := d.lc, au := d.au, pc := d.pc, status := d.status, repcnt := d.repcnt
        frames := d.frames, ecause := d.ecause, eaddr := d.eaddr, vbase := d.vbase, seed := d.seed } ∧
      ((s.core core).wbuf = [] → (∀ e ∈ (s.core core).dcache, e.2.dirty = 0) →
        OnlyCore core s t ∧ Retired (s.core core) d ∧ Stepped (s.core core) d (s.core core).takeUnit ∧
        Progressed { s.core core with taking := false, takeUnit := none, ckpt := d.ckpt, au := d.au } d))

/-- R390-R394: a heartbeat in its window is noted, and the window's end then only begins the next one; without one the Warden is
halted and lost. The standby is promoted in place of an active Warden, or the device goes to M6. FORCE is bit 0 of FAULT_PIN. -/
def Obligations.KeeperWatchesTheWardens : Prop :=
  ∀ s : State,
    (∀ w, w < 2 →
      exec (.keeperHb w) s = .next { s with keeper := { s.keeper with beat := vset s.keeper.beat w true } } ∧
      (s.keeper.checking = true → (s.core (20 + w)).run ≠ .stopped →
        (vget false s.keeper.beat w = true →
          exec (.wardenLost w) s = .next { s with keeper := { s.keeper with beat := vset s.keeper.beat w false } }) ∧
        (vget false s.keeper.beat w = false → vget true s.keeper.lost w = false → ∃ t, exec (.wardenLost w) s = .next t ∧
          vget false t.keeper.lost w = true ∧ bit t.keeper.faultPin 3 = true ∧
          ((s.activeWarden = w → ∀ k, k < 256 → s.openEntry w k = false) → (t.core (20 + w)).run = .halted) ∧
          (s.activeWarden ≠ w → t = { s with keeper := t.keeper, cores := t.cores, irqs := t.irqs, pe := t.pe } ∧ t.keeper.activeB = s.keeper.activeB) ∧
          (s.activeWarden = w →
            let up := vget false s.keeper.lost (1 - w) = false ∧ (w = 1 ∨ s.keeper.wbReleased = true)
            (up → t.keeper.activeB = decide (w = 0) ∧ t.keeper.promotions = min 255 (s.keeper.promotions + 1)) ∧
            (¬ up → s.mode ∈ [.run, .retune, .degraded, .attract] → t.mode = .orphan ∧ bit (t.dreg 0x10007100) 8 = true ∧
              t.mem = s.mem ∧ (t.core (20 + w)).run = .halted ∧ ∀ i, i < 4 → t.stage i = { s.stage i with
                chord := { (s.stage i).chord with lead := (t.stage i).chord.lead } }))))) ∧
    ∀ v : Word, ∃ t, exec (.faultPin v) s = .next t ∧ t = { s with keeper := { s.keeper with faultPin := t.keeper.faultPin } } ∧
      ∀ i, i < 32 → bit t.keeper.faultPin i = if i = 0 then bit v 0 else bit s.keeper.faultPin i

/-! ### Power modes (spec/17_power_modes.md) -/

/-- R399-R401, R406: each step of an entry completes at its abort point and, with no wake event pending there, begins the next;
the last one puts the PCIe links into L1 or L2 and takes the new mode, which keeps memory but for DEEP. R400, R401, R403-R405,
R409: an event that comes during an entry waits for its abort point, where the entry is undone; one that may wake the stopped
device is recorded and begins the wake, which sets going what was stopped and returns to the mode left. -/
def Obligations.ModeEntriesAndWakes : Prop :=
  (
  ∀ s : State, (∀ k, k < 22 → (s.core k).wbuf = []) →
    let p := s.power
    let m := p.target
    s.wakesNow = [] → m ∈ [.doze, .sleep, .deep] →
    (p.step = 1 → ∃ t, exec .entryStepComplete s = .next t ∧ t.power = { p with step := 2 } ∧ t.mode = s.mode ∧ t.mem = s.mem ∧
      (∀ i, i < 4 → t.stage i = if (s.stage i).phase = .running then { s.stage i with stopReq := true } else s.stage i) ∧
      t.store = { s.store with closed := s.store.closed || decide (m = .deep) }) ∧
    (p.step = 2 → s.stopDone = true → ∃ t, exec .entryStepComplete s = .next t ∧ t.power = { p with step := 3 } ∧ t.mode = s.mode ∧
      (m ≠ .deep → t.mem = s.mem) ∧ t.keeper = { s.keeper with checking := false } ∧
      ∀ k, k < 20 → t.core k = if k ∈ s.livePips then { s.core k with parked := true } else s.core k) ∧
    (p.step = 2 → s.stopsLeft = true → ∃ t, exec .entryStepComplete s = .next t ∧ t.power = p ∧ t.stages = s.stages ∧ t.mode = s.mode) ∧
    (p.step = 3 → s.saveDone = true → m = .doze → ∃ t, exec .entryStepComplete s = .next t ∧ t.power = { p with step := 4 } ∧
      t.mode = s.mode ∧ t.mem = s.mem ∧ t.lpx = { s.lpx with state := 2 }) ∧
    (p.step = 3 → s.saveDone = true → m = .sleep → ∃ t, exec .entryStepComplete s = .next t ∧ t.power = { p with step := 4 } ∧
      t.mode = s.mode ∧ t.lpx.state = 3) ∧
    (p.step = 3 → s.saveDone = true → m = .deep → exec .entryStepComplete s = .next { s with power := { p with step := 4 } }) ∧
    (p.step = 4 → ∃ t, exec .entryStepComplete s = .next t ∧ t.mode = m ∧ t.power.step = 0 ∧ t.power.left = s.mode ∧
      t.power.linksLow = true ∧
      (∀ q, q < 2 → (s.pep q).status.getLsbD 0 = true → (t.pep q).status.extractLsb' 8 2 = if m = .doze then 1 else 2) ∧
      (m ≠ .deep → t.mem = s.mem ∧ t.cores.toList.map (·.gpr) = s.cores.toList.map (·.gpr)) ∧
      (m = .deep → t.mem = [] ∧ t.lpx.state = 4 ∧ t.power.railEn = false ∧ t.tally.lprc = true))) ∧
  (
  ∀ (src detail : Nat) (s : State),
    let p := s.power
    let d := if src = 1 ∨ src = 7 ∨ src = 8 then detail else if src = 6 then 1 else 0
    let record (m : Mode) : Word := BitVec.ofNat 32 (0x80000000 + m.num * 0x1000000 + d * 0x100 + src)
    (1 ≤ p.step → p.step ≤ 4 →
      exec (.wakeEvent src detail) s = .next (
        if s.wakes p.target src detail then { s with power := { p with wakes := p.wakes ++ [(src, d)] } } else s)) ∧
    (p.step = 1 → s.wakesNow ≠ [] → (∀ e ∈ s.wakesNow, 0 < e.1 ∧ e.1 < 64 ∧ e.2 < 64) → (∀ i, i < 4 → (s.stage i).restart = false) →
      ∃ t, exec .entryStepComplete s = .next t ∧
        t = { s with power := t.power, regs := t.regs, mbox := t.mbox, load := { s.load with muted := t.load.muted } } ∧ t.power.step = 0 ∧ t.power.wakes = [] ∧
        bit t.power.lastWake 30 = true) ∧
    ((s.mode = .doze ∨ s.mode = .sleep) → p.step = 0 → s.wakes s.mode src detail = true →
      ∃ t, exec (.wakeEvent src detail) s = .next t ∧ t.mode = s.mode ∧ t.power.step = 6 ∧ t.power.lastWake = record s.mode ∧
        t.power.lastWakeT = s.tally.count ∧ t.tally.skew = s.tally.count - s.tally.stopAt ∧ t.keeper.checking = true ∧
        (∀ k, k < 20 → (t.core k).parked = false) ∧ t.lpx.state = 0) ∧
    (s.mode = .deep → p.step = 0 → s.wakes .deep src detail = true →
      ∃ t, exec (.wakeEvent src detail) s = .next t ∧ t.mode = .deep ∧ t.power.step = 6 ∧ t.power.railEn = true ∧
        t.power.lastWake = record .deep ∧ t.mem = s.mem) ∧
    (p.step = 6 → exec (.wakeEvent src detail) s = .next s) ∧
    ((s.mode = .doze ∨ s.mode = .sleep) → p.step = 6 → s.faultsOpen = false → (∀ i, i < 4 → (s.stage i).restart = false) →
      ∃ t, exec .wakeSequenceEnd s = .next t ∧ t = { s with
          mode := t.mode, goHeld := none, mbox := t.mbox, power := t.power, load := { s.load with muted := t.load.muted }
          keeper := { s.keeper with faultPin := t.keeper.faultPin } } ∧
        t.power.step = 0 ∧ t.mode = if p.left = .run ∧ (s.anyShed = true ∨ p.shedAway = true) then .degraded else p.left))

/-! ### Links, JTAG and fuses (spec/18_cabinet_links.md, 02_pynal_images.md) -/

/-- R420-R424: an accepted reply replaces the drop's input buffer and is counted; any other, or none in time, leaves the buffer
and counts as an error. A broadcast goes out at once and is on the line for 10 bit times per byte of its frame, or waits for the
transaction or broadcast in progress; on a bus without a SYNC_STAGE the next drop is polled 2 bit times after a transaction. -/
def Obligations.SpokeBusesPollTheirDrops : Prop :=
  ∀ (b : Nat) (s : State), b < 2 →
    let x := s.spk b
    let r (d o : Nat) : Nat := 0x13070000 + 0x4000 * b + 0x100 * d + o
    let next := if x.bcastWait = none ∧ x.sync = 0xFF ∧ s.spkOn b = true ∧ x.bcastEnd ≤ s.root then s.dueDrop b else none
    let ended (t : State) : Prop := (t.spk b).busy = next ∧ (t.spk b).bcastWait = none ∧
      (∀ e, next = some e → (t.spk b).last = e ∧ (t.spk b).began = s.fab + 400 / (if s.slow then 4 else 2)) ∧
      (t.spk b).bcast = x.bcastWait.getD x.bcast ∧
      (∀ p, x.bcastWait = some p → (t.spk b).bcastEnd = s.root + 200 * (2 + 10 * (p.length + 4))) ∧ ∀ c, c ≠ b → t.spk c = s.spk c
    (∀ d, x.busy = some d → d < 32 →
      (∀ frame payload, s.power.io33 = true → spkAccept d frame = some payload →
        ∃ t, exec (.spokeReply b frame true) s = .next t ∧ ended t ∧
          t = { s with regs := t.regs, spoke := t.spoke, irqs := t.irqs, pe := t.pe, nonce := t.nonce } ∧
          (∀ k, k < payload.length → (t.dreg (r d (0x40 + k / 4 * 4))).extractLsb' (8 * (k % 4)) 8 = payload.getD k 0) ∧
          fld (t.dreg (r d 0x60)) 16 6 = payload.length ∧ fld (t.dreg (r d 0x60)) 0 16 = (fld (s.dreg (r d 0x60)) 0 16 + 1) % 2 ^ 16 ∧
          ∀ a, a < r d 0x40 ∨ r d 0x64 ≤ a → t.dreg a = s.dreg a) ∧
      (∀ frame stops, s.power.io33 = true → stops = false ∨ spkAccept d frame = none →
        ∃ t, exec (.spokeReply b frame stops) s = .next t ∧ ended t ∧ t = { s with regs := t.regs, spoke := t.spoke, irqs := t.irqs, pe := t.pe } ∧
          fld (t.dreg (r d 0x64)) 0 16 = min (fld (s.dreg (r d 0x64)) 0 16 + 1) 0xFFFF ∧
          ∀ a, a ≠ r d 0x64 → t.dreg a = s.dreg a) ∧
      (∃ t, exec (.spokeTimeout b) s = .next t ∧ ended t ∧ t = { s with regs := t.regs, spoke := t.spoke, irqs := t.irqs, pe := t.pe } ∧
        fld (t.dreg (r d 0x64)) 16 16 = min (fld (s.dreg (r d 0x64)) 16 16 + 1) 0xFFFF ∧
        ∀ a, a ≠ r d 0x64 → t.dreg a = s.dreg a)) ∧
    (∀ v : Word, ∃ t bs, exec (.spkBcast b v) s = .next t ∧ t = { s with spoke := t.spoke } ∧ (∀ c, c ≠ b → t.spk c = s.spk c) ∧
      bs.length = min 32 (v.toNat % 2 ^ 6) ∧
      (∀ k, k < bs.length → bs.getD k 0 = (s.dreg (r 0 (k / 4 * 4))).extractLsb' (8 * (k % 4)) 8) ∧
      t.spk b = if x.busy = none ∧ x.bcastEnd ≤ s.root then
        { x with bcast := bs, bcastWait := none, bcastEnd := s.root + 2000 * (bs.length + 4) }
      else { x with bcastWait := some bs })

/-- R419, R430: a port is reset, resumed, connected and protected against over-current, and notes each change; the end of a
transfer record writes its code, timeout under over-current, and count into the record, what an IN transfer moved into its
buffer, after the 8 bytes of a control transfer, and moves HEAD on. -/
def Obligations.UsbPortsAndPipes : Prop :=
  ∀ (p : Nat) (s : State), p < 4 →
    let u := s.usbp p
    let r := 0x13050000 + 0x1000 * p
    let changed (t : State) (v : UsbPort) (i : Nat) : Prop := t.usbp p = v ∧ bit (t.dreg r) i = true ∧
      t = { s with usb := t.usb, regs := t.regs } ∧ (∀ q, q ≠ p → t.usbp q = s.usbp q) ∧ ∀ a, a ≠ r → t.dreg a = s.dreg a
    let upd (v : UsbPort) : State := s.modUsb p fun _ => v
    exec (.usbPortReset p) s = .next (upd { u with resetting := true }) ∧
    exec (.usbPortResume p) s = .next (upd { u with resuming := true }) ∧
    (∀ speed : BitVec 2, u.resetting = true → exec (.usbBusResetEnd p speed) s = .next (upd { u with
      resetting := false, enabled := u.connect, speed := if u.connect then speed.toNat else 3 })) ∧
    (u.resuming = true → ∃ t, exec (.usbResumeEnd p) s = .next t ∧ t.usbp p = { u with resuming := false } ∧
      bit (t.dreg r) 4 = false ∧ (∀ a, a ≠ r → t.dreg a = s.dreg a) ∧ t = { s with usb := t.usb, regs := t.regs }) ∧
    (u.connect = false → ∃ t, exec (.usbPortEvent p 0 true) s = .next t ∧ changed t { u with connect := true } 17) ∧
    (u.connect = true → ∃ t, exec (.usbPortEvent p 0 false) s = .next t ∧
      changed t { u with connect := false, enabled := false, speed := 3 } 17) ∧
    (bit (s.dreg r) 4 = true ∨ s.power.linksLow = true → ∃ t, exec (.usbPortEvent p 1 true) s = .next t ∧ changed t u 18) ∧
    (∀ level, u.oc ≠ level → ∃ t, exec (.usbPortEvent p 2 level) s = .next t ∧ changed t { u with oc := level } 19 ∧
      bit (t.dreg r) 6 = (bit (s.dreg r) 6 && !level)) ∧
    (∀ (i : Nat) (code : BitVec 8) (moved : Nat) (data : List Byte), i < 16 →
      let x := s.pipe p i
      let ctl := s.dreg (r + 0x100 + 0x20 * i + 8)
      let n := max 1 (min 12 (ctl.toNat / 2 ^ 16 % 2 ^ 4))
      let rec_ := (s.dreg (r + 0x100 + 0x20 * i)).toNat + 2 ^ 32 * ((s.dreg (r + 0x104 + 0x20 * i)).toNat % 2 ^ 8) +
        16 * (x.head % 2 ^ n)
      let w0 := s.le rec_ 4
      let len := s.le (rec_ + 4) 4 % 65536
      let off := if w0 / 2 ^ 11 % 4 = 0 then 8 else 0
      let buf := s.le (rec_ + 8) 5
      let data_ := buf + off
      bit ctl 31 = true → x.halted = false → (s.dreg (r + 0x10C + 0x20 * i)).toNat % 2 ^ 16 ≠ x.head →
      bit (s.dreg r) 4 = false → s.power.linksLow = false → s.memRange rec_ 16 = true →
      s.damaged [(rec_, 16), (buf, len + off)] = [] →
      let ends : Byte := if u.oc then 2 else code
      (s.memRange buf (len + off) = true → (buf + len + off ≤ rec_ ∨ rec_ + 16 ≤ buf) →
        ∃ t, exec (.pipeRecordEnd p i code moved data) s = .next t ∧
          t.pipe p i = { head := (x.head + 1) % 65536, halted := decide (ends ≠ 0), code := ends.toNat } ∧
          t.byte (rec_ + 0xD) = ends ∧ t.le (rec_ + 0xE) 2 = min moved len ∧
          (w0.testBit 13 = true → ∀ k, k < min moved len → k < data.length → t.byte (data_ + k) = data.getD k 0) ∧
          (∀ a, a < rec_ + 0xD ∨ rec_ + 0x10 ≤ a → w0.testBit 13 = false ∨ a < data_ ∨ data_ + min moved len ≤ a →
            t.byte a = s.byte a) ∧
          (w0.testBit 14 = true → bit (t.dreg (r + 0x114 + 0x20 * i)) 9 = true)) ∧
      (s.memRange buf (len + off) = false → ∃ t, exec (.pipeRecordEnd p i code moved data) s = .next t ∧
        t.pipe p i = { head := (x.head + 1) % 65536, halted := true, code := 5 } ∧ t.byte (rec_ + 0xD) = 5 ∧
        MemKeptOutside s t (rec_ + 0xD) 3))

/-- R341, R347, R414-R417, R431: a PCIe port notes its link state and the errors reported; the drive of an enabled root port
starts when its link comes up and has failed when it goes; through BAR2 the host writes a byte of the Orchard or the usable
LP5X, never of a shadow region, and where no symbol error stands reads without effect. R427, R429, R432: the serial controllers
start a transfer unless they are busy, and end it with their status bits; the UART keeps 16 bytes and counts the rest as lost;
the SPI controller reads, programs and erases the flash. -/
def Obligations.PciePortsAndSerialControllers : Prop :=
  (
  ∀ (p : Nat) (s : State), p < 2 →
    (∀ (st : BitVec 11) (unc cor : Word),
      let e := s.pep p
      let new := st &&& 0x77F
      let w := s.dreg (0x1000A10C + 0x40 * p)
      (s.straps.getLsbD (1 + p) = true → bit (s.dreg 0x1302C000) p = true → (s.drive p).state = 0 ∨ (s.drive p).state = 3 →
        e.status.getLsbD 0 = false → new.getLsbD 0 = true → ∃ t, exec (.peLinkEvent p st unc cor) s = .next t ∧
        (t.drive p).state = 1 ∧ (t.pep p).status = new) ∧
      (s.straps.getLsbD (1 + p) = true → (s.drive p).state ≠ 0 → e.status.getLsbD 0 = true → new.getLsbD 0 = false →
        ∃ t, exec (.peLinkEvent p st unc cor) s = .next t ∧ (t.drive p).state = 3 ∧ (t.pep p).status = new) ∧
      (s.straps.getLsbD (1 + p) = false ∨ e.status.getLsbD 0 = new.getLsbD 0 → s.load.readErr = false → ∃ t, exec (.peLinkEvent p st unc cor) s = .next t ∧ t = { s with pe := t.pe, regs := t.regs } ∧ (t.pep p).status = new ∧
        (t.pep p).trained = (e.trained || st.getLsbD 0) ∧
        bit (t.dreg (0x1000A10C + 0x40 * p)) 16 = (bit w 16 || (new &&& 0x37F) != (e.status &&& 0x37F)) ∧
        bit (t.dreg (0x1000A10C + 0x40 * p)) 17 = (bit w 17 || new.getLsbD 10 != e.status.getLsbD 10) ∧
        bit (t.dreg (0x1000A10C + 0x40 * p)) 18 = (bit w 18 || unc != 0 || cor != 0) ∧
        (unc ≠ 0 ∨ cor ≠ 0 → t.dreg (0x1000A110 + 0x40 * p) = unc ∧ t.dreg (0x1000A114 + 0x40 * p) = cor))) ∧
    (∀ (off : Nat) (v : Byte),
      let a := (s.dreg (0x1000A104 + 0x40 * p)).toNat + 2 ^ 32 * ((s.dreg (0x1000A108 + 0x40 * p)).toNat % 2 ^ 8) + off
      s.damaged [(a, 1)] = [] →
      exec (.hostBar2Access p off none) s = .next s ∧
      (s.straps.getLsbD (p + 1) = false → off < 0x10000000 → s.isMem a = true →
        (isShadow a = false → ∃ t, exec (.hostBar2Access p off (some v)) s = .next t ∧ t = { s with mem := t.mem } ∧
          ∀ b, t.byte b = if b = a then v else s.byte b) ∧
        (isShadow a = true → exec (.hostBar2Access p off (some v)) s = .next s)))) ∧
  (
  (∀ (n : Nat) (s : State), n < 2 →
    let x := s.i2cn n
    let r := 0x13060000 + 0x100 * n
    let len := min 16 ((s.dreg (r + 4)).toNat % 2 ^ 5)
    let ended (t : State) (bits : Nat) : Prop := (t.i2cn n).busy = false ∧ t.dreg (r + 0xC) = (s.dreg (r + 0xC) ||| BitVec.ofNat 32 bits) ∧
      t = { s with i2c := t.i2c, regs := t.regs, nonce := t.nonce } ∧ ∀ a, a ≠ r + 0xC → t.dreg a = s.dreg a
    (∀ v : Word, ∃ t, exec (.i2cStart n v) s = .next t ∧ t = { s with i2c := t.i2c, regs := t.regs } ∧ t.dreg (r + 4) = v &&& 0x607F001F ∧
      (∀ a, a ≠ r + 4 → t.dreg a = s.dreg a) ∧ t.i2cn n = { x with busy := x.busy || (bit v 31 && bit (s.dreg r) 8) }) ∧
    (∀ data, x.busy = true →
      (bit (s.dreg (r + 4)) 29 = false → ∃ t, exec (.i2cTransferEnd n false false data) s = .next t ∧ ended t 1 ∧
        (t.i2cn n).tx = x.tx.drop len ∧ (t.i2cn n).rx = x.rx) ∧
      (bit (s.dreg (r + 4)) 29 = true → ∃ t, exec (.i2cTransferEnd n false false data) s = .next t ∧ ended t 1 ∧
        (t.i2cn n).rx = (x.rx ++ data.take len).take 16 ∧ (t.i2cn n).tx = x.tx) ∧
      (∃ t, exec (.i2cTransferEnd n true false data) s = .next t ∧ ended t 3) ∧
      ∃ t, exec (.i2cTransferEnd n false true data) s = .next t ∧ ended t 5)) ∧
  (∀ (s : State),
    (∀ (b : Byte) (parity framing : Bool), ∃ t, exec (.uartReceive b parity framing) s = .next t ∧
      t = { s with uart := t.uart, regs := t.regs } ∧ (∀ a, a ≠ 0x13060208 → t.dreg a = s.dreg a) ∧
      t.uart = { s.uart with rx := if s.uart.rx.length < 16 then s.uart.rx ++ [b] else s.uart.rx } ∧
      bit (t.dreg 0x13060208) 16 = true ∧
      bit (t.dreg 0x13060208) 18 = (bit (s.dreg 0x13060208) 18 || decide (16 ≤ s.uart.rx.length)) ∧
      bit (t.dreg 0x13060208) 19 = (bit (s.dreg 0x13060208) 19 || framing) ∧
      bit (t.dreg 0x13060208) 20 = (bit (s.dreg 0x13060208) 20 || (parity && bit (s.dreg 0x13060200) 20))) ∧
    (∃ t, exec .uartTxEmpty s = .next t ∧ t = { s with uart := { s.uart with tx := [], busy := false }, regs := t.regs } ∧
      bit (t.dreg 0x13060208) 17 = true ∧ ∀ a, a ≠ 0x13060208 → t.dreg a = s.dreg a) ∧
    (∀ v : Word, ∃ t, exec (.spiStart v) s = .next t ∧ t = { s with regs := t.regs, spiBusy := s.spiBusy || bit v 31 } ∧
      t.dreg 0x13060400 = v &&& 0xFFFFF ∧ ∀ a, a ≠ 0x13060400 → t.dreg a = s.dreg a)) ∧
  ∀ (data : List Byte) (s : State), s.spiBusy = true →
    let cmd := s.dreg 0x13060400
    let a := (s.dreg 0x13060404).toNat
    let n := min 256 ((s.dreg 0x13060408).toNat % 2 ^ 9)
    let buf (t : State) (k : Nat) : Byte := (t.dreg (0x13060500 + k / 4 * 4)).extractLsb' (8 * (k % 4)) 8
    let ended (t : State) : Prop := t.spiBusy = false ∧ bit (t.dreg 0x1306040C) 0 = true ∧
      t = { s with regs := t.regs, flash := t.flash, spiBusy := false }
    let erased (from_ size : Nat) (t : State) : Prop := ended t ∧
      ∀ b, sget flashDefault t.flash b = if from_ ≤ b ∧ b < from_ + size then 0xFF else sget flashDefault s.flash b
    (bit cmd 9 = false → bit cmd 8 = true → cmd.toNat % 256 = 0x13 ∨ cmd.toNat % 256 = 0x6C →
      ∃ t, exec (.spiCommandEnd data) s = .next t ∧ ended t ∧ t.flash = s.flash ∧
        ∀ k, k < n → buf t k = sget flashDefault s.flash (a + k)) ∧
    (bit cmd 9 = true → bit cmd 8 = true → cmd.toNat % 256 = 0x12 → ∃ t, exec (.spiCommandEnd data) s = .next t ∧ ended t ∧
      ∀ b, sget flashDefault t.flash b =
        if a ≤ b ∧ b < a + n then sget flashDefault s.flash b &&& buf s (b - a) else sget flashDefault s.flash b) ∧
    (bit cmd 8 = true → cmd.toNat % 256 = 0x21 → ∃ t, exec (.spiCommandEnd data) s = .next t ∧ erased (a / 0x1000 * 0x1000) 0x1000 t) ∧
    (bit cmd 8 = true → cmd.toNat % 256 = 0xDC → ∃ t, exec (.spiCommandEnd data) s = .next t ∧ erased (a / 0x10000 * 0x10000) 0x10000 t))

/-- R41, R62, R64, R65, R418, R428: SERVICE, the boot request and the fuses are open to a debugger on a device that is not
secure or has been unlocked; a challenge and its response are events of source 493, a challenge is answered once, and closed
after three failures; a fuse that is programmed stays so. -/
def Obligations.JtagAndFuses : Prop :=
  ∀ s : State,
    let j := s.jtag
    let f := s.fuses
    let open_ := f.secure = false ∨ j.unlocked = true
    (open_ → (s.mode = .boot ∨ s.mode = .config) → s.power.inReset = false → ∃ t, exec .jtagServiceRequest s = .next t ∧
      t = { s with mode := .service, load := t.load } ∧ t.load.busy = false) ∧
    (open_ → s.mode = .service →
      exec .jtagBootRequest s = .next { s with jtag := { j with bootReq := true } } ∧
      ∀ v : BitVec 256,
        exec (.fuseProgram 0 v) s = .next { s with fuses := { f with secure := f.secure || v.getLsbD 0 } } ∧
        exec (.fuseProgram 1 v) s = .next { s with fuses := { f with keyHash := some (f.keyHash.getD v) } } ∧
        exec (.fuseProgram 2 v) s = .next { s with fuses := { f with imageKey := some (f.imageKey.getD v) } }) ∧
    (¬ open_ ∨ s.mode ≠ .service → exec .jtagBootRequest s = .next s ∧ ∀ w v, exec (.fuseProgram w v) s = .next s) ∧
    (¬ open_ → exec .jtagServiceRequest s = .next s) ∧
    let noted (t : State) (k : Jtag) : Prop := t = { s with jtag := k, irqs := t.irqs, pe := t.pe } ∧ (t.irq 493).pulse = true
    (∀ nonce : BitVec 128, f.secure = true → j.unlocked = false →
      (j.fails < 3 → ∃ t, exec (.jtagDebugChallenge nonce) s = .next t ∧ noted t { j with challenge := some nonce }) ∧
      (3 ≤ j.fails → ∃ t, exec (.jtagDebugChallenge nonce) s = .next t ∧ noted t j)) ∧
    (∀ nonce sig, j.challenge = some nonce →
      let after : Jtag := if s.responseOk nonce sig then { j with challenge := none, unlocked := true }
        else { j with challenge := none, fails := j.fails + 1 }
      ∃ t, exec (.jtagDebugResponse sig) s = .next t ∧ noted t after) ∧
    ∀ pins : BitVec 256, exec (.jtagExtest pins) s = .next { s with jtag := { j with extest := some pins } }

/-- R9, R12, R36, R426, R428: a register write reaches the register of its address with the access code of each field, memory
with all its bytes, and nothing where the initiator may not write; STAGE_GO changes the outputs the stage owns. The model stops
a Warden's or an open debugger's write to an address that R36 leaves unassigned. -/
def Obligations.RegisterWritesFollowTheMap : Prop :=
  ∀ (a : Nat) (v : Word) (s : State), a % 4 = 0 →
    (∀ w : Nat,
      (s.assigned a = false → exec (.registerWrite (.warden w) a v) s = .fault .unassignedAddress) ∧
      (s.isMem a = true → s.damaged [(a, 4)] = [] → ∃ t, exec (.registerWrite (.warden w) a v) s = .next t ∧
        t = { s with mem := t.mem } ∧ t.le a 4 = v.toNat ∧ MemKeptOutside s t a 4) ∧
      (∀ row, 0x10000000 ≤ a → a < 0x11000000 → deviceRow a = some row → row.pair = .plain →
        (a < 0x1000A100 ∨ 0x1000B800 ≤ a) → a ≠ 0x10000104 → a ≠ 0x10006000 →
        ∃ t, exec (.registerWrite (.warden w) a v) s = .next t ∧ t = { s with regs := t.regs } ∧
          t.dreg a = row.write (s.dreg a) v 0xFFFFFFFF ∧ ∀ b, b ≠ a → t.dreg b = s.dreg b)) ∧
    (s.debugOpen = false → exec (.registerWrite .debug a v) s = .next s) ∧
    (∀ k : Nat, 0x10000000 ≤ a → a < 0x12000000 → s.isMem a = false →
      exec (.registerWrite (.pip k) a v) s = .next (s.accViol (.pip k) a)) ∧
    (∀ (k i : Nat), s.isMem a = true → s.initStage (.pip k) = some i → (s.stage i).inSegs a 4 = false →
      exec (.registerWrite (.pip k) a v) s = .next s) ∧
    (∀ (ini : Initiator) (i : Nat), i < 4 → (s.stage i).chord.flips = [] →
      (s.stage i).chord.arrived = [] →
      (s.mayWrite ini (some i) = true → ∃ t, exec (.stageGo ini i v) s = .next t ∧
        (∀ b, b < 32 → bit ((t.stage i).reg 0x500) b = if (s.stage i).goOwn.getLsbD b then bit v b else bit ((s.stage i).reg 0x500) b) ∧
        (∀ j, j ≠ i → t.stage j = s.stage j) ∧ t.mem = s.mem) ∧
      (s.mayWrite ini (some i) = false → exec (.stageGo ini i v) s = .next (s.accViol ini (0x12000500 + 0x400000 * i))))
end

