-- ==== Sys2Proof/Laws/State.lean ====
section
/-!
SUPPORT. One law per field of State and per named update: what the update leaves in the field. Each is true by
rfl; `id rfl` keeps simp from using it by definitional unfolding, where the kernel would compare whole states.
-/

namespace Sys2Proof.Machine

/-! ### State.setStage -/

@[simp] theorem State.setStage_pending (s : State) (i : Nat) (x : Stage) : (s.setStage i x).pending = s.pending := id rfl

@[simp] theorem State.setStage_nonce (s : State) (i : Nat) (x : Stage) : (s.setStage i x).nonce = s.nonce := id rfl

@[simp] theorem State.setStage_fab (s : State) (i : Nat) (x : Stage) : (s.setStage i x).fab = s.fab := id rfl

@[simp] theorem State.setStage_root (s : State) (i : Nat) (x : Stage) : (s.setStage i x).root = s.root := id rfl

@[simp] theorem State.setStage_mode (s : State) (i : Nat) (x : Stage) : (s.setStage i x).mode = s.mode := id rfl

@[simp] theorem State.setStage_mem (s : State) (i : Nat) (x : Stage) : (s.setStage i x).mem = s.mem := id rfl

@[simp] theorem State.setStage_errs (s : State) (i : Nat) (x : Stage) : (s.setStage i x).errs = s.errs := id rfl

@[simp] theorem State.setStage_flash (s : State) (i : Nat) (x : Stage) : (s.setStage i x).flash = s.flash := id rfl

@[simp] theorem State.setStage_regs (s : State) (i : Nat) (x : Stage) : (s.setStage i x).regs = s.regs := id rfl

@[simp] theorem State.setStage_hi (s : State) (i : Nat) (x : Stage) : (s.setStage i x).hi = s.hi := id rfl

@[simp] theorem State.setStage_stages (s : State) (i : Nat) (x : Stage) : (s.setStage i x).stages = vset s.stages i x := id rfl

@[simp] theorem State.setStage_cores (s : State) (i : Nat) (x : Stage) : (s.setStage i x).cores = s.cores := id rfl

@[simp] theorem State.setStage_irqs (s : State) (i : Nat) (x : Stage) : (s.setStage i x).irqs = s.irqs := id rfl

@[simp] theorem State.setStage_badEoi (s : State) (i : Nat) (x : Stage) : (s.setStage i x).badEoi = s.badEoi := id rfl

@[simp] theorem State.setStage_mbox (s : State) (i : Nat) (x : Stage) : (s.setStage i x).mbox = s.mbox := id rfl

@[simp] theorem State.setStage_chans (s : State) (i : Nat) (x : Stage) : (s.setStage i x).chans = s.chans := id rfl

@[simp] theorem State.setStage_rings (s : State) (i : Nat) (x : Stage) : (s.setStage i x).rings = s.rings := id rfl

@[simp] theorem State.setStage_badRing (s : State) (i : Nat) (x : Stage) : (s.setStage i x).badRing = s.badRing := id rfl

@[simp] theorem State.setStage_store (s : State) (i : Nat) (x : Stage) : (s.setStage i x).store = s.store := id rfl

@[simp] theorem State.setStage_timers (s : State) (i : Nat) (x : Stage) : (s.setStage i x).timers = s.timers := id rfl

@[simp] theorem State.setStage_tally (s : State) (i : Nat) (x : Stage) : (s.setStage i x).tally = s.tally := id rfl

@[simp] theorem State.setStage_sectors (s : State) (i : Nat) (x : Stage) : (s.setStage i x).sectors = s.sectors := id rfl

@[simp] theorem State.setStage_faults (s : State) (i : Nat) (x : Stage) : (s.setStage i x).faults = s.faults := id rfl

@[simp] theorem State.setStage_keeper (s : State) (i : Nat) (x : Stage) : (s.setStage i x).keeper = s.keeper := id rfl

@[simp] theorem State.setStage_power (s : State) (i : Nat) (x : Stage) : (s.setStage i x).power = s.power := id rfl

@[simp] theorem State.setStage_lpx (s : State) (i : Nat) (x : Stage) : (s.setStage i x).lpx = s.lpx := id rfl

@[simp] theorem State.setStage_load (s : State) (i : Nat) (x : Stage) : (s.setStage i x).load = s.load := id rfl

@[simp] theorem State.setStage_fuses (s : State) (i : Nat) (x : Stage) : (s.setStage i x).fuses = s.fuses := id rfl

@[simp] theorem State.setStage_straps (s : State) (i : Nat) (x : Stage) : (s.setStage i x).straps = s.straps := id rfl

@[simp] theorem State.setStage_qiPins (s : State) (i : Nat) (x : Stage) : (s.setStage i x).qiPins = s.qiPins := id rfl

@[simp] theorem State.setStage_qi (s : State) (i : Nat) (x : Stage) : (s.setStage i x).qi = s.qi := id rfl

@[simp] theorem State.setStage_qiAt (s : State) (i : Nat) (x : Stage) : (s.setStage i x).qiAt = s.qiAt := id rfl

@[simp] theorem State.setStage_qiPresc (s : State) (i : Nat) (x : Stage) : (s.setStage i x).qiPresc = s.qiPresc := id rfl

@[simp] theorem State.setStage_hpd (s : State) (i : Nat) (x : Stage) : (s.setStage i x).hpd = s.hpd := id rfl

@[simp] theorem State.setStage_edidBusy (s : State) (i : Nat) (x : Stage) : (s.setStage i x).edidBusy = s.edidBusy := id rfl

@[simp] theorem State.setStage_pe (s : State) (i : Nat) (x : Stage) : (s.setStage i x).pe = s.pe := id rfl

@[simp] theorem State.setStage_usb (s : State) (i : Nat) (x : Stage) : (s.setStage i x).usb = s.usb := id rfl

@[simp] theorem State.setStage_pipes (s : State) (i : Nat) (x : Stage) : (s.setStage i x).pipes = s.pipes := id rfl

@[simp] theorem State.setStage_spoke (s : State) (i : Nat) (x : Stage) : (s.setStage i x).spoke = s.spoke := id rfl

@[simp] theorem State.setStage_i2c (s : State) (i : Nat) (x : Stage) : (s.setStage i x).i2c = s.i2c := id rfl

@[simp] theorem State.setStage_uart (s : State) (i : Nat) (x : Stage) : (s.setStage i x).uart = s.uart := id rfl

@[simp] theorem State.setStage_spiBusy (s : State) (i : Nat) (x : Stage) : (s.setStage i x).spiBusy = s.spiBusy := id rfl

@[simp] theorem State.setStage_jtag (s : State) (i : Nat) (x : Stage) : (s.setStage i x).jtag = s.jtag := id rfl

@[simp] theorem State.setStage_goDriven (s : State) (i : Nat) (x : Stage) : (s.setStage i x).goDriven = s.goDriven := id rfl

@[simp] theorem State.setStage_goHeld (s : State) (i : Nat) (x : Stage) : (s.setStage i x).goHeld = s.goHeld := id rfl

/-! ### State.setCore -/

@[simp] theorem State.setCore_pending (s : State) (k : Nat) (x : Core) : (s.setCore k x).pending = s.pending := id rfl

@[simp] theorem State.setCore_nonce (s : State) (k : Nat) (x : Core) : (s.setCore k x).nonce = s.nonce := id rfl

@[simp] theorem State.setCore_fab (s : State) (k : Nat) (x : Core) : (s.setCore k x).fab = s.fab := id rfl

@[simp] theorem State.setCore_root (s : State) (k : Nat) (x : Core) : (s.setCore k x).root = s.root := id rfl

@[simp] theorem State.setCore_mode (s : State) (k : Nat) (x : Core) : (s.setCore k x).mode = s.mode := id rfl

@[simp] theorem State.setCore_mem (s : State) (k : Nat) (x : Core) : (s.setCore k x).mem = s.mem := id rfl

@[simp] theorem State.setCore_errs (s : State) (k : Nat) (x : Core) : (s.setCore k x).errs = s.errs := id rfl

@[simp] theorem State.setCore_flash (s : State) (k : Nat) (x : Core) : (s.setCore k x).flash = s.flash := id rfl

@[simp] theorem State.setCore_regs (s : State) (k : Nat) (x : Core) : (s.setCore k x).regs = s.regs := id rfl

@[simp] theorem State.setCore_hi (s : State) (k : Nat) (x : Core) : (s.setCore k x).hi = s.hi := id rfl

@[simp] theorem State.setCore_stages (s : State) (k : Nat) (x : Core) : (s.setCore k x).stages = s.stages := id rfl

@[simp] theorem State.setCore_cores (s : State) (k : Nat) (x : Core) : (s.setCore k x).cores = vset s.cores k x := id rfl

@[simp] theorem State.setCore_irqs (s : State) (k : Nat) (x : Core) : (s.setCore k x).irqs = s.irqs := id rfl

@[simp] theorem State.setCore_badEoi (s : State) (k : Nat) (x : Core) : (s.setCore k x).badEoi = s.badEoi := id rfl

@[simp] theorem State.setCore_mbox (s : State) (k : Nat) (x : Core) : (s.setCore k x).mbox = s.mbox := id rfl

@[simp] theorem State.setCore_chans (s : State) (k : Nat) (x : Core) : (s.setCore k x).chans = s.chans := id rfl

@[simp] theorem State.setCore_rings (s : State) (k : Nat) (x : Core) : (s.setCore k x).rings = s.rings := id rfl

@[simp] theorem State.setCore_badRing (s : State) (k : Nat) (x : Core) : (s.setCore k x).badRing = s.badRing := id rfl

@[simp] theorem State.setCore_store (s : State) (k : Nat) (x : Core) : (s.setCore k x).store = s.store := id rfl

@[simp] theorem State.setCore_timers (s : State) (k : Nat) (x : Core) : (s.setCore k x).timers = s.timers := id rfl

@[simp] theorem State.setCore_tally (s : State) (k : Nat) (x : Core) : (s.setCore k x).tally = s.tally := id rfl

@[simp] theorem State.setCore_sectors (s : State) (k : Nat) (x : Core) : (s.setCore k x).sectors = s.sectors := id rfl

@[simp] theorem State.setCore_faults (s : State) (k : Nat) (x : Core) : (s.setCore k x).faults = s.faults := id rfl

@[simp] theorem State.setCore_keeper (s : State) (k : Nat) (x : Core) : (s.setCore k x).keeper = s.keeper := id rfl

@[simp] theorem State.setCore_power (s : State) (k : Nat) (x : Core) : (s.setCore k x).power = s.power := id rfl

@[simp] theorem State.setCore_lpx (s : State) (k : Nat) (x : Core) : (s.setCore k x).lpx = s.lpx := id rfl

@[simp] theorem State.setCore_load (s : State) (k : Nat) (x : Core) : (s.setCore k x).load = s.load := id rfl

@[simp] theorem State.setCore_fuses (s : State) (k : Nat) (x : Core) : (s.setCore k x).fuses = s.fuses := id rfl

@[simp] theorem State.setCore_straps (s : State) (k : Nat) (x : Core) : (s.setCore k x).straps = s.straps := id rfl

@[simp] theorem State.setCore_qiPins (s : State) (k : Nat) (x : Core) : (s.setCore k x).qiPins = s.qiPins := id rfl

@[simp] theorem State.setCore_qi (s : State) (k : Nat) (x : Core) : (s.setCore k x).qi = s.qi := id rfl

@[simp] theorem State.setCore_qiAt (s : State) (k : Nat) (x : Core) : (s.setCore k x).qiAt = s.qiAt := id rfl

@[simp] theorem State.setCore_qiPresc (s : State) (k : Nat) (x : Core) : (s.setCore k x).qiPresc = s.qiPresc := id rfl

@[simp] theorem State.setCore_hpd (s : State) (k : Nat) (x : Core) : (s.setCore k x).hpd = s.hpd := id rfl

@[simp] theorem State.setCore_edidBusy (s : State) (k : Nat) (x : Core) : (s.setCore k x).edidBusy = s.edidBusy := id rfl

@[simp] theorem State.setCore_pe (s : State) (k : Nat) (x : Core) : (s.setCore k x).pe = s.pe := id rfl

@[simp] theorem State.setCore_usb (s : State) (k : Nat) (x : Core) : (s.setCore k x).usb = s.usb := id rfl

@[simp] theorem State.setCore_pipes (s : State) (k : Nat) (x : Core) : (s.setCore k x).pipes = s.pipes := id rfl

@[simp] theorem State.setCore_spoke (s : State) (k : Nat) (x : Core) : (s.setCore k x).spoke = s.spoke := id rfl

@[simp] theorem State.setCore_i2c (s : State) (k : Nat) (x : Core) : (s.setCore k x).i2c = s.i2c := id rfl

@[simp] theorem State.setCore_uart (s : State) (k : Nat) (x : Core) : (s.setCore k x).uart = s.uart := id rfl

@[simp] theorem State.setCore_spiBusy (s : State) (k : Nat) (x : Core) : (s.setCore k x).spiBusy = s.spiBusy := id rfl

@[simp] theorem State.setCore_jtag (s : State) (k : Nat) (x : Core) : (s.setCore k x).jtag = s.jtag := id rfl

@[simp] theorem State.setCore_goDriven (s : State) (k : Nat) (x : Core) : (s.setCore k x).goDriven = s.goDriven := id rfl

@[simp] theorem State.setCore_goHeld (s : State) (k : Nat) (x : Core) : (s.setCore k x).goHeld = s.goHeld := id rfl

/-! ### State.setIrq -/

@[simp] theorem State.setIrq_pending (s : State) (n : Nat) (x : Irq) : (s.setIrq n x).pending = s.pending := id rfl

@[simp] theorem State.setIrq_nonce (s : State) (n : Nat) (x : Irq) : (s.setIrq n x).nonce = s.nonce := id rfl

@[simp] theorem State.setIrq_fab (s : State) (n : Nat) (x : Irq) : (s.setIrq n x).fab = s.fab := id rfl

@[simp] theorem State.setIrq_root (s : State) (n : Nat) (x : Irq) : (s.setIrq n x).root = s.root := id rfl

@[simp] theorem State.setIrq_mode (s : State) (n : Nat) (x : Irq) : (s.setIrq n x).mode = s.mode := id rfl

@[simp] theorem State.setIrq_mem (s : State) (n : Nat) (x : Irq) : (s.setIrq n x).mem = s.mem := id rfl

@[simp] theorem State.setIrq_errs (s : State) (n : Nat) (x : Irq) : (s.setIrq n x).errs = s.errs := id rfl

@[simp] theorem State.setIrq_flash (s : State) (n : Nat) (x : Irq) : (s.setIrq n x).flash = s.flash := id rfl

@[simp] theorem State.setIrq_regs (s : State) (n : Nat) (x : Irq) : (s.setIrq n x).regs = s.regs := id rfl

@[simp] theorem State.setIrq_hi (s : State) (n : Nat) (x : Irq) : (s.setIrq n x).hi = s.hi := id rfl

@[simp] theorem State.setIrq_stages (s : State) (n : Nat) (x : Irq) : (s.setIrq n x).stages = s.stages := id rfl

@[simp] theorem State.setIrq_cores (s : State) (n : Nat) (x : Irq) : (s.setIrq n x).cores = s.cores := id rfl

@[simp] theorem State.setIrq_irqs (s : State) (n : Nat) (x : Irq) : (s.setIrq n x).irqs = sset (fun _ => ({} : Irq)) s.irqs n x := id rfl

@[simp] theorem State.setIrq_badEoi (s : State) (n : Nat) (x : Irq) : (s.setIrq n x).badEoi = s.badEoi := id rfl

@[simp] theorem State.setIrq_mbox (s : State) (n : Nat) (x : Irq) : (s.setIrq n x).mbox = s.mbox := id rfl

@[simp] theorem State.setIrq_chans (s : State) (n : Nat) (x : Irq) : (s.setIrq n x).chans = s.chans := id rfl

@[simp] theorem State.setIrq_rings (s : State) (n : Nat) (x : Irq) : (s.setIrq n x).rings = s.rings := id rfl

@[simp] theorem State.setIrq_badRing (s : State) (n : Nat) (x : Irq) : (s.setIrq n x).badRing = s.badRing := id rfl

@[simp] theorem State.setIrq_store (s : State) (n : Nat) (x : Irq) : (s.setIrq n x).store = s.store := id rfl

@[simp] theorem State.setIrq_timers (s : State) (n : Nat) (x : Irq) : (s.setIrq n x).timers = s.timers := id rfl

@[simp] theorem State.setIrq_tally (s : State) (n : Nat) (x : Irq) : (s.setIrq n x).tally = s.tally := id rfl

@[simp] theorem State.setIrq_sectors (s : State) (n : Nat) (x : Irq) : (s.setIrq n x).sectors = s.sectors := id rfl

@[simp] theorem State.setIrq_faults (s : State) (n : Nat) (x : Irq) : (s.setIrq n x).faults = s.faults := id rfl

@[simp] theorem State.setIrq_keeper (s : State) (n : Nat) (x : Irq) : (s.setIrq n x).keeper = s.keeper := id rfl

@[simp] theorem State.setIrq_power (s : State) (n : Nat) (x : Irq) : (s.setIrq n x).power = s.power := id rfl

@[simp] theorem State.setIrq_lpx (s : State) (n : Nat) (x : Irq) : (s.setIrq n x).lpx = s.lpx := id rfl

@[simp] theorem State.setIrq_load (s : State) (n : Nat) (x : Irq) : (s.setIrq n x).load = s.load := id rfl

@[simp] theorem State.setIrq_fuses (s : State) (n : Nat) (x : Irq) : (s.setIrq n x).fuses = s.fuses := id rfl

@[simp] theorem State.setIrq_straps (s : State) (n : Nat) (x : Irq) : (s.setIrq n x).straps = s.straps := id rfl

@[simp] theorem State.setIrq_qiPins (s : State) (n : Nat) (x : Irq) : (s.setIrq n x).qiPins = s.qiPins := id rfl

@[simp] theorem State.setIrq_qi (s : State) (n : Nat) (x : Irq) : (s.setIrq n x).qi = s.qi := id rfl

@[simp] theorem State.setIrq_qiAt (s : State) (n : Nat) (x : Irq) : (s.setIrq n x).qiAt = s.qiAt := id rfl

@[simp] theorem State.setIrq_qiPresc (s : State) (n : Nat) (x : Irq) : (s.setIrq n x).qiPresc = s.qiPresc := id rfl

@[simp] theorem State.setIrq_hpd (s : State) (n : Nat) (x : Irq) : (s.setIrq n x).hpd = s.hpd := id rfl

@[simp] theorem State.setIrq_edidBusy (s : State) (n : Nat) (x : Irq) : (s.setIrq n x).edidBusy = s.edidBusy := id rfl

@[simp] theorem State.setIrq_pe (s : State) (n : Nat) (x : Irq) : (s.setIrq n x).pe = s.pe := id rfl

@[simp] theorem State.setIrq_usb (s : State) (n : Nat) (x : Irq) : (s.setIrq n x).usb = s.usb := id rfl

@[simp] theorem State.setIrq_pipes (s : State) (n : Nat) (x : Irq) : (s.setIrq n x).pipes = s.pipes := id rfl

@[simp] theorem State.setIrq_spoke (s : State) (n : Nat) (x : Irq) : (s.setIrq n x).spoke = s.spoke := id rfl

@[simp] theorem State.setIrq_i2c (s : State) (n : Nat) (x : Irq) : (s.setIrq n x).i2c = s.i2c := id rfl

@[simp] theorem State.setIrq_uart (s : State) (n : Nat) (x : Irq) : (s.setIrq n x).uart = s.uart := id rfl

@[simp] theorem State.setIrq_spiBusy (s : State) (n : Nat) (x : Irq) : (s.setIrq n x).spiBusy = s.spiBusy := id rfl

@[simp] theorem State.setIrq_jtag (s : State) (n : Nat) (x : Irq) : (s.setIrq n x).jtag = s.jtag := id rfl

@[simp] theorem State.setIrq_goDriven (s : State) (n : Nat) (x : Irq) : (s.setIrq n x).goDriven = s.goDriven := id rfl

@[simp] theorem State.setIrq_goHeld (s : State) (n : Nat) (x : Irq) : (s.setIrq n x).goHeld = s.goHeld := id rfl

/-! ### State.setMb -/

@[simp] theorem State.setMb_pending (s : State) (m : Nat) (x : Mailbox) : (s.setMb m x).pending = s.pending := id rfl

@[simp] theorem State.setMb_nonce (s : State) (m : Nat) (x : Mailbox) : (s.setMb m x).nonce = s.nonce := id rfl

@[simp] theorem State.setMb_fab (s : State) (m : Nat) (x : Mailbox) : (s.setMb m x).fab = s.fab := id rfl

@[simp] theorem State.setMb_root (s : State) (m : Nat) (x : Mailbox) : (s.setMb m x).root = s.root := id rfl

@[simp] theorem State.setMb_mode (s : State) (m : Nat) (x : Mailbox) : (s.setMb m x).mode = s.mode := id rfl

@[simp] theorem State.setMb_mem (s : State) (m : Nat) (x : Mailbox) : (s.setMb m x).mem = s.mem := id rfl

@[simp] theorem State.setMb_errs (s : State) (m : Nat) (x : Mailbox) : (s.setMb m x).errs = s.errs := id rfl

@[simp] theorem State.setMb_flash (s : State) (m : Nat) (x : Mailbox) : (s.setMb m x).flash = s.flash := id rfl

@[simp] theorem State.setMb_regs (s : State) (m : Nat) (x : Mailbox) : (s.setMb m x).regs = s.regs := id rfl

@[simp] theorem State.setMb_hi (s : State) (m : Nat) (x : Mailbox) : (s.setMb m x).hi = s.hi := id rfl

@[simp] theorem State.setMb_stages (s : State) (m : Nat) (x : Mailbox) : (s.setMb m x).stages = s.stages := id rfl

@[simp] theorem State.setMb_cores (s : State) (m : Nat) (x : Mailbox) : (s.setMb m x).cores = s.cores := id rfl

@[simp] theorem State.setMb_irqs (s : State) (m : Nat) (x : Mailbox) : (s.setMb m x).irqs = s.irqs := id rfl

@[simp] theorem State.setMb_badEoi (s : State) (m : Nat) (x : Mailbox) : (s.setMb m x).badEoi = s.badEoi := id rfl

@[simp] theorem State.setMb_mbox (s : State) (m : Nat) (x : Mailbox) : (s.setMb m x).mbox = vset s.mbox m x := id rfl

@[simp] theorem State.setMb_chans (s : State) (m : Nat) (x : Mailbox) : (s.setMb m x).chans = s.chans := id rfl

@[simp] theorem State.setMb_rings (s : State) (m : Nat) (x : Mailbox) : (s.setMb m x).rings = s.rings := id rfl

@[simp] theorem State.setMb_badRing (s : State) (m : Nat) (x : Mailbox) : (s.setMb m x).badRing = s.badRing := id rfl

@[simp] theorem State.setMb_store (s : State) (m : Nat) (x : Mailbox) : (s.setMb m x).store = s.store := id rfl

@[simp] theorem State.setMb_timers (s : State) (m : Nat) (x : Mailbox) : (s.setMb m x).timers = s.timers := id rfl

@[simp] theorem State.setMb_tally (s : State) (m : Nat) (x : Mailbox) : (s.setMb m x).tally = s.tally := id rfl

@[simp] theorem State.setMb_sectors (s : State) (m : Nat) (x : Mailbox) : (s.setMb m x).sectors = s.sectors := id rfl

@[simp] theorem State.setMb_faults (s : State) (m : Nat) (x : Mailbox) : (s.setMb m x).faults = s.faults := id rfl

@[simp] theorem State.setMb_keeper (s : State) (m : Nat) (x : Mailbox) : (s.setMb m x).keeper = s.keeper := id rfl

@[simp] theorem State.setMb_power (s : State) (m : Nat) (x : Mailbox) : (s.setMb m x).power = s.power := id rfl

@[simp] theorem State.setMb_lpx (s : State) (m : Nat) (x : Mailbox) : (s.setMb m x).lpx = s.lpx := id rfl

@[simp] theorem State.setMb_load (s : State) (m : Nat) (x : Mailbox) : (s.setMb m x).load = s.load := id rfl

@[simp] theorem State.setMb_fuses (s : State) (m : Nat) (x : Mailbox) : (s.setMb m x).fuses = s.fuses := id rfl

@[simp] theorem State.setMb_straps (s : State) (m : Nat) (x : Mailbox) : (s.setMb m x).straps = s.straps := id rfl

@[simp] theorem State.setMb_qiPins (s : State) (m : Nat) (x : Mailbox) : (s.setMb m x).qiPins = s.qiPins := id rfl

@[simp] theorem State.setMb_qi (s : State) (m : Nat) (x : Mailbox) : (s.setMb m x).qi = s.qi := id rfl

@[simp] theorem State.setMb_qiAt (s : State) (m : Nat) (x : Mailbox) : (s.setMb m x).qiAt = s.qiAt := id rfl

@[simp] theorem State.setMb_qiPresc (s : State) (m : Nat) (x : Mailbox) : (s.setMb m x).qiPresc = s.qiPresc := id rfl

@[simp] theorem State.setMb_hpd (s : State) (m : Nat) (x : Mailbox) : (s.setMb m x).hpd = s.hpd := id rfl

@[simp] theorem State.setMb_edidBusy (s : State) (m : Nat) (x : Mailbox) : (s.setMb m x).edidBusy = s.edidBusy := id rfl

@[simp] theorem State.setMb_pe (s : State) (m : Nat) (x : Mailbox) : (s.setMb m x).pe = s.pe := id rfl

@[simp] theorem State.setMb_usb (s : State) (m : Nat) (x : Mailbox) : (s.setMb m x).usb = s.usb := id rfl

@[simp] theorem State.setMb_pipes (s : State) (m : Nat) (x : Mailbox) : (s.setMb m x).pipes = s.pipes := id rfl

@[simp] theorem State.setMb_spoke (s : State) (m : Nat) (x : Mailbox) : (s.setMb m x).spoke = s.spoke := id rfl

@[simp] theorem State.setMb_i2c (s : State) (m : Nat) (x : Mailbox) : (s.setMb m x).i2c = s.i2c := id rfl

@[simp] theorem State.setMb_uart (s : State) (m : Nat) (x : Mailbox) : (s.setMb m x).uart = s.uart := id rfl

@[simp] theorem State.setMb_spiBusy (s : State) (m : Nat) (x : Mailbox) : (s.setMb m x).spiBusy = s.spiBusy := id rfl

@[simp] theorem State.setMb_jtag (s : State) (m : Nat) (x : Mailbox) : (s.setMb m x).jtag = s.jtag := id rfl

@[simp] theorem State.setMb_goDriven (s : State) (m : Nat) (x : Mailbox) : (s.setMb m x).goDriven = s.goDriven := id rfl

@[simp] theorem State.setMb_goHeld (s : State) (m : Nat) (x : Mailbox) : (s.setMb m x).goHeld = s.goHeld := id rfl

/-! ### State.setChan -/

@[simp] theorem State.setChan_pending (s : State) (c : Nat) (x : VChan) : (s.setChan c x).pending = s.pending := id rfl

@[simp] theorem State.setChan_nonce (s : State) (c : Nat) (x : VChan) : (s.setChan c x).nonce = s.nonce := id rfl

@[simp] theorem State.setChan_fab (s : State) (c : Nat) (x : VChan) : (s.setChan c x).fab = s.fab := id rfl

@[simp] theorem State.setChan_root (s : State) (c : Nat) (x : VChan) : (s.setChan c x).root = s.root := id rfl

@[simp] theorem State.setChan_mode (s : State) (c : Nat) (x : VChan) : (s.setChan c x).mode = s.mode := id rfl

@[simp] theorem State.setChan_mem (s : State) (c : Nat) (x : VChan) : (s.setChan c x).mem = s.mem := id rfl

@[simp] theorem State.setChan_errs (s : State) (c : Nat) (x : VChan) : (s.setChan c x).errs = s.errs := id rfl

@[simp] theorem State.setChan_flash (s : State) (c : Nat) (x : VChan) : (s.setChan c x).flash = s.flash := id rfl

@[simp] theorem State.setChan_regs (s : State) (c : Nat) (x : VChan) : (s.setChan c x).regs = s.regs := id rfl

@[simp] theorem State.setChan_hi (s : State) (c : Nat) (x : VChan) : (s.setChan c x).hi = s.hi := id rfl

@[simp] theorem State.setChan_stages (s : State) (c : Nat) (x : VChan) : (s.setChan c x).stages = s.stages := id rfl

@[simp] theorem State.setChan_cores (s : State) (c : Nat) (x : VChan) : (s.setChan c x).cores = s.cores := id rfl

@[simp] theorem State.setChan_irqs (s : State) (c : Nat) (x : VChan) : (s.setChan c x).irqs = s.irqs := id rfl

@[simp] theorem State.setChan_badEoi (s : State) (c : Nat) (x : VChan) : (s.setChan c x).badEoi = s.badEoi := id rfl

@[simp] theorem State.setChan_mbox (s : State) (c : Nat) (x : VChan) : (s.setChan c x).mbox = s.mbox := id rfl

@[simp] theorem State.setChan_chans (s : State) (c : Nat) (x : VChan) : (s.setChan c x).chans = sset (fun _ => ({} : VChan)) s.chans c x := id rfl

@[simp] theorem State.setChan_rings (s : State) (c : Nat) (x : VChan) : (s.setChan c x).rings = s.rings := id rfl

@[simp] theorem State.setChan_badRing (s : State) (c : Nat) (x : VChan) : (s.setChan c x).badRing = s.badRing := id rfl

@[simp] theorem State.setChan_store (s : State) (c : Nat) (x : VChan) : (s.setChan c x).store = s.store := id rfl

@[simp] theorem State.setChan_timers (s : State) (c : Nat) (x : VChan) : (s.setChan c x).timers = s.timers := id rfl

@[simp] theorem State.setChan_tally (s : State) (c : Nat) (x : VChan) : (s.setChan c x).tally = s.tally := id rfl

@[simp] theorem State.setChan_sectors (s : State) (c : Nat) (x : VChan) : (s.setChan c x).sectors = s.sectors := id rfl

@[simp] theorem State.setChan_faults (s : State) (c : Nat) (x : VChan) : (s.setChan c x).faults = s.faults := id rfl

@[simp] theorem State.setChan_keeper (s : State) (c : Nat) (x : VChan) : (s.setChan c x).keeper = s.keeper := id rfl

@[simp] theorem State.setChan_power (s : State) (c : Nat) (x : VChan) : (s.setChan c x).power = s.power := id rfl

@[simp] theorem State.setChan_lpx (s : State) (c : Nat) (x : VChan) : (s.setChan c x).lpx = s.lpx := id rfl

@[simp] theorem State.setChan_load (s : State) (c : Nat) (x : VChan) : (s.setChan c x).load = s.load := id rfl

@[simp] theorem State.setChan_fuses (s : State) (c : Nat) (x : VChan) : (s.setChan c x).fuses = s.fuses := id rfl

@[simp] theorem State.setChan_straps (s : State) (c : Nat) (x : VChan) : (s.setChan c x).straps = s.straps := id rfl

@[simp] theorem State.setChan_qiPins (s : State) (c : Nat) (x : VChan) : (s.setChan c x).qiPins = s.qiPins := id rfl

@[simp] theorem State.setChan_qi (s : State) (c : Nat) (x : VChan) : (s.setChan c x).qi = s.qi := id rfl

@[simp] theorem State.setChan_qiAt (s : State) (c : Nat) (x : VChan) : (s.setChan c x).qiAt = s.qiAt := id rfl

@[simp] theorem State.setChan_qiPresc (s : State) (c : Nat) (x : VChan) : (s.setChan c x).qiPresc = s.qiPresc := id rfl

@[simp] theorem State.setChan_hpd (s : State) (c : Nat) (x : VChan) : (s.setChan c x).hpd = s.hpd := id rfl

@[simp] theorem State.setChan_edidBusy (s : State) (c : Nat) (x : VChan) : (s.setChan c x).edidBusy = s.edidBusy := id rfl

@[simp] theorem State.setChan_pe (s : State) (c : Nat) (x : VChan) : (s.setChan c x).pe = s.pe := id rfl

@[simp] theorem State.setChan_usb (s : State) (c : Nat) (x : VChan) : (s.setChan c x).usb = s.usb := id rfl

@[simp] theorem State.setChan_pipes (s : State) (c : Nat) (x : VChan) : (s.setChan c x).pipes = s.pipes := id rfl

@[simp] theorem State.setChan_spoke (s : State) (c : Nat) (x : VChan) : (s.setChan c x).spoke = s.spoke := id rfl

@[simp] theorem State.setChan_i2c (s : State) (c : Nat) (x : VChan) : (s.setChan c x).i2c = s.i2c := id rfl

@[simp] theorem State.setChan_uart (s : State) (c : Nat) (x : VChan) : (s.setChan c x).uart = s.uart := id rfl

@[simp] theorem State.setChan_spiBusy (s : State) (c : Nat) (x : VChan) : (s.setChan c x).spiBusy = s.spiBusy := id rfl

@[simp] theorem State.setChan_jtag (s : State) (c : Nat) (x : VChan) : (s.setChan c x).jtag = s.jtag := id rfl

@[simp] theorem State.setChan_goDriven (s : State) (c : Nat) (x : VChan) : (s.setChan c x).goDriven = s.goDriven := id rfl

@[simp] theorem State.setChan_goHeld (s : State) (c : Nat) (x : VChan) : (s.setChan c x).goHeld = s.goHeld := id rfl

/-! ### State.setTimer -/

@[simp] theorem State.setTimer_pending (s : State) (k : Nat) (x : Timer) : (s.setTimer k x).pending = s.pending := id rfl

@[simp] theorem State.setTimer_nonce (s : State) (k : Nat) (x : Timer) : (s.setTimer k x).nonce = s.nonce := id rfl

@[simp] theorem State.setTimer_fab (s : State) (k : Nat) (x : Timer) : (s.setTimer k x).fab = s.fab := id rfl

@[simp] theorem State.setTimer_root (s : State) (k : Nat) (x : Timer) : (s.setTimer k x).root = s.root := id rfl

@[simp] theorem State.setTimer_mode (s : State) (k : Nat) (x : Timer) : (s.setTimer k x).mode = s.mode := id rfl

@[simp] theorem State.setTimer_mem (s : State) (k : Nat) (x : Timer) : (s.setTimer k x).mem = s.mem := id rfl

@[simp] theorem State.setTimer_errs (s : State) (k : Nat) (x : Timer) : (s.setTimer k x).errs = s.errs := id rfl

@[simp] theorem State.setTimer_flash (s : State) (k : Nat) (x : Timer) : (s.setTimer k x).flash = s.flash := id rfl

@[simp] theorem State.setTimer_regs (s : State) (k : Nat) (x : Timer) : (s.setTimer k x).regs = s.regs := id rfl

@[simp] theorem State.setTimer_hi (s : State) (k : Nat) (x : Timer) : (s.setTimer k x).hi = s.hi := id rfl

@[simp] theorem State.setTimer_stages (s : State) (k : Nat) (x : Timer) : (s.setTimer k x).stages = s.stages := id rfl

@[simp] theorem State.setTimer_cores (s : State) (k : Nat) (x : Timer) : (s.setTimer k x).cores = s.cores := id rfl

@[simp] theorem State.setTimer_irqs (s : State) (k : Nat) (x : Timer) : (s.setTimer k x).irqs = s.irqs := id rfl

@[simp] theorem State.setTimer_badEoi (s : State) (k : Nat) (x : Timer) : (s.setTimer k x).badEoi = s.badEoi := id rfl

@[simp] theorem State.setTimer_mbox (s : State) (k : Nat) (x : Timer) : (s.setTimer k x).mbox = s.mbox := id rfl

@[simp] theorem State.setTimer_chans (s : State) (k : Nat) (x : Timer) : (s.setTimer k x).chans = s.chans := id rfl

@[simp] theorem State.setTimer_rings (s : State) (k : Nat) (x : Timer) : (s.setTimer k x).rings = s.rings := id rfl

@[simp] theorem State.setTimer_badRing (s : State) (k : Nat) (x : Timer) : (s.setTimer k x).badRing = s.badRing := id rfl

@[simp] theorem State.setTimer_store (s : State) (k : Nat) (x : Timer) : (s.setTimer k x).store = s.store := id rfl

@[simp] theorem State.setTimer_timers (s : State) (k : Nat) (x : Timer) : (s.setTimer k x).timers = vset s.timers k x := id rfl

@[simp] theorem State.setTimer_tally (s : State) (k : Nat) (x : Timer) : (s.setTimer k x).tally = s.tally := id rfl

@[simp] theorem State.setTimer_sectors (s : State) (k : Nat) (x : Timer) : (s.setTimer k x).sectors = s.sectors := id rfl

@[simp] theorem State.setTimer_faults (s : State) (k : Nat) (x : Timer) : (s.setTimer k x).faults = s.faults := id rfl

@[simp] theorem State.setTimer_keeper (s : State) (k : Nat) (x : Timer) : (s.setTimer k x).keeper = s.keeper := id rfl

@[simp] theorem State.setTimer_power (s : State) (k : Nat) (x : Timer) : (s.setTimer k x).power = s.power := id rfl

@[simp] theorem State.setTimer_lpx (s : State) (k : Nat) (x : Timer) : (s.setTimer k x).lpx = s.lpx := id rfl

@[simp] theorem State.setTimer_load (s : State) (k : Nat) (x : Timer) : (s.setTimer k x).load = s.load := id rfl

@[simp] theorem State.setTimer_fuses (s : State) (k : Nat) (x : Timer) : (s.setTimer k x).fuses = s.fuses := id rfl

@[simp] theorem State.setTimer_straps (s : State) (k : Nat) (x : Timer) : (s.setTimer k x).straps = s.straps := id rfl

@[simp] theorem State.setTimer_qiPins (s : State) (k : Nat) (x : Timer) : (s.setTimer k x).qiPins = s.qiPins := id rfl

@[simp] theorem State.setTimer_qi (s : State) (k : Nat) (x : Timer) : (s.setTimer k x).qi = s.qi := id rfl

@[simp] theorem State.setTimer_qiAt (s : State) (k : Nat) (x : Timer) : (s.setTimer k x).qiAt = s.qiAt := id rfl

@[simp] theorem State.setTimer_qiPresc (s : State) (k : Nat) (x : Timer) : (s.setTimer k x).qiPresc = s.qiPresc := id rfl

@[simp] theorem State.setTimer_hpd (s : State) (k : Nat) (x : Timer) : (s.setTimer k x).hpd = s.hpd := id rfl

@[simp] theorem State.setTimer_edidBusy (s : State) (k : Nat) (x : Timer) : (s.setTimer k x).edidBusy = s.edidBusy := id rfl

@[simp] theorem State.setTimer_pe (s : State) (k : Nat) (x : Timer) : (s.setTimer k x).pe = s.pe := id rfl

@[simp] theorem State.setTimer_usb (s : State) (k : Nat) (x : Timer) : (s.setTimer k x).usb = s.usb := id rfl

@[simp] theorem State.setTimer_pipes (s : State) (k : Nat) (x : Timer) : (s.setTimer k x).pipes = s.pipes := id rfl

@[simp] theorem State.setTimer_spoke (s : State) (k : Nat) (x : Timer) : (s.setTimer k x).spoke = s.spoke := id rfl

@[simp] theorem State.setTimer_i2c (s : State) (k : Nat) (x : Timer) : (s.setTimer k x).i2c = s.i2c := id rfl

@[simp] theorem State.setTimer_uart (s : State) (k : Nat) (x : Timer) : (s.setTimer k x).uart = s.uart := id rfl

@[simp] theorem State.setTimer_spiBusy (s : State) (k : Nat) (x : Timer) : (s.setTimer k x).spiBusy = s.spiBusy := id rfl

@[simp] theorem State.setTimer_jtag (s : State) (k : Nat) (x : Timer) : (s.setTimer k x).jtag = s.jtag := id rfl

@[simp] theorem State.setTimer_goDriven (s : State) (k : Nat) (x : Timer) : (s.setTimer k x).goDriven = s.goDriven := id rfl

@[simp] theorem State.setTimer_goHeld (s : State) (k : Nat) (x : Timer) : (s.setTimer k x).goHeld = s.goHeld := id rfl

/-! ### State.setSector -/

@[simp] theorem State.setSector_pending (s : State) (n : Nat) (x : Sector) : (s.setSector n x).pending = s.pending := id rfl

@[simp] theorem State.setSector_nonce (s : State) (n : Nat) (x : Sector) : (s.setSector n x).nonce = s.nonce := id rfl

@[simp] theorem State.setSector_fab (s : State) (n : Nat) (x : Sector) : (s.setSector n x).fab = s.fab := id rfl

@[simp] theorem State.setSector_root (s : State) (n : Nat) (x : Sector) : (s.setSector n x).root = s.root := id rfl

@[simp] theorem State.setSector_mode (s : State) (n : Nat) (x : Sector) : (s.setSector n x).mode = s.mode := id rfl

@[simp] theorem State.setSector_mem (s : State) (n : Nat) (x : Sector) : (s.setSector n x).mem = s.mem := id rfl

@[simp] theorem State.setSector_errs (s : State) (n : Nat) (x : Sector) : (s.setSector n x).errs = s.errs := id rfl

@[simp] theorem State.setSector_flash (s : State) (n : Nat) (x : Sector) : (s.setSector n x).flash = s.flash := id rfl

@[simp] theorem State.setSector_regs (s : State) (n : Nat) (x : Sector) : (s.setSector n x).regs = s.regs := id rfl

@[simp] theorem State.setSector_hi (s : State) (n : Nat) (x : Sector) : (s.setSector n x).hi = s.hi := id rfl

@[simp] theorem State.setSector_stages (s : State) (n : Nat) (x : Sector) : (s.setSector n x).stages = s.stages := id rfl

@[simp] theorem State.setSector_cores (s : State) (n : Nat) (x : Sector) : (s.setSector n x).cores = s.cores := id rfl

@[simp] theorem State.setSector_irqs (s : State) (n : Nat) (x : Sector) : (s.setSector n x).irqs = s.irqs := id rfl

@[simp] theorem State.setSector_badEoi (s : State) (n : Nat) (x : Sector) : (s.setSector n x).badEoi = s.badEoi := id rfl

@[simp] theorem State.setSector_mbox (s : State) (n : Nat) (x : Sector) : (s.setSector n x).mbox = s.mbox := id rfl

@[simp] theorem State.setSector_chans (s : State) (n : Nat) (x : Sector) : (s.setSector n x).chans = s.chans := id rfl

@[simp] theorem State.setSector_rings (s : State) (n : Nat) (x : Sector) : (s.setSector n x).rings = s.rings := id rfl

@[simp] theorem State.setSector_badRing (s : State) (n : Nat) (x : Sector) : (s.setSector n x).badRing = s.badRing := id rfl

@[simp] theorem State.setSector_store (s : State) (n : Nat) (x : Sector) : (s.setSector n x).store = s.store := id rfl

@[simp] theorem State.setSector_timers (s : State) (n : Nat) (x : Sector) : (s.setSector n x).timers = s.timers := id rfl

@[simp] theorem State.setSector_tally (s : State) (n : Nat) (x : Sector) : (s.setSector n x).tally = s.tally := id rfl

@[simp] theorem State.setSector_sectors (s : State) (n : Nat) (x : Sector) : (s.setSector n x).sectors = vset s.sectors n x := id rfl

@[simp] theorem State.setSector_faults (s : State) (n : Nat) (x : Sector) : (s.setSector n x).faults = s.faults := id rfl

@[simp] theorem State.setSector_keeper (s : State) (n : Nat) (x : Sector) : (s.setSector n x).keeper = s.keeper := id rfl

@[simp] theorem State.setSector_power (s : State) (n : Nat) (x : Sector) : (s.setSector n x).power = s.power := id rfl

@[simp] theorem State.setSector_lpx (s : State) (n : Nat) (x : Sector) : (s.setSector n x).lpx = s.lpx := id rfl

@[simp] theorem State.setSector_load (s : State) (n : Nat) (x : Sector) : (s.setSector n x).load = s.load := id rfl

@[simp] theorem State.setSector_fuses (s : State) (n : Nat) (x : Sector) : (s.setSector n x).fuses = s.fuses := id rfl

@[simp] theorem State.setSector_straps (s : State) (n : Nat) (x : Sector) : (s.setSector n x).straps = s.straps := id rfl

@[simp] theorem State.setSector_qiPins (s : State) (n : Nat) (x : Sector) : (s.setSector n x).qiPins = s.qiPins := id rfl

@[simp] theorem State.setSector_qi (s : State) (n : Nat) (x : Sector) : (s.setSector n x).qi = s.qi := id rfl

@[simp] theorem State.setSector_qiAt (s : State) (n : Nat) (x : Sector) : (s.setSector n x).qiAt = s.qiAt := id rfl

@[simp] theorem State.setSector_qiPresc (s : State) (n : Nat) (x : Sector) : (s.setSector n x).qiPresc = s.qiPresc := id rfl

@[simp] theorem State.setSector_hpd (s : State) (n : Nat) (x : Sector) : (s.setSector n x).hpd = s.hpd := id rfl

@[simp] theorem State.setSector_edidBusy (s : State) (n : Nat) (x : Sector) : (s.setSector n x).edidBusy = s.edidBusy := id rfl

@[simp] theorem State.setSector_pe (s : State) (n : Nat) (x : Sector) : (s.setSector n x).pe = s.pe := id rfl

@[simp] theorem State.setSector_usb (s : State) (n : Nat) (x : Sector) : (s.setSector n x).usb = s.usb := id rfl

@[simp] theorem State.setSector_pipes (s : State) (n : Nat) (x : Sector) : (s.setSector n x).pipes = s.pipes := id rfl

@[simp] theorem State.setSector_spoke (s : State) (n : Nat) (x : Sector) : (s.setSector n x).spoke = s.spoke := id rfl

@[simp] theorem State.setSector_i2c (s : State) (n : Nat) (x : Sector) : (s.setSector n x).i2c = s.i2c := id rfl

@[simp] theorem State.setSector_uart (s : State) (n : Nat) (x : Sector) : (s.setSector n x).uart = s.uart := id rfl

@[simp] theorem State.setSector_spiBusy (s : State) (n : Nat) (x : Sector) : (s.setSector n x).spiBusy = s.spiBusy := id rfl

@[simp] theorem State.setSector_jtag (s : State) (n : Nat) (x : Sector) : (s.setSector n x).jtag = s.jtag := id rfl

@[simp] theorem State.setSector_goDriven (s : State) (n : Nat) (x : Sector) : (s.setSector n x).goDriven = s.goDriven := id rfl

@[simp] theorem State.setSector_goHeld (s : State) (n : Nat) (x : Sector) : (s.setSector n x).goHeld = s.goHeld := id rfl

/-! ### State.setDreg -/

@[simp] theorem State.setDreg_pending (s : State) (a : Nat) (x : Word) : (s.setDreg a x).pending = s.pending := id rfl

@[simp] theorem State.setDreg_nonce (s : State) (a : Nat) (x : Word) : (s.setDreg a x).nonce = s.nonce := id rfl

@[simp] theorem State.setDreg_fab (s : State) (a : Nat) (x : Word) : (s.setDreg a x).fab = s.fab := id rfl

@[simp] theorem State.setDreg_root (s : State) (a : Nat) (x : Word) : (s.setDreg a x).root = s.root := id rfl

@[simp] theorem State.setDreg_mode (s : State) (a : Nat) (x : Word) : (s.setDreg a x).mode = s.mode := id rfl

@[simp] theorem State.setDreg_mem (s : State) (a : Nat) (x : Word) : (s.setDreg a x).mem = s.mem := id rfl

@[simp] theorem State.setDreg_errs (s : State) (a : Nat) (x : Word) : (s.setDreg a x).errs = s.errs := id rfl

@[simp] theorem State.setDreg_flash (s : State) (a : Nat) (x : Word) : (s.setDreg a x).flash = s.flash := id rfl

@[simp] theorem State.setDreg_regs (s : State) (a : Nat) (x : Word) : (s.setDreg a x).regs = sset deviceDefault s.regs a x := id rfl

@[simp] theorem State.setDreg_hi (s : State) (a : Nat) (x : Word) : (s.setDreg a x).hi = s.hi := id rfl

@[simp] theorem State.setDreg_stages (s : State) (a : Nat) (x : Word) : (s.setDreg a x).stages = s.stages := id rfl

@[simp] theorem State.setDreg_cores (s : State) (a : Nat) (x : Word) : (s.setDreg a x).cores = s.cores := id rfl

@[simp] theorem State.setDreg_irqs (s : State) (a : Nat) (x : Word) : (s.setDreg a x).irqs = s.irqs := id rfl

@[simp] theorem State.setDreg_badEoi (s : State) (a : Nat) (x : Word) : (s.setDreg a x).badEoi = s.badEoi := id rfl

@[simp] theorem State.setDreg_mbox (s : State) (a : Nat) (x : Word) : (s.setDreg a x).mbox = s.mbox := id rfl

@[simp] theorem State.setDreg_chans (s : State) (a : Nat) (x : Word) : (s.setDreg a x).chans = s.chans := id rfl

@[simp] theorem State.setDreg_rings (s : State) (a : Nat) (x : Word) : (s.setDreg a x).rings = s.rings := id rfl

@[simp] theorem State.setDreg_badRing (s : State) (a : Nat) (x : Word) : (s.setDreg a x).badRing = s.badRing := id rfl

@[simp] theorem State.setDreg_store (s : State) (a : Nat) (x : Word) : (s.setDreg a x).store = s.store := id rfl

@[simp] theorem State.setDreg_timers (s : State) (a : Nat) (x : Word) : (s.setDreg a x).timers = s.timers := id rfl

@[simp] theorem State.setDreg_tally (s : State) (a : Nat) (x : Word) : (s.setDreg a x).tally = s.tally := id rfl

@[simp] theorem State.setDreg_sectors (s : State) (a : Nat) (x : Word) : (s.setDreg a x).sectors = s.sectors := id rfl

@[simp] theorem State.setDreg_faults (s : State) (a : Nat) (x : Word) : (s.setDreg a x).faults = s.faults := id rfl

@[simp] theorem State.setDreg_keeper (s : State) (a : Nat) (x : Word) : (s.setDreg a x).keeper = s.keeper := id rfl

@[simp] theorem State.setDreg_power (s : State) (a : Nat) (x : Word) : (s.setDreg a x).power = s.power := id rfl

@[simp] theorem State.setDreg_lpx (s : State) (a : Nat) (x : Word) : (s.setDreg a x).lpx = s.lpx := id rfl

@[simp] theorem State.setDreg_load (s : State) (a : Nat) (x : Word) : (s.setDreg a x).load = s.load := id rfl

@[simp] theorem State.setDreg_fuses (s : State) (a : Nat) (x : Word) : (s.setDreg a x).fuses = s.fuses := id rfl

@[simp] theorem State.setDreg_straps (s : State) (a : Nat) (x : Word) : (s.setDreg a x).straps = s.straps := id rfl

@[simp] theorem State.setDreg_qiPins (s : State) (a : Nat) (x : Word) : (s.setDreg a x).qiPins = s.qiPins := id rfl

@[simp] theorem State.setDreg_qi (s : State) (a : Nat) (x : Word) : (s.setDreg a x).qi = s.qi := id rfl

@[simp] theorem State.setDreg_qiAt (s : State) (a : Nat) (x : Word) : (s.setDreg a x).qiAt = s.qiAt := id rfl

@[simp] theorem State.setDreg_qiPresc (s : State) (a : Nat) (x : Word) : (s.setDreg a x).qiPresc = s.qiPresc := id rfl

@[simp] theorem State.setDreg_hpd (s : State) (a : Nat) (x : Word) : (s.setDreg a x).hpd = s.hpd := id rfl

@[simp] theorem State.setDreg_edidBusy (s : State) (a : Nat) (x : Word) : (s.setDreg a x).edidBusy = s.edidBusy := id rfl

@[simp] theorem State.setDreg_pe (s : State) (a : Nat) (x : Word) : (s.setDreg a x).pe = s.pe := id rfl

@[simp] theorem State.setDreg_usb (s : State) (a : Nat) (x : Word) : (s.setDreg a x).usb = s.usb := id rfl

@[simp] theorem State.setDreg_pipes (s : State) (a : Nat) (x : Word) : (s.setDreg a x).pipes = s.pipes := id rfl

@[simp] theorem State.setDreg_spoke (s : State) (a : Nat) (x : Word) : (s.setDreg a x).spoke = s.spoke := id rfl

@[simp] theorem State.setDreg_i2c (s : State) (a : Nat) (x : Word) : (s.setDreg a x).i2c = s.i2c := id rfl

@[simp] theorem State.setDreg_uart (s : State) (a : Nat) (x : Word) : (s.setDreg a x).uart = s.uart := id rfl

@[simp] theorem State.setDreg_spiBusy (s : State) (a : Nat) (x : Word) : (s.setDreg a x).spiBusy = s.spiBusy := id rfl

@[simp] theorem State.setDreg_jtag (s : State) (a : Nat) (x : Word) : (s.setDreg a x).jtag = s.jtag := id rfl

@[simp] theorem State.setDreg_goDriven (s : State) (a : Nat) (x : Word) : (s.setDreg a x).goDriven = s.goDriven := id rfl

@[simp] theorem State.setDreg_goHeld (s : State) (a : Nat) (x : Word) : (s.setDreg a x).goHeld = s.goHeld := id rfl

/-! ### State.setByte -/

@[simp] theorem State.setByte_pending (s : State) (a : Nat) (x : Byte) : (s.setByte a x).pending = s.pending := id rfl

@[simp] theorem State.setByte_nonce (s : State) (a : Nat) (x : Byte) : (s.setByte a x).nonce = s.nonce := id rfl

@[simp] theorem State.setByte_fab (s : State) (a : Nat) (x : Byte) : (s.setByte a x).fab = s.fab := id rfl

@[simp] theorem State.setByte_root (s : State) (a : Nat) (x : Byte) : (s.setByte a x).root = s.root := id rfl

@[simp] theorem State.setByte_mode (s : State) (a : Nat) (x : Byte) : (s.setByte a x).mode = s.mode := id rfl

theorem State.setByte_mem (s : State) (a : Nat) (x : Byte) : (s.setByte a x).mem = sset memDefault s.mem a x := id rfl

@[simp] theorem State.setByte_errs (s : State) (a : Nat) (x : Byte) : (s.setByte a x).errs = s.errs := id rfl

@[simp] theorem State.setByte_flash (s : State) (a : Nat) (x : Byte) : (s.setByte a x).flash = s.flash := id rfl

@[simp] theorem State.setByte_regs (s : State) (a : Nat) (x : Byte) : (s.setByte a x).regs = s.regs := id rfl

@[simp] theorem State.setByte_hi (s : State) (a : Nat) (x : Byte) : (s.setByte a x).hi = s.hi := id rfl

@[simp] theorem State.setByte_stages (s : State) (a : Nat) (x : Byte) : (s.setByte a x).stages = s.stages := id rfl

@[simp] theorem State.setByte_cores (s : State) (a : Nat) (x : Byte) : (s.setByte a x).cores = s.cores := id rfl

@[simp] theorem State.setByte_irqs (s : State) (a : Nat) (x : Byte) : (s.setByte a x).irqs = s.irqs := id rfl

@[simp] theorem State.setByte_badEoi (s : State) (a : Nat) (x : Byte) : (s.setByte a x).badEoi = s.badEoi := id rfl

@[simp] theorem State.setByte_mbox (s : State) (a : Nat) (x : Byte) : (s.setByte a x).mbox = s.mbox := id rfl

@[simp] theorem State.setByte_chans (s : State) (a : Nat) (x : Byte) : (s.setByte a x).chans = s.chans := id rfl

@[simp] theorem State.setByte_rings (s : State) (a : Nat) (x : Byte) : (s.setByte a x).rings = s.rings := id rfl

@[simp] theorem State.setByte_badRing (s : State) (a : Nat) (x : Byte) : (s.setByte a x).badRing = s.badRing := id rfl

@[simp] theorem State.setByte_store (s : State) (a : Nat) (x : Byte) : (s.setByte a x).store = s.store := id rfl

@[simp] theorem State.setByte_timers (s : State) (a : Nat) (x : Byte) : (s.setByte a x).timers = s.timers := id rfl

@[simp] theorem State.setByte_tally (s : State) (a : Nat) (x : Byte) : (s.setByte a x).tally = s.tally := id rfl

@[simp] theorem State.setByte_sectors (s : State) (a : Nat) (x : Byte) : (s.setByte a x).sectors = s.sectors := id rfl

@[simp] theorem State.setByte_faults (s : State) (a : Nat) (x : Byte) : (s.setByte a x).faults = s.faults := id rfl

@[simp] theorem State.setByte_keeper (s : State) (a : Nat) (x : Byte) : (s.setByte a x).keeper = s.keeper := id rfl

@[simp] theorem State.setByte_power (s : State) (a : Nat) (x : Byte) : (s.setByte a x).power = s.power := id rfl

@[simp] theorem State.setByte_lpx (s : State) (a : Nat) (x : Byte) : (s.setByte a x).lpx = s.lpx := id rfl

@[simp] theorem State.setByte_load (s : State) (a : Nat) (x : Byte) : (s.setByte a x).load = s.load := id rfl

@[simp] theorem State.setByte_fuses (s : State) (a : Nat) (x : Byte) : (s.setByte a x).fuses = s.fuses := id rfl

@[simp] theorem State.setByte_straps (s : State) (a : Nat) (x : Byte) : (s.setByte a x).straps = s.straps := id rfl

@[simp] theorem State.setByte_qiPins (s : State) (a : Nat) (x : Byte) : (s.setByte a x).qiPins = s.qiPins := id rfl

@[simp] theorem State.setByte_qi (s : State) (a : Nat) (x : Byte) : (s.setByte a x).qi = s.qi := id rfl

@[simp] theorem State.setByte_qiAt (s : State) (a : Nat) (x : Byte) : (s.setByte a x).qiAt = s.qiAt := id rfl

@[simp] theorem State.setByte_qiPresc (s : State) (a : Nat) (x : Byte) : (s.setByte a x).qiPresc = s.qiPresc := id rfl

@[simp] theorem State.setByte_hpd (s : State) (a : Nat) (x : Byte) : (s.setByte a x).hpd = s.hpd := id rfl

@[simp] theorem State.setByte_edidBusy (s : State) (a : Nat) (x : Byte) : (s.setByte a x).edidBusy = s.edidBusy := id rfl

@[simp] theorem State.setByte_pe (s : State) (a : Nat) (x : Byte) : (s.setByte a x).pe = s.pe := id rfl

@[simp] theorem State.setByte_usb (s : State) (a : Nat) (x : Byte) : (s.setByte a x).usb = s.usb := id rfl

@[simp] theorem State.setByte_pipes (s : State) (a : Nat) (x : Byte) : (s.setByte a x).pipes = s.pipes := id rfl

@[simp] theorem State.setByte_spoke (s : State) (a : Nat) (x : Byte) : (s.setByte a x).spoke = s.spoke := id rfl

@[simp] theorem State.setByte_i2c (s : State) (a : Nat) (x : Byte) : (s.setByte a x).i2c = s.i2c := id rfl

@[simp] theorem State.setByte_uart (s : State) (a : Nat) (x : Byte) : (s.setByte a x).uart = s.uart := id rfl

@[simp] theorem State.setByte_spiBusy (s : State) (a : Nat) (x : Byte) : (s.setByte a x).spiBusy = s.spiBusy := id rfl

@[simp] theorem State.setByte_jtag (s : State) (a : Nat) (x : Byte) : (s.setByte a x).jtag = s.jtag := id rfl

@[simp] theorem State.setByte_goDriven (s : State) (a : Nat) (x : Byte) : (s.setByte a x).goDriven = s.goDriven := id rfl

@[simp] theorem State.setByte_goHeld (s : State) (a : Nat) (x : Byte) : (s.setByte a x).goHeld = s.goHeld := id rfl

/-! ### State.zeroMem -/

@[simp] theorem State.zeroMem_pending (s : State) (a x : Nat) : (s.zeroMem a x).pending = s.pending := id rfl

@[simp] theorem State.zeroMem_nonce (s : State) (a x : Nat) : (s.zeroMem a x).nonce = s.nonce := id rfl

@[simp] theorem State.zeroMem_fab (s : State) (a x : Nat) : (s.zeroMem a x).fab = s.fab := id rfl

@[simp] theorem State.zeroMem_root (s : State) (a x : Nat) : (s.zeroMem a x).root = s.root := id rfl

@[simp] theorem State.zeroMem_mode (s : State) (a x : Nat) : (s.zeroMem a x).mode = s.mode := id rfl

theorem State.zeroMem_mem (s : State) (a x : Nat) : (s.zeroMem a x).mem = s.mem.filter fun e => e.1 < a || a + x ≤ e.1 := id rfl

@[simp] theorem State.zeroMem_errs (s : State) (a x : Nat) : (s.zeroMem a x).errs = s.errs.filter fun e => e.1 < a || a + x ≤ e.1 := id rfl

@[simp] theorem State.zeroMem_flash (s : State) (a x : Nat) : (s.zeroMem a x).flash = s.flash := id rfl

@[simp] theorem State.zeroMem_regs (s : State) (a x : Nat) : (s.zeroMem a x).regs = s.regs := id rfl

@[simp] theorem State.zeroMem_hi (s : State) (a x : Nat) : (s.zeroMem a x).hi = s.hi := id rfl

@[simp] theorem State.zeroMem_stages (s : State) (a x : Nat) : (s.zeroMem a x).stages = s.stages := id rfl

@[simp] theorem State.zeroMem_cores (s : State) (a x : Nat) : (s.zeroMem a x).cores = s.cores := id rfl

@[simp] theorem State.zeroMem_irqs (s : State) (a x : Nat) : (s.zeroMem a x).irqs = s.irqs := id rfl

@[simp] theorem State.zeroMem_badEoi (s : State) (a x : Nat) : (s.zeroMem a x).badEoi = s.badEoi := id rfl

@[simp] theorem State.zeroMem_mbox (s : State) (a x : Nat) : (s.zeroMem a x).mbox = s.mbox := id rfl

@[simp] theorem State.zeroMem_chans (s : State) (a x : Nat) : (s.zeroMem a x).chans = s.chans := id rfl

@[simp] theorem State.zeroMem_rings (s : State) (a x : Nat) : (s.zeroMem a x).rings = s.rings := id rfl

@[simp] theorem State.zeroMem_badRing (s : State) (a x : Nat) : (s.zeroMem a x).badRing = s.badRing := id rfl

@[simp] theorem State.zeroMem_store (s : State) (a x : Nat) : (s.zeroMem a x).store = s.store := id rfl

@[simp] theorem State.zeroMem_timers (s : State) (a x : Nat) : (s.zeroMem a x).timers = s.timers := id rfl

@[simp] theorem State.zeroMem_tally (s : State) (a x : Nat) : (s.zeroMem a x).tally = s.tally := id rfl

@[simp] theorem State.zeroMem_sectors (s : State) (a x : Nat) : (s.zeroMem a x).sectors = s.sectors := id rfl

@[simp] theorem State.zeroMem_faults (s : State) (a x : Nat) : (s.zeroMem a x).faults = s.faults := id rfl

@[simp] theorem State.zeroMem_keeper (s : State) (a x : Nat) : (s.zeroMem a x).keeper = s.keeper := id rfl

@[simp] theorem State.zeroMem_power (s : State) (a x : Nat) : (s.zeroMem a x).power = s.power := id rfl

@[simp] theorem State.zeroMem_lpx (s : State) (a x : Nat) : (s.zeroMem a x).lpx = s.lpx := id rfl

@[simp] theorem State.zeroMem_load (s : State) (a x : Nat) : (s.zeroMem a x).load = s.load := id rfl

@[simp] theorem State.zeroMem_fuses (s : State) (a x : Nat) : (s.zeroMem a x).fuses = s.fuses := id rfl

@[simp] theorem State.zeroMem_straps (s : State) (a x : Nat) : (s.zeroMem a x).straps = s.straps := id rfl

@[simp] theorem State.zeroMem_qiPins (s : State) (a x : Nat) : (s.zeroMem a x).qiPins = s.qiPins := id rfl

@[simp] theorem State.zeroMem_qi (s : State) (a x : Nat) : (s.zeroMem a x).qi = s.qi := id rfl

@[simp] theorem State.zeroMem_qiAt (s : State) (a x : Nat) : (s.zeroMem a x).qiAt = s.qiAt := id rfl

@[simp] theorem State.zeroMem_qiPresc (s : State) (a x : Nat) : (s.zeroMem a x).qiPresc = s.qiPresc := id rfl

@[simp] theorem State.zeroMem_hpd (s : State) (a x : Nat) : (s.zeroMem a x).hpd = s.hpd := id rfl

@[simp] theorem State.zeroMem_edidBusy (s : State) (a x : Nat) : (s.zeroMem a x).edidBusy = s.edidBusy := id rfl

@[simp] theorem State.zeroMem_pe (s : State) (a x : Nat) : (s.zeroMem a x).pe = s.pe := id rfl

@[simp] theorem State.zeroMem_usb (s : State) (a x : Nat) : (s.zeroMem a x).usb = s.usb := id rfl

@[simp] theorem State.zeroMem_pipes (s : State) (a x : Nat) : (s.zeroMem a x).pipes = s.pipes := id rfl

@[simp] theorem State.zeroMem_spoke (s : State) (a x : Nat) : (s.zeroMem a x).spoke = s.spoke := id rfl

@[simp] theorem State.zeroMem_i2c (s : State) (a x : Nat) : (s.zeroMem a x).i2c = s.i2c := id rfl

@[simp] theorem State.zeroMem_uart (s : State) (a x : Nat) : (s.zeroMem a x).uart = s.uart := id rfl

@[simp] theorem State.zeroMem_spiBusy (s : State) (a x : Nat) : (s.zeroMem a x).spiBusy = s.spiBusy := id rfl

@[simp] theorem State.zeroMem_jtag (s : State) (a x : Nat) : (s.zeroMem a x).jtag = s.jtag := id rfl

@[simp] theorem State.zeroMem_goDriven (s : State) (a x : Nat) : (s.zeroMem a x).goDriven = s.goDriven := id rfl

@[simp] theorem State.zeroMem_goHeld (s : State) (a x : Nat) : (s.zeroMem a x).goHeld = s.goHeld := id rfl

/-! ### State.modStage -/

@[simp] theorem State.modStage_pending (s : State) (i : Nat) (x : Stage → Stage) : (s.modStage i x).pending = s.pending := id rfl

@[simp] theorem State.modStage_nonce (s : State) (i : Nat) (x : Stage → Stage) : (s.modStage i x).nonce = s.nonce := id rfl

@[simp] theorem State.modStage_fab (s : State) (i : Nat) (x : Stage → Stage) : (s.modStage i x).fab = s.fab := id rfl

@[simp] theorem State.modStage_root (s : State) (i : Nat) (x : Stage → Stage) : (s.modStage i x).root = s.root := id rfl

@[simp] theorem State.modStage_mode (s : State) (i : Nat) (x : Stage → Stage) : (s.modStage i x).mode = s.mode := id rfl

@[simp] theorem State.modStage_mem (s : State) (i : Nat) (x : Stage → Stage) : (s.modStage i x).mem = s.mem := id rfl

@[simp] theorem State.modStage_errs (s : State) (i : Nat) (x : Stage → Stage) : (s.modStage i x).errs = s.errs := id rfl

@[simp] theorem State.modStage_flash (s : State) (i : Nat) (x : Stage → Stage) : (s.modStage i x).flash = s.flash := id rfl

@[simp] theorem State.modStage_regs (s : State) (i : Nat) (x : Stage → Stage) : (s.modStage i x).regs = s.regs := id rfl

@[simp] theorem State.modStage_hi (s : State) (i : Nat) (x : Stage → Stage) : (s.modStage i x).hi = s.hi := id rfl

@[simp] theorem State.modStage_stages (s : State) (i : Nat) (x : Stage → Stage) : (s.modStage i x).stages = vset s.stages i (x (s.stage i)) := id rfl

@[simp] theorem State.modStage_cores (s : State) (i : Nat) (x : Stage → Stage) : (s.modStage i x).cores = s.cores := id rfl

@[simp] theorem State.modStage_irqs (s : State) (i : Nat) (x : Stage → Stage) : (s.modStage i x).irqs = s.irqs := id rfl

@[simp] theorem State.modStage_badEoi (s : State) (i : Nat) (x : Stage → Stage) : (s.modStage i x).badEoi = s.badEoi := id rfl

@[simp] theorem State.modStage_mbox (s : State) (i : Nat) (x : Stage → Stage) : (s.modStage i x).mbox = s.mbox := id rfl

@[simp] theorem State.modStage_chans (s : State) (i : Nat) (x : Stage → Stage) : (s.modStage i x).chans = s.chans := id rfl

@[simp] theorem State.modStage_rings (s : State) (i : Nat) (x : Stage → Stage) : (s.modStage i x).rings = s.rings := id rfl

@[simp] theorem State.modStage_badRing (s : State) (i : Nat) (x : Stage → Stage) : (s.modStage i x).badRing = s.badRing := id rfl

@[simp] theorem State.modStage_store (s : State) (i : Nat) (x : Stage → Stage) : (s.modStage i x).store = s.store := id rfl

@[simp] theorem State.modStage_timers (s : State) (i : Nat) (x : Stage → Stage) : (s.modStage i x).timers = s.timers := id rfl

@[simp] theorem State.modStage_tally (s : State) (i : Nat) (x : Stage → Stage) : (s.modStage i x).tally = s.tally := id rfl

@[simp] theorem State.modStage_sectors (s : State) (i : Nat) (x : Stage → Stage) : (s.modStage i x).sectors = s.sectors := id rfl

@[simp] theorem State.modStage_faults (s : State) (i : Nat) (x : Stage → Stage) : (s.modStage i x).faults = s.faults := id rfl

@[simp] theorem State.modStage_keeper (s : State) (i : Nat) (x : Stage → Stage) : (s.modStage i x).keeper = s.keeper := id rfl

@[simp] theorem State.modStage_power (s : State) (i : Nat) (x : Stage → Stage) : (s.modStage i x).power = s.power := id rfl

@[simp] theorem State.modStage_lpx (s : State) (i : Nat) (x : Stage → Stage) : (s.modStage i x).lpx = s.lpx := id rfl

@[simp] theorem State.modStage_load (s : State) (i : Nat) (x : Stage → Stage) : (s.modStage i x).load = s.load := id rfl

@[simp] theorem State.modStage_fuses (s : State) (i : Nat) (x : Stage → Stage) : (s.modStage i x).fuses = s.fuses := id rfl

@[simp] theorem State.modStage_straps (s : State) (i : Nat) (x : Stage → Stage) : (s.modStage i x).straps = s.straps := id rfl

@[simp] theorem State.modStage_qiPins (s : State) (i : Nat) (x : Stage → Stage) : (s.modStage i x).qiPins = s.qiPins := id rfl

@[simp] theorem State.modStage_qi (s : State) (i : Nat) (x : Stage → Stage) : (s.modStage i x).qi = s.qi := id rfl

@[simp] theorem State.modStage_qiAt (s : State) (i : Nat) (x : Stage → Stage) : (s.modStage i x).qiAt = s.qiAt := id rfl

@[simp] theorem State.modStage_qiPresc (s : State) (i : Nat) (x : Stage → Stage) : (s.modStage i x).qiPresc = s.qiPresc := id rfl

@[simp] theorem State.modStage_hpd (s : State) (i : Nat) (x : Stage → Stage) : (s.modStage i x).hpd = s.hpd := id rfl

@[simp] theorem State.modStage_edidBusy (s : State) (i : Nat) (x : Stage → Stage) : (s.modStage i x).edidBusy = s.edidBusy := id rfl

@[simp] theorem State.modStage_pe (s : State) (i : Nat) (x : Stage → Stage) : (s.modStage i x).pe = s.pe := id rfl

@[simp] theorem State.modStage_usb (s : State) (i : Nat) (x : Stage → Stage) : (s.modStage i x).usb = s.usb := id rfl

@[simp] theorem State.modStage_pipes (s : State) (i : Nat) (x : Stage → Stage) : (s.modStage i x).pipes = s.pipes := id rfl

@[simp] theorem State.modStage_spoke (s : State) (i : Nat) (x : Stage → Stage) : (s.modStage i x).spoke = s.spoke := id rfl

@[simp] theorem State.modStage_i2c (s : State) (i : Nat) (x : Stage → Stage) : (s.modStage i x).i2c = s.i2c := id rfl

@[simp] theorem State.modStage_uart (s : State) (i : Nat) (x : Stage → Stage) : (s.modStage i x).uart = s.uart := id rfl

@[simp] theorem State.modStage_spiBusy (s : State) (i : Nat) (x : Stage → Stage) : (s.modStage i x).spiBusy = s.spiBusy := id rfl

@[simp] theorem State.modStage_jtag (s : State) (i : Nat) (x : Stage → Stage) : (s.modStage i x).jtag = s.jtag := id rfl

@[simp] theorem State.modStage_goDriven (s : State) (i : Nat) (x : Stage → Stage) : (s.modStage i x).goDriven = s.goDriven := id rfl

@[simp] theorem State.modStage_goHeld (s : State) (i : Nat) (x : Stage → Stage) : (s.modStage i x).goHeld = s.goHeld := id rfl

/-! ### State.modCore -/

@[simp] theorem State.modCore_pending (s : State) (k : Nat) (x : Core → Core) : (s.modCore k x).pending = s.pending := id rfl

@[simp] theorem State.modCore_nonce (s : State) (k : Nat) (x : Core → Core) : (s.modCore k x).nonce = s.nonce := id rfl

@[simp] theorem State.modCore_fab (s : State) (k : Nat) (x : Core → Core) : (s.modCore k x).fab = s.fab := id rfl

@[simp] theorem State.modCore_root (s : State) (k : Nat) (x : Core → Core) : (s.modCore k x).root = s.root := id rfl

@[simp] theorem State.modCore_mode (s : State) (k : Nat) (x : Core → Core) : (s.modCore k x).mode = s.mode := id rfl

@[simp] theorem State.modCore_mem (s : State) (k : Nat) (x : Core → Core) : (s.modCore k x).mem = s.mem := id rfl

@[simp] theorem State.modCore_errs (s : State) (k : Nat) (x : Core → Core) : (s.modCore k x).errs = s.errs := id rfl

@[simp] theorem State.modCore_flash (s : State) (k : Nat) (x : Core → Core) : (s.modCore k x).flash = s.flash := id rfl

@[simp] theorem State.modCore_regs (s : State) (k : Nat) (x : Core → Core) : (s.modCore k x).regs = s.regs := id rfl

@[simp] theorem State.modCore_hi (s : State) (k : Nat) (x : Core → Core) : (s.modCore k x).hi = s.hi := id rfl

@[simp] theorem State.modCore_stages (s : State) (k : Nat) (x : Core → Core) : (s.modCore k x).stages = s.stages := id rfl

@[simp] theorem State.modCore_cores (s : State) (k : Nat) (x : Core → Core) : (s.modCore k x).cores = vset s.cores k (x (s.core k)) := id rfl

@[simp] theorem State.modCore_irqs (s : State) (k : Nat) (x : Core → Core) : (s.modCore k x).irqs = s.irqs := id rfl

@[simp] theorem State.modCore_badEoi (s : State) (k : Nat) (x : Core → Core) : (s.modCore k x).badEoi = s.badEoi := id rfl

@[simp] theorem State.modCore_mbox (s : State) (k : Nat) (x : Core → Core) : (s.modCore k x).mbox = s.mbox := id rfl

@[simp] theorem State.modCore_chans (s : State) (k : Nat) (x : Core → Core) : (s.modCore k x).chans = s.chans := id rfl

@[simp] theorem State.modCore_rings (s : State) (k : Nat) (x : Core → Core) : (s.modCore k x).rings = s.rings := id rfl

@[simp] theorem State.modCore_badRing (s : State) (k : Nat) (x : Core → Core) : (s.modCore k x).badRing = s.badRing := id rfl

@[simp] theorem State.modCore_store (s : State) (k : Nat) (x : Core → Core) : (s.modCore k x).store = s.store := id rfl

@[simp] theorem State.modCore_timers (s : State) (k : Nat) (x : Core → Core) : (s.modCore k x).timers = s.timers := id rfl

@[simp] theorem State.modCore_tally (s : State) (k : Nat) (x : Core → Core) : (s.modCore k x).tally = s.tally := id rfl

@[simp] theorem State.modCore_sectors (s : State) (k : Nat) (x : Core → Core) : (s.modCore k x).sectors = s.sectors := id rfl

@[simp] theorem State.modCore_faults (s : State) (k : Nat) (x : Core → Core) : (s.modCore k x).faults = s.faults := id rfl

@[simp] theorem State.modCore_keeper (s : State) (k : Nat) (x : Core → Core) : (s.modCore k x).keeper = s.keeper := id rfl

@[simp] theorem State.modCore_power (s : State) (k : Nat) (x : Core → Core) : (s.modCore k x).power = s.power := id rfl

@[simp] theorem State.modCore_lpx (s : State) (k : Nat) (x : Core → Core) : (s.modCore k x).lpx = s.lpx := id rfl

@[simp] theorem State.modCore_load (s : State) (k : Nat) (x : Core → Core) : (s.modCore k x).load = s.load := id rfl

@[simp] theorem State.modCore_fuses (s : State) (k : Nat) (x : Core → Core) : (s.modCore k x).fuses = s.fuses := id rfl

@[simp] theorem State.modCore_straps (s : State) (k : Nat) (x : Core → Core) : (s.modCore k x).straps = s.straps := id rfl

@[simp] theorem State.modCore_qiPins (s : State) (k : Nat) (x : Core → Core) : (s.modCore k x).qiPins = s.qiPins := id rfl

@[simp] theorem State.modCore_qi (s : State) (k : Nat) (x : Core → Core) : (s.modCore k x).qi = s.qi := id rfl

@[simp] theorem State.modCore_qiAt (s : State) (k : Nat) (x : Core → Core) : (s.modCore k x).qiAt = s.qiAt := id rfl

@[simp] theorem State.modCore_qiPresc (s : State) (k : Nat) (x : Core → Core) : (s.modCore k x).qiPresc = s.qiPresc := id rfl

@[simp] theorem State.modCore_hpd (s : State) (k : Nat) (x : Core → Core) : (s.modCore k x).hpd = s.hpd := id rfl

@[simp] theorem State.modCore_edidBusy (s : State) (k : Nat) (x : Core → Core) : (s.modCore k x).edidBusy = s.edidBusy := id rfl

@[simp] theorem State.modCore_pe (s : State) (k : Nat) (x : Core → Core) : (s.modCore k x).pe = s.pe := id rfl

@[simp] theorem State.modCore_usb (s : State) (k : Nat) (x : Core → Core) : (s.modCore k x).usb = s.usb := id rfl

@[simp] theorem State.modCore_pipes (s : State) (k : Nat) (x : Core → Core) : (s.modCore k x).pipes = s.pipes := id rfl

@[simp] theorem State.modCore_spoke (s : State) (k : Nat) (x : Core → Core) : (s.modCore k x).spoke = s.spoke := id rfl

@[simp] theorem State.modCore_i2c (s : State) (k : Nat) (x : Core → Core) : (s.modCore k x).i2c = s.i2c := id rfl

@[simp] theorem State.modCore_uart (s : State) (k : Nat) (x : Core → Core) : (s.modCore k x).uart = s.uart := id rfl

@[simp] theorem State.modCore_spiBusy (s : State) (k : Nat) (x : Core → Core) : (s.modCore k x).spiBusy = s.spiBusy := id rfl

@[simp] theorem State.modCore_jtag (s : State) (k : Nat) (x : Core → Core) : (s.modCore k x).jtag = s.jtag := id rfl

@[simp] theorem State.modCore_goDriven (s : State) (k : Nat) (x : Core → Core) : (s.modCore k x).goDriven = s.goDriven := id rfl

@[simp] theorem State.modCore_goHeld (s : State) (k : Nat) (x : Core → Core) : (s.modCore k x).goHeld = s.goHeld := id rfl

/-! ### State.setSreg -/

@[simp] theorem State.setSreg_pending (s : State) (i o : Nat) (x : Word) : (s.setSreg i o x).pending = s.pending := id rfl

@[simp] theorem State.setSreg_nonce (s : State) (i o : Nat) (x : Word) : (s.setSreg i o x).nonce = s.nonce := id rfl

@[simp] theorem State.setSreg_fab (s : State) (i o : Nat) (x : Word) : (s.setSreg i o x).fab = s.fab := id rfl

@[simp] theorem State.setSreg_root (s : State) (i o : Nat) (x : Word) : (s.setSreg i o x).root = s.root := id rfl

@[simp] theorem State.setSreg_mode (s : State) (i o : Nat) (x : Word) : (s.setSreg i o x).mode = s.mode := id rfl

@[simp] theorem State.setSreg_mem (s : State) (i o : Nat) (x : Word) : (s.setSreg i o x).mem = s.mem := id rfl

@[simp] theorem State.setSreg_errs (s : State) (i o : Nat) (x : Word) : (s.setSreg i o x).errs = s.errs := id rfl

@[simp] theorem State.setSreg_flash (s : State) (i o : Nat) (x : Word) : (s.setSreg i o x).flash = s.flash := id rfl

@[simp] theorem State.setSreg_regs (s : State) (i o : Nat) (x : Word) : (s.setSreg i o x).regs = s.regs := id rfl

@[simp] theorem State.setSreg_hi (s : State) (i o : Nat) (x : Word) : (s.setSreg i o x).hi = s.hi := id rfl

@[simp] theorem State.setSreg_stages (s : State) (i o : Nat) (x : Word) : (s.setSreg i o x).stages = vset s.stages i ((s.stage i).setReg o x) := id rfl

@[simp] theorem State.setSreg_cores (s : State) (i o : Nat) (x : Word) : (s.setSreg i o x).cores = s.cores := id rfl

@[simp] theorem State.setSreg_irqs (s : State) (i o : Nat) (x : Word) : (s.setSreg i o x).irqs = s.irqs := id rfl

@[simp] theorem State.setSreg_badEoi (s : State) (i o : Nat) (x : Word) : (s.setSreg i o x).badEoi = s.badEoi := id rfl

@[simp] theorem State.setSreg_mbox (s : State) (i o : Nat) (x : Word) : (s.setSreg i o x).mbox = s.mbox := id rfl

@[simp] theorem State.setSreg_chans (s : State) (i o : Nat) (x : Word) : (s.setSreg i o x).chans = s.chans := id rfl

@[simp] theorem State.setSreg_rings (s : State) (i o : Nat) (x : Word) : (s.setSreg i o x).rings = s.rings := id rfl

@[simp] theorem State.setSreg_badRing (s : State) (i o : Nat) (x : Word) : (s.setSreg i o x).badRing = s.badRing := id rfl

@[simp] theorem State.setSreg_store (s : State) (i o : Nat) (x : Word) : (s.setSreg i o x).store = s.store := id rfl

@[simp] theorem State.setSreg_timers (s : State) (i o : Nat) (x : Word) : (s.setSreg i o x).timers = s.timers := id rfl

@[simp] theorem State.setSreg_tally (s : State) (i o : Nat) (x : Word) : (s.setSreg i o x).tally = s.tally := id rfl

@[simp] theorem State.setSreg_sectors (s : State) (i o : Nat) (x : Word) : (s.setSreg i o x).sectors = s.sectors := id rfl

@[simp] theorem State.setSreg_faults (s : State) (i o : Nat) (x : Word) : (s.setSreg i o x).faults = s.faults := id rfl

@[simp] theorem State.setSreg_keeper (s : State) (i o : Nat) (x : Word) : (s.setSreg i o x).keeper = s.keeper := id rfl

@[simp] theorem State.setSreg_power (s : State) (i o : Nat) (x : Word) : (s.setSreg i o x).power = s.power := id rfl

@[simp] theorem State.setSreg_lpx (s : State) (i o : Nat) (x : Word) : (s.setSreg i o x).lpx = s.lpx := id rfl

@[simp] theorem State.setSreg_load (s : State) (i o : Nat) (x : Word) : (s.setSreg i o x).load = s.load := id rfl

@[simp] theorem State.setSreg_fuses (s : State) (i o : Nat) (x : Word) : (s.setSreg i o x).fuses = s.fuses := id rfl

@[simp] theorem State.setSreg_straps (s : State) (i o : Nat) (x : Word) : (s.setSreg i o x).straps = s.straps := id rfl

@[simp] theorem State.setSreg_qiPins (s : State) (i o : Nat) (x : Word) : (s.setSreg i o x).qiPins = s.qiPins := id rfl

@[simp] theorem State.setSreg_qi (s : State) (i o : Nat) (x : Word) : (s.setSreg i o x).qi = s.qi := id rfl

@[simp] theorem State.setSreg_qiAt (s : State) (i o : Nat) (x : Word) : (s.setSreg i o x).qiAt = s.qiAt := id rfl

@[simp] theorem State.setSreg_qiPresc (s : State) (i o : Nat) (x : Word) : (s.setSreg i o x).qiPresc = s.qiPresc := id rfl

@[simp] theorem State.setSreg_hpd (s : State) (i o : Nat) (x : Word) : (s.setSreg i o x).hpd = s.hpd := id rfl

@[simp] theorem State.setSreg_edidBusy (s : State) (i o : Nat) (x : Word) : (s.setSreg i o x).edidBusy = s.edidBusy := id rfl

@[simp] theorem State.setSreg_pe (s : State) (i o : Nat) (x : Word) : (s.setSreg i o x).pe = s.pe := id rfl

@[simp] theorem State.setSreg_usb (s : State) (i o : Nat) (x : Word) : (s.setSreg i o x).usb = s.usb := id rfl

@[simp] theorem State.setSreg_pipes (s : State) (i o : Nat) (x : Word) : (s.setSreg i o x).pipes = s.pipes := id rfl

@[simp] theorem State.setSreg_spoke (s : State) (i o : Nat) (x : Word) : (s.setSreg i o x).spoke = s.spoke := id rfl

@[simp] theorem State.setSreg_i2c (s : State) (i o : Nat) (x : Word) : (s.setSreg i o x).i2c = s.i2c := id rfl

@[simp] theorem State.setSreg_uart (s : State) (i o : Nat) (x : Word) : (s.setSreg i o x).uart = s.uart := id rfl

@[simp] theorem State.setSreg_spiBusy (s : State) (i o : Nat) (x : Word) : (s.setSreg i o x).spiBusy = s.spiBusy := id rfl

@[simp] theorem State.setSreg_jtag (s : State) (i o : Nat) (x : Word) : (s.setSreg i o x).jtag = s.jtag := id rfl

@[simp] theorem State.setSreg_goDriven (s : State) (i o : Nat) (x : Word) : (s.setSreg i o x).goDriven = s.goDriven := id rfl

@[simp] theorem State.setSreg_goHeld (s : State) (i o : Nat) (x : Word) : (s.setSreg i o x).goHeld = s.goHeld := id rfl

/-! ### State.modDreg -/

@[simp] theorem State.modDreg_pending (s : State) (a : Nat) (x : Word → Word) : (s.modDreg a x).pending = s.pending := id rfl

@[simp] theorem State.modDreg_nonce (s : State) (a : Nat) (x : Word → Word) : (s.modDreg a x).nonce = s.nonce := id rfl

@[simp] theorem State.modDreg_fab (s : State) (a : Nat) (x : Word → Word) : (s.modDreg a x).fab = s.fab := id rfl

@[simp] theorem State.modDreg_root (s : State) (a : Nat) (x : Word → Word) : (s.modDreg a x).root = s.root := id rfl

@[simp] theorem State.modDreg_mode (s : State) (a : Nat) (x : Word → Word) : (s.modDreg a x).mode = s.mode := id rfl

@[simp] theorem State.modDreg_mem (s : State) (a : Nat) (x : Word → Word) : (s.modDreg a x).mem = s.mem := id rfl

@[simp] theorem State.modDreg_errs (s : State) (a : Nat) (x : Word → Word) : (s.modDreg a x).errs = s.errs := id rfl

@[simp] theorem State.modDreg_flash (s : State) (a : Nat) (x : Word → Word) : (s.modDreg a x).flash = s.flash := id rfl

@[simp] theorem State.modDreg_regs (s : State) (a : Nat) (x : Word → Word) : (s.modDreg a x).regs = sset deviceDefault s.regs a (x (s.dreg a)) := id rfl

@[simp] theorem State.modDreg_hi (s : State) (a : Nat) (x : Word → Word) : (s.modDreg a x).hi = s.hi := id rfl

@[simp] theorem State.modDreg_stages (s : State) (a : Nat) (x : Word → Word) : (s.modDreg a x).stages = s.stages := id rfl

@[simp] theorem State.modDreg_cores (s : State) (a : Nat) (x : Word → Word) : (s.modDreg a x).cores = s.cores := id rfl

@[simp] theorem State.modDreg_irqs (s : State) (a : Nat) (x : Word → Word) : (s.modDreg a x).irqs = s.irqs := id rfl

@[simp] theorem State.modDreg_badEoi (s : State) (a : Nat) (x : Word → Word) : (s.modDreg a x).badEoi = s.badEoi := id rfl

@[simp] theorem State.modDreg_mbox (s : State) (a : Nat) (x : Word → Word) : (s.modDreg a x).mbox = s.mbox := id rfl

@[simp] theorem State.modDreg_chans (s : State) (a : Nat) (x : Word → Word) : (s.modDreg a x).chans = s.chans := id rfl

@[simp] theorem State.modDreg_rings (s : State) (a : Nat) (x : Word → Word) : (s.modDreg a x).rings = s.rings := id rfl

@[simp] theorem State.modDreg_badRing (s : State) (a : Nat) (x : Word → Word) : (s.modDreg a x).badRing = s.badRing := id rfl

@[simp] theorem State.modDreg_store (s : State) (a : Nat) (x : Word → Word) : (s.modDreg a x).store = s.store := id rfl

@[simp] theorem State.modDreg_timers (s : State) (a : Nat) (x : Word → Word) : (s.modDreg a x).timers = s.timers := id rfl

@[simp] theorem State.modDreg_tally (s : State) (a : Nat) (x : Word → Word) : (s.modDreg a x).tally = s.tally := id rfl

@[simp] theorem State.modDreg_sectors (s : State) (a : Nat) (x : Word → Word) : (s.modDreg a x).sectors = s.sectors := id rfl

@[simp] theorem State.modDreg_faults (s : State) (a : Nat) (x : Word → Word) : (s.modDreg a x).faults = s.faults := id rfl

@[simp] theorem State.modDreg_keeper (s : State) (a : Nat) (x : Word → Word) : (s.modDreg a x).keeper = s.keeper := id rfl

@[simp] theorem State.modDreg_power (s : State) (a : Nat) (x : Word → Word) : (s.modDreg a x).power = s.power := id rfl

@[simp] theorem State.modDreg_lpx (s : State) (a : Nat) (x : Word → Word) : (s.modDreg a x).lpx = s.lpx := id rfl

@[simp] theorem State.modDreg_load (s : State) (a : Nat) (x : Word → Word) : (s.modDreg a x).load = s.load := id rfl

@[simp] theorem State.modDreg_fuses (s : State) (a : Nat) (x : Word → Word) : (s.modDreg a x).fuses = s.fuses := id rfl

@[simp] theorem State.modDreg_straps (s : State) (a : Nat) (x : Word → Word) : (s.modDreg a x).straps = s.straps := id rfl

@[simp] theorem State.modDreg_qiPins (s : State) (a : Nat) (x : Word → Word) : (s.modDreg a x).qiPins = s.qiPins := id rfl

@[simp] theorem State.modDreg_qi (s : State) (a : Nat) (x : Word → Word) : (s.modDreg a x).qi = s.qi := id rfl

@[simp] theorem State.modDreg_qiAt (s : State) (a : Nat) (x : Word → Word) : (s.modDreg a x).qiAt = s.qiAt := id rfl

@[simp] theorem State.modDreg_qiPresc (s : State) (a : Nat) (x : Word → Word) : (s.modDreg a x).qiPresc = s.qiPresc := id rfl

@[simp] theorem State.modDreg_hpd (s : State) (a : Nat) (x : Word → Word) : (s.modDreg a x).hpd = s.hpd := id rfl

@[simp] theorem State.modDreg_edidBusy (s : State) (a : Nat) (x : Word → Word) : (s.modDreg a x).edidBusy = s.edidBusy := id rfl

@[simp] theorem State.modDreg_pe (s : State) (a : Nat) (x : Word → Word) : (s.modDreg a x).pe = s.pe := id rfl

@[simp] theorem State.modDreg_usb (s : State) (a : Nat) (x : Word → Word) : (s.modDreg a x).usb = s.usb := id rfl

@[simp] theorem State.modDreg_pipes (s : State) (a : Nat) (x : Word → Word) : (s.modDreg a x).pipes = s.pipes := id rfl

@[simp] theorem State.modDreg_spoke (s : State) (a : Nat) (x : Word → Word) : (s.modDreg a x).spoke = s.spoke := id rfl

@[simp] theorem State.modDreg_i2c (s : State) (a : Nat) (x : Word → Word) : (s.modDreg a x).i2c = s.i2c := id rfl

@[simp] theorem State.modDreg_uart (s : State) (a : Nat) (x : Word → Word) : (s.modDreg a x).uart = s.uart := id rfl

@[simp] theorem State.modDreg_spiBusy (s : State) (a : Nat) (x : Word → Word) : (s.modDreg a x).spiBusy = s.spiBusy := id rfl

@[simp] theorem State.modDreg_jtag (s : State) (a : Nat) (x : Word → Word) : (s.modDreg a x).jtag = s.jtag := id rfl

@[simp] theorem State.modDreg_goDriven (s : State) (a : Nat) (x : Word → Word) : (s.modDreg a x).goDriven = s.goDriven := id rfl

@[simp] theorem State.modDreg_goHeld (s : State) (a : Nat) (x : Word → Word) : (s.modDreg a x).goHeld = s.goHeld := id rfl

/-! ### State.draw -/

@[simp] theorem State.draw_pending (s : State) : s.draw.2.pending = s.pending := id rfl

@[simp] theorem State.draw_nonce (s : State) : s.draw.2.nonce = s.nonce + 1 := id rfl

@[simp] theorem State.draw_fab (s : State) : s.draw.2.fab = s.fab := id rfl

@[simp] theorem State.draw_root (s : State) : s.draw.2.root = s.root := id rfl

@[simp] theorem State.draw_mode (s : State) : s.draw.2.mode = s.mode := id rfl

@[simp] theorem State.draw_mem (s : State) : s.draw.2.mem = s.mem := id rfl

@[simp] theorem State.draw_errs (s : State) : s.draw.2.errs = s.errs := id rfl

@[simp] theorem State.draw_flash (s : State) : s.draw.2.flash = s.flash := id rfl

@[simp] theorem State.draw_regs (s : State) : s.draw.2.regs = s.regs := id rfl

@[simp] theorem State.draw_hi (s : State) : s.draw.2.hi = s.hi := id rfl

@[simp] theorem State.draw_stages (s : State) : s.draw.2.stages = s.stages := id rfl

@[simp] theorem State.draw_cores (s : State) : s.draw.2.cores = s.cores := id rfl

@[simp] theorem State.draw_irqs (s : State) : s.draw.2.irqs = s.irqs := id rfl

@[simp] theorem State.draw_badEoi (s : State) : s.draw.2.badEoi = s.badEoi := id rfl

@[simp] theorem State.draw_mbox (s : State) : s.draw.2.mbox = s.mbox := id rfl

@[simp] theorem State.draw_chans (s : State) : s.draw.2.chans = s.chans := id rfl

@[simp] theorem State.draw_rings (s : State) : s.draw.2.rings = s.rings := id rfl

@[simp] theorem State.draw_badRing (s : State) : s.draw.2.badRing = s.badRing := id rfl

@[simp] theorem State.draw_store (s : State) : s.draw.2.store = s.store := id rfl

@[simp] theorem State.draw_timers (s : State) : s.draw.2.timers = s.timers := id rfl

@[simp] theorem State.draw_tally (s : State) : s.draw.2.tally = s.tally := id rfl

@[simp] theorem State.draw_sectors (s : State) : s.draw.2.sectors = s.sectors := id rfl

@[simp] theorem State.draw_faults (s : State) : s.draw.2.faults = s.faults := id rfl

@[simp] theorem State.draw_keeper (s : State) : s.draw.2.keeper = s.keeper := id rfl

@[simp] theorem State.draw_power (s : State) : s.draw.2.power = s.power := id rfl

@[simp] theorem State.draw_lpx (s : State) : s.draw.2.lpx = s.lpx := id rfl

@[simp] theorem State.draw_load (s : State) : s.draw.2.load = s.load := id rfl

@[simp] theorem State.draw_fuses (s : State) : s.draw.2.fuses = s.fuses := id rfl

@[simp] theorem State.draw_straps (s : State) : s.draw.2.straps = s.straps := id rfl

@[simp] theorem State.draw_qiPins (s : State) : s.draw.2.qiPins = s.qiPins := id rfl

@[simp] theorem State.draw_qi (s : State) : s.draw.2.qi = s.qi := id rfl

@[simp] theorem State.draw_qiAt (s : State) : s.draw.2.qiAt = s.qiAt := id rfl

@[simp] theorem State.draw_qiPresc (s : State) : s.draw.2.qiPresc = s.qiPresc := id rfl

@[simp] theorem State.draw_hpd (s : State) : s.draw.2.hpd = s.hpd := id rfl

@[simp] theorem State.draw_edidBusy (s : State) : s.draw.2.edidBusy = s.edidBusy := id rfl

@[simp] theorem State.draw_pe (s : State) : s.draw.2.pe = s.pe := id rfl

@[simp] theorem State.draw_usb (s : State) : s.draw.2.usb = s.usb := id rfl

@[simp] theorem State.draw_pipes (s : State) : s.draw.2.pipes = s.pipes := id rfl

@[simp] theorem State.draw_spoke (s : State) : s.draw.2.spoke = s.spoke := id rfl

@[simp] theorem State.draw_i2c (s : State) : s.draw.2.i2c = s.i2c := id rfl

@[simp] theorem State.draw_uart (s : State) : s.draw.2.uart = s.uart := id rfl

@[simp] theorem State.draw_spiBusy (s : State) : s.draw.2.spiBusy = s.spiBusy := id rfl

@[simp] theorem State.draw_jtag (s : State) : s.draw.2.jtag = s.jtag := id rfl

@[simp] theorem State.draw_goDriven (s : State) : s.draw.2.goDriven = s.goDriven := id rfl

@[simp] theorem State.draw_goHeld (s : State) : s.draw.2.goHeld = s.goHeld := id rfl

end Sys2Proof.Machine
end

