-- ==== Sys2Proof/Laws/Sparse.lean ====
section
/-!
SUPPORT. Laws of the sparse tables and of memory: a read after a write, and the canonical form, which every memory
operation keeps.
-/

namespace Sys2Proof.Machine

variable {α : Type}

/-! ### Reads of vectors after writes -/

/-- An element reads as it was last stored. -/
theorem vget_vset {n : Nat} (d x : α) (v : Vector α n) (i j : Nat) :
    vget d (vset v i x) j = if i = j ∧ i < n then x else vget d v j := by
  simp only [vget, vset, Vector.getElem?_setIfInBounds]
  by_cases h : i = j
  · subst h
    by_cases hi : i < n <;> simp [hi]
  · simp [h]

/-! ### Sparse tables -/

section
variable [DecidableEq α] (d : Nat → α)

omit [DecidableEq α] in
/-- A key below every entry is unlisted. -/
theorem sget_above {m : Sparse α} {lo k : Nat} (h : sabove lo m) (hk : k ≤ lo) : sget d m k = d k := by
  induction m with
  | nil => rfl
  | cons e r ih =>
    have h1 := h e (by simp)
    have h2 : sabove lo r := fun x hx => h x (by simp [hx])
    simp only [sget]
    rw [if_neg (by omega), ih h2]

/-- The canonical form of a table of one entry more: the entry is no default and its key lies below the rest. -/
theorem swf_cons {k : Nat} {v : α} {r : Sparse α} :
    swf d ((k, v) :: r) = true ↔ v ≠ d k ∧ sabove k r ∧ swf d r = true := by
  induction r generalizing k v with
  | nil => simp [swf, sabove]
  | cons e r ih =>
    obtain ⟨j, w⟩ := e
    rw [swf]
    simp only [Bool.and_eq_true, decide_eq_true_eq, ih]
    constructor
    · rintro ⟨⟨h1, h2⟩, h3, h4, h5⟩
      refine ⟨h1, ?_, h3, h4, h5⟩
      intro x hx
      rcases List.mem_cons.1 hx with rfl | hx
      · exact h2
      · exact Nat.lt_trans h2 (h4 x hx)
    · rintro ⟨h1, h2, h3, h4, h5⟩
      exact ⟨⟨h1, h2 (j, w) (by simp)⟩, h3, h4, h5⟩

/-- Entries left out keep the canonical form. -/
theorem filter_swf {m : Sparse α} (p : Nat × α → Bool) (h : swf d m = true) : swf d (m.filter p) = true := by
  induction m with
  | nil => rfl
  | cons e r ih =>
    obtain ⟨j, w⟩ := e
    obtain ⟨h1, h2, h3⟩ := (swf_cons d).1 h
    rw [List.filter_cons]
    split
    · exact (swf_cons d).2 ⟨h1, fun x hx => h2 x (List.mem_filter.1 hx).1, ih h3⟩
    · exact ih h3

/-- An entry put into a table whose other keys differ keeps the canonical form. -/
theorem sput_swf {m : Sparse α} {k : Nat} {v : α} (h : swf d m = true) (hv : v ≠ d k) (hk : ∀ e ∈ m, e.1 ≠ k) :
    swf d (sput m k v) = true ∧ ∀ lo, lo < k → sabove lo m → sabove lo (sput m k v) := by
  induction m with
  | nil => exact ⟨by simp [sput, swf, hv], fun lo h1 _ e he => by simp [sput] at he; subst he; exact h1⟩
  | cons e r ih =>
    obtain ⟨j, w⟩ := e
    obtain ⟨h1, h2, h3⟩ := (swf_cons d).1 h
    have ih := ih h3 fun e he => hk e (by simp [he])
    have hj := hk (j, w) (by simp)
    simp only [sput]
    split
    · rename_i hlt
      refine ⟨(swf_cons d).2 ⟨h1, ih.2 j hlt h2, ih.1⟩, fun lo hlo ha x hx => ?_⟩
      rcases List.mem_cons.1 hx with rfl | hx
      · exact ha (j, w) (by simp)
      · exact ih.2 lo hlo (fun y hy => ha y (by simp [hy])) x hx
    · have hab : sabove k ((j, w) :: r) := fun x hx => by
        rcases List.mem_cons.1 hx with rfl | hx
        · show k < j; simp at hj; omega
        · have := h2 x hx; simp at hj; omega
      refine ⟨(swf_cons d).2 ⟨hv, hab, h⟩, fun lo hlo ha x hx => ?_⟩
      rcases List.mem_cons.1 hx with rfl | hx
      · exact hlo
      · exact ha x hx

/-- A write keeps the canonical form. -/
theorem sset_swf {m : Sparse α} {k : Nat} {v : α} (h : swf d m = true) : swf d (sset d m k v) = true := by
  have hf := filter_swf d (fun e => e.1 != k) h
  simp only [sset]
  split
  · exact hf
  · rename_i hv; exact (sput_swf d hf hv fun e he => by simpa using (List.mem_filter.1 he).2).1

omit [DecidableEq α] in
/-- A key reads as the entry put for it, and every other key as before. -/
theorem sget_sput (m : Sparse α) (k : Nat) (v : α) (j : Nat) :
    sget d (sput m k v) j = if j = k then v else sget d m j := by
  induction m with
  | nil => simp only [sput, sget, eq_comm]
  | cons e r ih =>
    obtain ⟨i, w⟩ := e
    simp only [sput]
    split
    · simp only [sget, ih]
      by_cases hi : i = j
      · subst hi; rw [if_pos rfl, if_neg (by omega), if_pos rfl]
      · rw [if_neg hi, if_neg hi]
    · simp only [sget, eq_comm]

omit [DecidableEq α] in
/-- A table without the entries of the keys that `p` leaves out reads as before at the keys it keeps. -/
theorem sget_filter (m : Sparse α) (p : Nat → Bool) (j : Nat) :
    sget d (m.filter fun e => p e.1) j = if p j then sget d m j else d j := by
  induction m with
  | nil => simp [sget]
  | cons e r ih =>
    obtain ⟨i, w⟩ := e
    rw [List.filter_cons]
    by_cases hi : i = j
    · subst hi
      cases hp : p i <;> simp_all [sget]
    · split <;> simp [sget, hi, ih]

/-- What is written is read back, and every other key reads as before. -/
theorem sget_sset (m : Sparse α) (k : Nat) (v : α) (j : Nat) :
    sget d (sset d m k v) j = if j = k then v else sget d m j := by
  have hf := sget_filter d m (fun x => x != k) j
  simp only [sset]
  split
  · rename_i hv
    rw [hf]
    by_cases hj : j = k
    · subst hj; simp [hv]
    · simp [hj]
  · rw [sget_sput, hf]
    by_cases hj : j = k <;> simp [hj]

end

/-! ### Memory -/

/-- A byte reads as it was last stored. -/
theorem State.byte_setByte (s : State) (a b : Nat) (x : Byte) :
    (s.setByte a x).byte b = if b = a then x else s.byte b := sget_sset memDefault s.mem a x b

/-- A store of a byte keeps the canonical form of memory. -/
@[simp] theorem State.setByte_wf {s : State} {a : Nat} {x : Byte} (h : Memory.wf s.mem = true) :
    Memory.wf (s.setByte a x).mem = true := sset_swf memDefault h

/-- A store of bytes keeps the canonical form of memory. -/
@[simp] theorem State.setBytes_wf {s : State} {a : Nat} {bs : List Byte} (h : Memory.wf s.mem = true) :
    Memory.wf (s.setBytes a bs).mem = true := by
  induction bs generalizing s a with
  | nil => exact h
  | cons b r ih => exact ih (setByte_wf h)

/-- Bytes set to zero keep the canonical form of memory. -/
@[simp] theorem State.zeroMem_wf {s : State} {a n : Nat} (h : Memory.wf s.mem = true) :
    Memory.wf (s.zeroMem a n).mem = true := filter_swf memDefault _ h

/-- Memory right after reset is in its canonical form. -/
theorem State.reset_mem_wf : Memory.wf State.reset.mem = true := rfl

/-- A byte outside the bytes stored reads as before. -/
theorem State.byte_setBytes_outside {s : State} {a : Nat} {bs : List Byte} (b : Nat)
    (hb : b < a ∨ a + bs.length ≤ b) : (s.setBytes a bs).byte b = s.byte b := by
  induction bs generalizing s a with
  | nil => rfl
  | cons x r ih =>
    simp only [List.length_cons] at hb
    rw [State.setBytes, ih (by omega), byte_setByte, if_neg (by omega)]

end Sys2Proof.Machine
end

