-- ==== Sys2Proof/Laws/Frames.lean ====
section
/-!
SUPPORT. What each shared operation leaves alone: the queue, the fuses and, but for those that write memory, memory; those
that write memory keep its canonical form. One law `…_frame` per operation, and one `…_wf` per operation that writes memory.
-/

namespace Sys2Proof.Machine

/-- The queue and the fuses are as they were, and memory keeps its canonical form. -/
def Kept (s t : State) : Prop := t.pending = s.pending ∧ t.fuses = s.fuses ∧ (Memory.wf s.mem = true → Memory.wf t.mem = true)

/-- Nothing is kept more surely than by no change. -/
theorem kept_self (s : State) : Kept s s := ⟨rfl, rfl, id⟩

/-- What two changes in turn keep. -/
theorem Kept.trans {s t u : State} (h : Kept s t) (g : Kept t u) : Kept s u :=
  ⟨g.1.trans h.1, g.2.1.trans h.2.1, fun hm => g.2.2 (h.2.2 hm)⟩

/-- A change that leaves queue, fuses and memory alone keeps them. -/
theorem kept_of_same {s t : State} (h1 : t.pending = s.pending) (h2 : t.mem = s.mem) (h3 : t.fuses = s.fuses) : Kept s t :=
  ⟨h1, h3, fun h => by rw [h2]; exact h⟩

/-- A fold keeps what each round keeps. -/
theorem foldl_kept {α} (g : State → α → State) (h : ∀ s a, Kept s (g s a)) (l : List α) (s : State) : Kept s (l.foldl g s) := by
  induction l generalizing s with
  | nil => exact kept_self s
  | cons a r ih => exact (h s a).trans (ih _)

/-- A branch keeps what both sides keep. -/
theorem ite_kept (c : Prop) [Decidable c] {s a b : State} (ha : Kept s a) (hb : Kept s b) : Kept s (if c then a else b) := by
  split <;> assumption

/-! ### Folds and branches: what each round or each branch leaves alone, the whole leaves alone -/

@[simp] theorem foldl_pending {α} (g : State → α → State) (h : ∀ s a, (g s a).pending = s.pending) (l :
    List α) (s : State) : (l.foldl g s).pending = s.pending := by
  induction l generalizing s with
  | nil => rfl
  | cons a r ih => simp [ih, h]

@[simp] theorem foldl_mem {α} (g : State → α → State) (h : ∀ s a, (g s a).mem = s.mem) (l : List α) (s : State) :
    (l.foldl g s).mem = s.mem := by
  induction l generalizing s with
  | nil => rfl
  | cons a r ih => simp [ih, h]

@[simp] theorem foldl_fuses {α} (g : State → α → State) (h : ∀ s a, (g s a).fuses = s.fuses) (l : List α) (s :
    State) : (l.foldl g s).fuses = s.fuses := by
  induction l generalizing s with
  | nil => rfl
  | cons a r ih => simp [ih, h]

@[simp] theorem foldl_wf {α} (g : State → α → State) (h :
    ∀ s a, Memory.wf s.mem = true → Memory.wf (g s a).mem = true) (l : List α) (s : State) (hs :
    Memory.wf s.mem = true) : Memory.wf (l.foldl g s).mem = true := by
  induction l generalizing s with
  | nil => exact hs
  | cons a r ih => exact ih _ (h _ _ hs)

@[simp] theorem ite_pending (c : Prop) [Decidable c] (a b : State) : (if c then a else b).pending = if c then a.pending else b.pending := by split <;> rfl

@[simp] theorem ite_mem (c : Prop) [Decidable c] (a b : State) : (if c then a else b).mem = if c then a.mem else b.mem := by split <;> rfl

@[simp] theorem ite_fuses (c : Prop) [Decidable c] (a b : State) : (if c then a else b).fuses = if c then a.fuses else b.fuses := by split <;> rfl

@[simp] theorem ite_wf (c : Prop) [Decidable c] (a b : State) (ha : Memory.wf a.mem = true) (hb : Memory.wf b.mem = true) : Memory.wf (if c then a else b).mem = true := by split <;> assumption

theorem pair_eq {α β} {p : α × β} {a : α} {b : β} : (p = (a, b)) ↔ (a = p.1 ∧ b = p.2) := by
  constructor
  · rintro rfl; exact ⟨rfl, rfl⟩
  · rintro ⟨rfl, rfl⟩; rfl

theorem foldl_keep {α} (g : State → α → State)
    (h : ∀ s a, (g s a).pending = s.pending ∧ (g s a).mem = s.mem ∧ (g s a).fuses = s.fuses) (l : List α) (s : State) :
    (l.foldl g s).pending = s.pending ∧ (l.foldl g s).mem = s.mem ∧ (l.foldl g s).fuses = s.fuses := by
  induction l generalizing s with
  | nil => exact ⟨rfl, rfl, rfl⟩
  | cons a r ih => obtain ⟨h1, h2, h3⟩ := h s a; simp [ih, h1, h2, h3]

theorem foldl_keep2 {α} (g : State → α → State)
    (h : ∀ s a, (g s a).pending = s.pending ∧ (g s a).fuses = s.fuses) (l : List α) (s : State) :
    (l.foldl g s).pending = s.pending ∧ (l.foldl g s).fuses = s.fuses := by
  induction l generalizing s with
  | nil => exact ⟨rfl, rfl⟩
  | cons a r ih => obtain ⟨h1, h2⟩ := h s a; simp [ih, h1, h2]

theorem foldl_fst {α β} (g : State × β → α → State × β)
    (h : ∀ q a, (g q a).1.pending = q.1.pending ∧ (g q a).1.mem = q.1.mem ∧ (g q a).1.fuses = q.1.fuses) (l : List α) (q : State × β) :
    (l.foldl g q).1.pending = q.1.pending ∧ (l.foldl g q).1.mem = q.1.mem ∧ (l.foldl g q).1.fuses = q.1.fuses := by
  induction l generalizing q with
  | nil => exact ⟨rfl, rfl, rfl⟩
  | cons a r ih => obtain ⟨h1, h2, h3⟩ := h q a; simp [ih, h1, h2, h3]

def State.same (s t : State) : Prop := t.pending = s.pending ∧ t.mem = s.mem ∧ t.fuses = s.fuses

def State.near (s t : State) : Prop := t.pending = s.pending ∧ t.fuses = s.fuses

def State.ok (t : State) : Prop := Memory.wf t.mem = true

theorem foldl_fst2 {α β} (g : State × β → α → State × β)
    (h : ∀ q a, (g q a).1.pending = q.1.pending ∧ (g q a).1.fuses = q.1.fuses) (l : List α) (q : State × β) :
    (l.foldl g q).1.pending = q.1.pending ∧ (l.foldl g q).1.fuses = q.1.fuses := by
  induction l generalizing q with
  | nil => exact ⟨rfl, rfl⟩
  | cons a r ih => obtain ⟨h1, h2⟩ := h q a; simp [ih, h1, h2]

/-! ### Operations of Machine/Ops.lean -/

@[simp] theorem State.setBytes_frame (s : State) (a : Nat) (bs : List Byte) :
    (s.setBytes a bs).pending = s.pending ∧ (s.setBytes a bs).fuses = s.fuses := by
  induction bs generalizing s a with
  | nil => exact ⟨rfl, rfl⟩
  | cons b r ih => simp [State.setBytes, ih]

@[simp] theorem State.blockOut_frame (s : State) (i initiator lindex a : Nat) (write : Bool) :
    (State.blockOut s i initiator lindex a write).pending = s.pending ∧
    (State.blockOut s i initiator lindex a write).mem = s.mem ∧
    (State.blockOut s i initiator lindex a write).fuses = s.fuses := by
  simp [State.blockOut]

@[simp] theorem State.corrected_frame (s : State) (a : Nat) : (State.corrected s a).pending = s.pending ∧
    (State.corrected s a).mem = s.mem ∧ (State.corrected s a).fuses = s.fuses := by
  simp [State.corrected]

@[simp] theorem State.uncorrectable_frame (s : State) (a : Nat) : (State.uncorrectable s a).pending = s.pending ∧
    (State.uncorrectable s a).mem = s.mem ∧ (State.uncorrectable s a).fuses = s.fuses := by
  simp [State.uncorrectable]

@[simp] theorem State.accViol_frame (s : State) (i : Initiator) (a : Nat) :
    (State.accViol s i a).pending = s.pending ∧ (State.accViol s i a).mem = s.mem ∧
    (State.accViol s i a).fuses = s.fuses := by
  simp [State.accViol]

@[simp] theorem State.setSymbols_frame (s : State) (a n : Nat) : (State.setSymbols s a n).pending = s.pending ∧
    (State.setSymbols s a n).mem = s.mem ∧ (State.setSymbols s a n).fuses = s.fuses := ⟨rfl, rfl, rfl⟩

@[simp] theorem State.upset_frame (s : State) (a n : Nat) : (State.upset s a n).pending = s.pending ∧
    (State.upset s a n).mem = s.mem ∧ (State.upset s a n).fuses = s.fuses := by
  unfold State.upset; split <;> simp

@[simp] theorem State.readWord_frame (s : State) (fv a : Nat) : (State.readWord s fv a).2.pending = s.pending ∧
    (State.readWord s fv a).2.fuses = s.fuses := by
  unfold State.readWord; dsimp only; (repeat' split) <;> simp

@[simp] theorem State.readWord_wf (s : State) (fv a : Nat) (hm : Memory.wf s.mem = true) :
    Memory.wf (State.readWord s fv a).2.mem = true := by
  unfold State.readWord; dsimp only; (repeat' split) <;> simp [hm]

theorem foldl_snd2 {α β} (g : β × State → α → β × State)
    (h : ∀ q a, (g q a).2.pending = q.2.pending ∧ (g q a).2.fuses = q.2.fuses) (l : List α) (q : β × State) :
    (l.foldl g q).2.pending = q.2.pending ∧ (l.foldl g q).2.fuses = q.2.fuses := by
  induction l generalizing q with
  | nil => exact ⟨rfl, rfl⟩
  | cons a r ih => obtain ⟨h1, h2⟩ := h q a; simp [ih, h1, h2]

theorem foldl_snd_wf {α β} (g : β × State → α → β × State)
    (h : ∀ q a, Memory.wf q.2.mem = true → Memory.wf (g q a).2.mem = true) (l : List α) (q : β × State)
    (hm : Memory.wf q.2.mem = true) : Memory.wf (l.foldl g q).2.mem = true := by
  induction l generalizing q with
  | nil => exact hm
  | cons a r ih => exact ih _ (h _ _ hm)

@[simp] theorem State.readWords_frame (s : State) (fv : Nat) (ws : List Nat) :
    (State.readWords s fv ws).2.pending = s.pending ∧ (State.readWords s fv ws).2.fuses = s.fuses :=
  foldl_snd2 _ (fun q w => by dsimp only; exact State.readWord_frame q.2 fv w) ws ([], s)

@[simp] theorem State.readWords_wf (s : State) (fv : Nat) (ws : List Nat) (hm : Memory.wf s.mem = true) :
    Memory.wf (State.readWords s fv ws).2.mem = true :=
  foldl_snd_wf _ (fun q w h => by dsimp only; exact State.readWord_wf q.2 fv w h) ws ([], s) hm

@[simp] theorem State.readRanges_frame (s : State) (rs : List (Nat × Nat)) : (State.readRanges s rs).2.pending = s.pending ∧
    (State.readRanges s rs).2.fuses = s.fuses := by
  unfold State.readRanges; split <;> simp

@[simp] theorem State.readRanges_wf (s : State) (rs : List (Nat × Nat)) (hm : Memory.wf s.mem = true) :
    Memory.wf (State.readRanges s rs).2.mem = true := by
  unfold State.readRanges; split <;> simp [hm]

theorem State.readRanges_kept (s : State) (rs : List (Nat × Nat)) : Kept s (s.readRanges rs).2 :=
  ⟨(State.readRanges_frame s rs).1, (State.readRanges_frame s rs).2, State.readRanges_wf s rs⟩

theorem State.upset_kept (s : State) (a n : Nat) : Kept s (s.upset a n) :=
  kept_of_same (State.upset_frame s a n).1 (State.upset_frame s a n).2.1 (State.upset_frame s a n).2.2

@[simp] theorem State.openRanges_frame (s : State) (rs : List (Nat × Nat)) (whole : Nat → Bool) :
    (State.openRanges s rs whole).2.pending = s.pending ∧ (State.openRanges s rs whole).2.fuses = s.fuses := by
  unfold State.openRanges; split
  · simp
  · dsimp only; rw [(State.readWords_frame _ _ _).1, (State.readWords_frame _ _ _).2]; simp

@[simp] theorem State.openRanges_wf (s : State) (rs : List (Nat × Nat)) (whole : Nat → Bool) (hm : Memory.wf s.mem = true) :
    Memory.wf (State.openRanges s rs whole).2.mem = true := by
  unfold State.openRanges; split
  · exact hm
  · dsimp only; apply State.readWords_wf; simp [hm]

@[simp] theorem State.fetchBytes_frame (s : State) (a n : Nat) : (State.fetchBytes s a n).2.2.pending = s.pending ∧
    (State.fetchBytes s a n).2.2.fuses = s.fuses := by
  simp [State.fetchBytes]

@[simp] theorem State.fetchBytes_wf (s : State) (a n : Nat) (hm : Memory.wf s.mem = true) :
    Memory.wf (State.fetchBytes s a n).2.2.mem = true := by
  simp [State.fetchBytes, hm]

@[simp] theorem State.putBytes_frame (s : State) (ws : List Nat) (a : Nat) (bs : List Byte) :
    (State.putBytes s ws a bs).pending = s.pending ∧ (State.putBytes s ws a bs).fuses = s.fuses := by
  induction bs generalizing s a with
  | nil => exact ⟨rfl, rfl⟩
  | cons b r ih => unfold State.putBytes; split <;> simp [ih]

@[simp] theorem State.putBytes_wf (s : State) (ws : List Nat) (a : Nat) (bs : List Byte) (hm : Memory.wf s.mem = true) :
    Memory.wf (State.putBytes s ws a bs).mem = true := by
  induction bs generalizing s a with
  | nil => exact hm
  | cons b r ih => unfold State.putBytes; apply ih; split <;> simp [hm]

theorem State.openRanges_eq {s : State} {rs : List (Nat × Nat)} {whole : Nat → Bool} {ws : List Nat} {t : State}
    (h : s.openRanges rs whole = (ws, t)) : t.pending = s.pending ∧ t.fuses = s.fuses ∧
    (Memory.wf s.mem = true → Memory.wf t.mem = true) := by
  have h1 := State.openRanges_frame s rs whole
  have h2 := State.openRanges_wf s rs whole
  rw [h] at h1 h2; exact ⟨h1.1, h1.2, h2⟩

theorem State.readRanges_eq {s : State} {rs : List (Nat × Nat)} {ws : List Nat} {t : State}
    (h : s.readRanges rs = (ws, t)) : t.pending = s.pending ∧ t.fuses = s.fuses ∧
    (Memory.wf s.mem = true → Memory.wf t.mem = true) := by
  have h1 := State.readRanges_frame s rs
  have h2 := State.readRanges_wf s rs
  rw [h] at h1 h2; exact ⟨h1.1, h1.2, h2⟩

@[simp] theorem State.storeBytes_frame (s : State) (a : Nat) (bs : List Byte) :
    (State.storeBytes s a bs).pending = s.pending ∧ (State.storeBytes s a bs).fuses = s.fuses := by
  unfold State.storeBytes
  split <;> (rename_i h; simp [State.openRanges_eq h])

@[simp] theorem State.storeBytes_wf (s : State) (a : Nat) (bs : List Byte) (hm : Memory.wf s.mem = true) :
    Memory.wf (State.storeBytes s a bs).mem = true := by
  unfold State.storeBytes
  split <;> (rename_i h; simp [(State.openRanges_eq h).2.2 hm])

/-! ### Operations of Machine/PipCore.lean -/

theorem State.fetch_kept {s : State} {k : Nat} {va : Word} {ue : Bool} {c : Core} {t : State} {r : Except Exc Core}
    (h : s.fetch k va ue c = some (t, r)) : t.pending = s.pending ∧ t.fuses = s.fuses ∧
    (Memory.wf s.mem = true → Memory.wf t.mem = true) := by
  unfold State.fetch at h
  split at h
  · cases h; simp
  · split at h
    · cases h; simp
    · split at h
      · cases h; simp
      · split at h
        · cases h
        · dsimp only at h
          split at h <;> (rename_i heq; cases h; have := State.readRanges_eq heq; revert this; split <;> simp)

theorem State.fetchAll_kept {s : State} {x : Issue} {pair : Bool} {c : Core} {t : State} {r : Except Exc Core}
    (h : s.fetchAll x pair c = some (t, r)) : t.pending = s.pending ∧ t.fuses = s.fuses ∧
    (Memory.wf s.mem = true → Memory.wf t.mem = true) := by
  unfold State.fetchAll at h
  split at h
  · cases h; simp
  · split at h
    · rename_i heq
      have h1 := State.fetch_kept heq
      split at h
      · have h2 := State.fetch_kept h
        exact ⟨h2.1.trans h1.1, h2.2.1.trans h1.2.1, fun hm => h2.2.2 (h1.2.2 hm)⟩
      · cases h; exact h1
    · exact State.fetch_kept h

/-- What an instruction does to the queue, the fuses and memory is what its body does. -/
theorem pipIssueWith_kept' (pair : Bool) (x : Issue) (word : Word) (undef : Core → Bool) (priv : Bool) (body : Body) (s : State)
    (hb : ∀ s c t d, body s c = .ok (t, d) → t.pending = s.pending ∧ t.fuses = s.fuses ∧
      (Memory.wf s.mem = true → Memory.wf t.mem = true)) :
    ∃ t, pipIssueWith pair x word undef priv body s = .next t ∧ t.pending = s.pending ∧ t.fuses = s.fuses ∧
      (Memory.wf s.mem = true → Memory.wf t.mem = true) := by
  unfold pipIssueWith
  dsimp only
  split
  · exact ⟨s, rfl, rfl, rfl, id⟩
  · generalize hq : (if (decide (20 ≤ x.core) || _) = true then (s, s.core x.core) else s.stalled (s.core x.core)) = q
    have h0 : q.1.pending = s.pending ∧ q.1.fuses = s.fuses ∧ (Memory.wf s.mem = true → Memory.wf q.1.mem = true) := by
      subst hq; split <;> exact ⟨rfl, rfl, id⟩
    obtain ⟨u, c⟩ := q
    dsimp only at h0 ⊢
    split
    · exact ⟨_, rfl, by simpa using h0⟩
    · rename_i heq
      have h1 := State.fetchAll_kept heq
      exact ⟨_, rfl, by simpa [h1] using ⟨h0.1, h0.2.1, fun hm => h1.2.2 (h0.2.2 hm)⟩⟩
    · rename_i heq
      have h1 := State.fetchAll_kept heq
      have h2 : ∀ v : State, v.pending = _ ∧ v.fuses = _ ∧ _ → v.pending = s.pending ∧ v.fuses = s.fuses ∧ _ :=
        fun v (hv : v.pending = _ ∧ v.fuses = _ ∧ (Memory.wf _ = true → Memory.wf v.mem = true)) =>
          ⟨(hv.1.trans h1.1).trans h0.1, (hv.2.1.trans h1.2.1).trans h0.2.1, fun hm => hv.2.2 (h1.2.2 (h0.2.2 hm))⟩
      unfold pipRun
      dsimp only
      (repeat' split)
      · exact ⟨_, rfl, h2 _ ⟨rfl, rfl, id⟩⟩
      · exact ⟨_, rfl, h2 _ ⟨rfl, rfl, id⟩⟩
      · exact ⟨_, rfl, h2 _ ⟨rfl, rfl, id⟩⟩
      · exact ⟨_, rfl, h2 _ ⟨rfl, rfl, id⟩⟩
      · rename_i heq
        have h3 := hb _ _ _ _ heq
        exact ⟨_, rfl, h2 _ ⟨h3.1, h3.2.1, h3.2.2⟩⟩

/-! ### Operations of Machine/Router.lean -/

@[simp] theorem State.sampleIrq_frame (s : State) (n : Nat) : (State.sampleIrq s n).pending = s.pending ∧
    (State.sampleIrq s n).mem = s.mem ∧ (State.sampleIrq s n).fuses = s.fuses := by
  simp [State.sampleIrq]

@[simp] theorem State.accept_frame (s : State) (n t : Nat) : (State.accept s n t).pending = s.pending ∧
    (State.accept s n t).mem = s.mem ∧ (State.accept s n t).fuses = s.fuses := by
  simp [State.accept]

@[simp] theorem State.endService_frame (s : State) (n : Nat) : (State.endService s n).pending = s.pending ∧
    (State.endService s n).mem = s.mem ∧ (State.endService s n).fuses = s.fuses := by
  simp [State.endService]

@[simp] theorem State.eoi_frame (s : State) (t n : Nat) : (State.eoi s t n).pending = s.pending ∧
    (State.eoi s t n).mem = s.mem ∧ (State.eoi s t n).fuses = s.fuses := by
  simp [State.eoi]

@[simp] theorem State.hostSync_frame (s : State) (h : Nat) (claimed : Option Nat) :
    (State.hostSync s h claimed).pending = s.pending ∧ (State.hostSync s h claimed).mem = s.mem ∧
    (State.hostSync s h claimed).fuses = s.fuses := by
  simp [State.hostSync]

@[simp] theorem State.hostSyncAll_frame (s : State) : (State.hostSyncAll s).pending = s.pending ∧
    (State.hostSyncAll s).mem = s.mem ∧ (State.hostSyncAll s).fuses = s.fuses := by
  simp [State.hostSyncAll]

@[simp] theorem State.hostStep_frame (s : State) (f : State → State) (h : ∀ t : State, (f t).pending = t.pending ∧
    (f t).mem = t.mem ∧ (f t).fuses = t.fuses) : (State.hostStep s f).pending = s.pending ∧ (State.hostStep s f).mem = s.mem ∧
    (State.hostStep s f).fuses = s.fuses := by
  simp [State.hostStep, h]

@[simp] theorem State.pulse_frame (s : State) (n : Nat) : (State.pulse s n).pending = s.pending ∧
    (State.pulse s n).mem = s.mem ∧ (State.pulse s n).fuses = s.fuses :=
  State.hostStep_frame s _ fun t => by simp

@[simp] theorem State.claim_frame (s : State) (t : Nat) : (State.claim s t).pending = s.pending ∧
    (State.claim s t).mem = s.mem ∧ (State.claim s t).fuses = s.fuses := by
  unfold State.claim
  (repeat' split)
  all_goals (simp)

@[simp] theorem State.swWrite_frame (s : State) (i : Initiator) (n : Nat) (v : Word) (clear : Bool) :
    (State.swWrite s i n v clear).pending = s.pending ∧ (State.swWrite s i n v clear).mem = s.mem ∧
    (State.swWrite s i n v clear).fuses = s.fuses := by
  simp [State.swWrite]

/-! ### Operations of Machine/Mailboxes.lean -/

@[simp] theorem State.mbWrite_frame (s : State) (m t o : Nat) (f : Mailbox → Mailbox) :
    (State.mbWrite s m t o f).pending = s.pending ∧ (State.mbWrite s m t o f).mem = s.mem ∧
    (State.mbWrite s m t o f).fuses = s.fuses := by
  simp [State.mbWrite]

@[simp] theorem State.moveMailbox_frame (s : State) (i j : Nat) : (State.moveMailbox s i j).pending = s.pending ∧
    (State.moveMailbox s i j).mem = s.mem ∧ (State.moveMailbox s i j).fuses = s.fuses := by
  simp [State.moveMailbox]

@[simp] theorem State.swapMailbox_frame (s : State) (i j : Nat) : (State.swapMailbox s i j).pending = s.pending ∧
    (State.swapMailbox s i j).mem = s.mem ∧ (State.swapMailbox s i j).fuses = s.fuses := by
  simp [State.swapMailbox]

@[simp] theorem State.idleSenders_frame (s : State) (ps : List Nat) :
    (State.idleSenders s ps).pending = s.pending ∧ (State.idleSenders s ps).mem = s.mem ∧
    (State.idleSenders s ps).fuses = s.fuses := by
  simp [State.idleSenders]

/-! ### Operations of Machine/Timers.lean -/

@[simp] theorem State.emit_frame (s : State) (k : Nat) (evs : List Nat) :
    (State.emit s k evs).pending = s.pending ∧ (State.emit s k evs).mem = s.mem ∧
    (State.emit s k evs).fuses = s.fuses := by
  simp [State.emit]

@[simp] theorem State.judgeCmp_frame (s : State) (k i : Nat) : (State.judgeCmp s k i).1.pending = s.pending ∧
    (State.judgeCmp s k i).1.mem = s.mem ∧ (State.judgeCmp s k i).1.fuses = s.fuses := by
  unfold State.judgeCmp
  dsimp only
  (repeat' split)
  all_goals (simp [*])

@[simp] theorem State.judgeCmps_frame (s : State) (k : Nat) : (State.judgeCmps s k).1.pending = s.pending ∧
    (State.judgeCmps s k).1.mem = s.mem ∧ (State.judgeCmps s k).1.fuses = s.fuses := by
  unfold State.judgeCmps
  refine foldl_fst _ ?_ _ (s, [])
  intro q a
  simp

@[simp] theorem State.modCyc_frame (s : State) (k : Nat) (f : TimerCycle → TimerCycle) : (s.modCyc k f).pending = s.pending ∧
    (s.modCyc k f).mem = s.mem ∧ (s.modCyc k f).fuses = s.fuses := by
  simp [State.modCyc]

@[simp] theorem State.putCmp_frame (s : State) (k i : Nat) (v : Word) : (s.putCmp k i v).pending = s.pending ∧
    (s.putCmp k i v).mem = s.mem ∧ (s.putCmp k i v).fuses = s.fuses := by
  simp [State.putCmp]

@[simp] theorem State.oldCmp_frame (s : State) (k : Nat) (e : Nat × Word × Bool) : (s.oldCmp k e).pending = s.pending ∧
    (s.oldCmp k e).mem = s.mem ∧ (s.oldCmp k e).fuses = s.fuses := by
  simp [State.oldCmp]

@[simp] theorem State.untick_frame (s : State) (k : Nat) : (s.untick k).pending = s.pending ∧ (s.untick k).mem = s.mem ∧
    (s.untick k).fuses = s.fuses := by
  have h := fun (p : Nat → Bool) (g : Nat → Word) => foldl_keep
    (fun (s : State) i => if p i then s else s.setDreg (cmpReg k i) (g i)) (fun s a => by split <;> simp) (List.range 4) s
  unfold State.untick
  dsimp only
  split
  · simp
  · simp [h]

@[simp] theorem State.armTimer_frame (s : State) (k : Nat) : (State.armTimer s k).pending = s.pending ∧
    (State.armTimer s k).mem = s.mem ∧ (State.armTimer s k).fuses = s.fuses := by
  unfold State.armTimer
  split <;> simp

@[simp] theorem State.stopTimer_frame (s : State) (k : Nat) : (State.stopTimer s k).pending = s.pending ∧
    (State.stopTimer s k).mem = s.mem ∧ (State.stopTimer s k).fuses = s.fuses := by
  simp [State.stopTimer]

@[simp] theorem State.countTimer_frame (s : State) (k : Nat) : (s.countTimer k).1.pending = s.pending ∧
    (s.countTimer k).1.mem = s.mem ∧ (s.countTimer k).1.fuses = s.fuses := by
  unfold State.countTimer
  dsimp only
  (repeat' split) <;> simp

@[simp] theorem State.tickTimer_frame (s : State) (k : Nat) : (State.tickTimer s k).pending = s.pending ∧
    (State.tickTimer s k).mem = s.mem ∧ (State.tickTimer s k).fuses = s.fuses := by
  have h := foldl_keep (fun (s : State) e => s.oldCmp k e) (fun s a => by simp) ((s.timer k).cycle s.peri).writes s
  have h2 := fun (l : List (Nat × Word)) t => foldl_keep (fun (s : State) (e : Nat × Word) => s.putCmp k e.1 e.2)
    (fun s a => by simp) l t
  unfold State.tickTimer
  dsimp only
  (repeat' split) <;> simp [h, h2]

@[simp] theorem State.seeInput_frame (s : State) (k : Nat) : (s.seeInput k).pending = s.pending ∧ (s.seeInput k).mem = s.mem ∧
    (s.seeInput k).fuses = s.fuses := by
  unfold State.seeInput
  dsimp only
  split
  · split <;> simp
  · simp

@[simp] theorem State.sourceTick_frame (s : State) (k : Nat) : (s.sourceTick k).pending = s.pending ∧ (s.sourceTick k).mem = s.mem ∧
    (s.sourceTick k).fuses = s.fuses := by
  unfold State.sourceTick
  split <;> simp

theorem State.timerWrite_frame (s : State) (i : Initiator) (k o : Nat) (f : State → State)
    (hf : (f s).pending = s.pending ∧ (f s).mem = s.mem ∧ (f s).fuses = s.fuses) : (s.timerWrite i k o f).pending = s.pending ∧ (s.timerWrite i k o f).mem = s.mem ∧ (s.timerWrite i k o f).fuses = s.fuses := by
  unfold State.timerWrite
  split <;> simp [hf]

@[simp] theorem State.tcCmd_frame (s : State) (k : Nat) (v : Word) : (State.tcCmd s k v).pending = s.pending ∧
    (State.tcCmd s k v).mem = s.mem ∧ (State.tcCmd s k v).fuses = s.fuses := by
  simp [State.tcCmd]

@[simp] theorem State.writeCmp_frame (s : State) (k j : Nat) (v : Word) :
    (State.writeCmp s k j v).pending = s.pending ∧ (State.writeCmp s k j v).mem = s.mem ∧
    (State.writeCmp s k j v).fuses = s.fuses := by
  simp [State.writeCmp]

@[simp] theorem State.captureTimer_frame (s : State) (k : Nat) (level : Bool) :
    (State.captureTimer s k level).pending = s.pending ∧ (State.captureTimer s k level).mem = s.mem ∧
    (State.captureTimer s k level).fuses = s.fuses := by
  simp [State.captureTimer]

@[simp] theorem State.writeCapcfg_frame (s : State) (k : Nat) (v : Word) :
    (State.writeCapcfg s k v).pending = s.pending ∧ (State.writeCapcfg s k v).mem = s.mem ∧
    (State.writeCapcfg s k v).fuses = s.fuses := by
  simp [State.writeCapcfg]

@[simp] theorem State.writeTcCtrl_frame (s : State) (i : Initiator) (k : Nat) (v : Word) :
    (State.writeTcCtrl s i k v).pending = s.pending ∧ (State.writeTcCtrl s i k v).mem = s.mem ∧
    (State.writeTcCtrl s i k v).fuses = s.fuses := by
  unfold State.writeTcCtrl
  (repeat' split)
  all_goals (simp)

@[simp] theorem State.writeTcLink_frame (s : State) (i : Initiator) (k : Nat) (v : Word) :
    (State.writeTcLink s i k v).pending = s.pending ∧ (State.writeTcLink s i k v).mem = s.mem ∧
    (State.writeTcLink s i k v).fuses = s.fuses := by
  unfold State.writeTcLink
  (repeat' split)
  all_goals (simp)

@[simp] theorem State.resetTimer_frame (s : State) (k : Nat) : (State.resetTimer s k).pending = s.pending ∧
    (State.resetTimer s k).mem = s.mem ∧ (State.resetTimer s k).fuses = s.fuses := by
  simp [State.resetTimer]

@[simp] theorem State.fireAlarm_frame (s : State) : (s.fireAlarm).pending = s.pending ∧ (s.fireAlarm).mem = s.mem ∧
    (s.fireAlarm).fuses = s.fuses := by
  unfold State.fireAlarm
  split <;> simp

@[simp] theorem State.setTally_frame (s : State) (lo : Word) : (State.setTally s lo).pending = s.pending ∧
    (State.setTally s lo).mem = s.mem ∧ (State.setTally s lo).fuses = s.fuses := by
  simp [State.setTally]

/-! ### Operations of Machine/Beam.lean -/

@[simp] theorem State.modPort_frame (s : State) (p : Nat) (f : Stage → Stage) :
    (State.modPort s p f).pending = s.pending ∧ (State.modPort s p f).mem = s.mem ∧
    (State.modPort s p f).fuses = s.fuses := by
  unfold State.modPort
  (repeat' split)
  all_goals (simp)

@[simp] theorem State.setDregs_frame (s : State) (a : Nat) (ws : List Word) :
    (s.setDregs a ws).pending = s.pending ∧ (s.setDregs a ws).mem = s.mem ∧ (s.setDregs a ws).fuses = s.fuses := by
  induction ws generalizing s a with
  | nil => exact ⟨rfl, rfl, rfl⟩
  | cons w r ih => simp [State.setDregs, ih]

/-! ### Operations of Machine/Facet.lean -/

theorem State.recordReads_kept (s : State) (i initiator lindex : Nat) (r : Source) (reads : List (Nat × Nat)) :
    Kept s (State.recordReads s i initiator lindex r reads) := by
  have h1 : Kept s ((r.blocked reads).foldl (fun s a => s.blockOut i initiator lindex a false) s) :=
    foldl_kept _ (fun s a => kept_of_same (by simp) (by simp) (by simp)) _ _
  unfold State.recordReads
  exact h1.trans ⟨(State.readWords_frame _ _ _).1, (State.readWords_frame _ _ _).2, fun h => State.readWords_wf _ _ _ h⟩

@[simp] theorem State.recordReads_frame (s : State) (i initiator lindex : Nat) (r : Source) (reads :
    List (Nat × Nat)) : (State.recordReads s i initiator lindex r reads).pending = s.pending ∧
    (State.recordReads s i initiator lindex r reads).fuses = s.fuses :=
  ⟨(State.recordReads_kept s i initiator lindex r reads).1, (State.recordReads_kept s i initiator lindex r reads).2.1⟩

@[simp] theorem State.recordReads_wf (s : State) (i initiator lindex : Nat) (r : Source) (reads : List (Nat × Nat))
    (hm : Memory.wf s.mem = true) : Memory.wf (State.recordReads s i initiator lindex r reads).mem = true :=
  (State.recordReads_kept s i initiator lindex r reads).2.2 hm

/-! ### Operations of Machine/Prism.lean -/

@[simp] theorem State.watchMem_frame (s : State) (i a n : Nat) : (State.watchMem s i a n).pending = s.pending ∧
    (State.watchMem s i a n).mem = s.mem ∧ (State.watchMem s i a n).fuses = s.fuses := by
  simp [State.watchMem]

@[simp] theorem State.writePlane_frame (s : State) (i y w : Nat) (es : List (Nat × Nat)) :
    (State.writePlane s i y w es).pending = s.pending ∧ (State.writePlane s i y w es).fuses = s.fuses := by
  unfold State.writePlane
  dsimp only
  (repeat' split)
  all_goals (simp [State.draw, *])

@[simp] theorem State.writePlane_wf (s : State) (i y w : Nat) (es : List (Nat × Nat)) (hm :
    Memory.wf s.mem = true) : Memory.wf (State.writePlane s i y w es).mem = true := by
  unfold State.writePlane
  dsimp only
  (repeat' split)
  all_goals (simp_all [State.draw])

/-! ### Operations of Machine/Chord.lean -/

theorem chordStep_frame (op : Nat) (i : Nat) (s : State) (f : Nat → State → State)
    (hf : ∀ n, (f n s).pending = s.pending ∧ (f n s).mem = s.mem ∧ (f n s).fuses = s.fuses) (t : State) (h : chordStep op i s f = .next t) : t.pending = s.pending ∧ t.mem = s.mem ∧ t.fuses = s.fuses := by
  unfold chordStep at h
  dsimp only at h
  split at h <;> cases h
  · exact hf _
  · exact ⟨rfl, rfl, rfl⟩

@[simp] theorem State.modChord_frame (st : State) (s : Nat) (f : Chord → Chord) :
    (State.modChord st s f).pending = st.pending ∧ (State.modChord st s f).mem = st.mem ∧
    (State.modChord st s f).fuses = st.fuses := by
  simp [State.modChord]

@[simp] theorem State.chordWait_frame (st : State) (s : Nat) (w : Nat) :
    (State.chordWait st s w).pending = st.pending ∧ (State.chordWait st s w).mem = st.mem ∧
    (State.chordWait st s w).fuses = st.fuses := by
  simp [State.chordWait, State.draw]

@[simp] theorem State.chordSend_frame (st : State) (s off : Nat) (v m : Word) :
    (State.chordSend st s off v m).pending = st.pending ∧ (State.chordSend st s off v m).mem = st.mem ∧
    (State.chordSend st s off v m).fuses = st.fuses := by
  simp [State.chordSend, State.draw]

@[simp] theorem State.countQi_frame (s : State) (i q : Nat) (rising : Bool) :
    (State.countQi s i q rising).pending = s.pending ∧ (State.countQi s i q rising).mem = s.mem ∧
    (State.countQi s i q rising).fuses = s.fuses := by
  simp [State.countQi]

@[simp] theorem State.qiEdge_frame (s : State) (i q : Nat) (rising : Bool) :
    (State.qiEdge s i q rising).pending = s.pending ∧ (State.qiEdge s i q rising).mem = s.mem ∧
    (State.qiEdge s i q rising).fuses = s.fuses := by
  simp [State.qiEdge]

@[simp] theorem State.writeQiCfg_frame (s : State) (n q : Nat) (v : Word) :
    (State.writeQiCfg s n q v).pending = s.pending ∧ (State.writeQiCfg s n q v).mem = s.mem ∧
    (State.writeQiCfg s n q v).fuses = s.fuses := by
  simp [State.writeQiCfg]

/-! ### Operations of Machine/Sound.lean -/

/-! ### Operations of Machine/VineOps.lean -/

@[simp] theorem State.modDrive_frame (s : State) (d : Nat) (f : Drive → Drive) :
    (State.modDrive s d f).pending = s.pending ∧ (State.modDrive s d f).mem = s.mem ∧
    (State.modDrive s d f).fuses = s.fuses := by
  simp [State.modDrive]

@[simp] theorem State.putCmd_frame (s : State) (d : Nat) (x : NvmeCmd) : (State.putCmd s d x).pending = s.pending ∧
    (State.putCmd s d x).mem = s.mem ∧ (State.putCmd s d x).fuses = s.fuses := by
  simp [State.putCmd]

@[simp] theorem State.issueChan_frame (s : State) (c n : Nat) : ((s.issueChan c n).2).pending = s.pending ∧ ((s.issueChan c n).2).mem = s.mem ∧
    ((s.issueChan c n).2).fuses = s.fuses := by
  induction n generalizing s with
  | zero => exact ⟨rfl, rfl, rfl⟩
  | succ n ih =>
    unfold State.issueChan
    (repeat' split) <;> simp [ih]

@[simp] theorem State.issueLine_frame (s : State) (shut l : List Nat) : (s.issueLine shut l).pending = s.pending ∧ (s.issueLine shut l).mem = s.mem ∧
    (s.issueLine shut l).fuses = s.fuses := by
  induction l generalizing s shut with
  | nil => exact ⟨rfl, rfl, rfl⟩
  | cons c r ih =>
    unfold State.issueLine
    split
    · exact ih _ _
    · dsimp only; simp [ih]

@[simp] theorem State.issueAll_frame (s : State) : (State.issueAll s).pending = s.pending ∧
    (State.issueAll s).mem = s.mem ∧ (State.issueAll s).fuses = s.fuses := by
  simp [State.issueAll]

theorem State.groupRead_kept (s : State) (g a n : Nat) : Kept s ((s.groupRead g a n).2.2) := by
  unfold State.groupRead
  split
  · exact kept_of_same (by simp) (by simp) (by simp)
  · exact ⟨by simp, by simp, fun h => by simp [h]⟩

@[simp] theorem State.groupRead_frame (s : State) (g a n : Nat) : ((s.groupRead g a n).2.2).pending = s.pending ∧ ((s.groupRead g a n).2.2).fuses = s.fuses :=
  ⟨(State.groupRead_kept s g a n).1, (State.groupRead_kept s g a n).2.1⟩

@[simp] theorem State.groupRead_wf (s : State) (g a n : Nat) (hm : Memory.wf s.mem = true) : Memory.wf ((s.groupRead g a n).2.2).mem = true := (State.groupRead_kept s g a n).2.2 hm

theorem State.groupWrite_kept (s : State) (g a : Nat) (bs : List Byte) : Kept s (s.groupWrite g a bs) := by
  unfold State.groupWrite
  split
  · exact kept_of_same (by simp) (by simp) (by simp)
  · exact ⟨by simp, by simp, fun h => by simp [h]⟩

@[simp] theorem State.groupWrite_frame (s : State) (g a : Nat) (bs : List Byte) : (s.groupWrite g a bs).pending = s.pending ∧ (s.groupWrite g a bs).fuses = s.fuses :=
  ⟨(State.groupWrite_kept s g a bs).1, (State.groupWrite_kept s g a bs).2.1⟩

@[simp] theorem State.groupWrite_wf (s : State) (g a : Nat) (bs : List Byte) (hm : Memory.wf s.mem = true) : Memory.wf (s.groupWrite g a bs).mem = true := (State.groupWrite_kept s g a bs).2.2 hm

@[simp] theorem State.startStore_frame (s : State) (c : Nat) : (State.startStore s c).pending = s.pending ∧
    (State.startStore s c).mem = s.mem ∧ (State.startStore s c).fuses = s.fuses := by
  unfold State.startStore
  dsimp only
  (repeat' split)
  all_goals (simp [*])

@[simp] theorem State.dropCmds_frame (s : State) (c : Nat) : (State.dropCmds s c).pending = s.pending ∧
    (State.dropCmds s c).mem = s.mem ∧ (State.dropCmds s c).fuses = s.fuses := by
  simp [State.dropCmds]

@[simp] theorem State.setRing_frame (s : State) (g n : Nat) (r : RingCtx) :
    (State.setRing s g n r).pending = s.pending ∧ (State.setRing s g n r).mem = s.mem ∧
    (State.setRing s g n r).fuses = s.fuses := by
  simp [State.setRing]

@[simp] theorem State.dropRing_frame (s : State) (g n : Nat) : (State.dropRing s g n).pending = s.pending ∧
    (State.dropRing s g n).mem = s.mem ∧ (State.dropRing s g n).fuses = s.fuses := by
  simp [State.dropRing]

@[simp] theorem State.writeCtx_frame (s : State) (g n : Nat) (r : RingCtx) (o k : Nat) :
    (State.writeCtx s g n r o k).pending = s.pending ∧ (State.writeCtx s g n r o k).fuses = s.fuses := by
  simp [State.writeCtx]

@[simp] theorem State.writeCtx_wf (s : State) (g n : Nat) (r : RingCtx) (o k : Nat) (hm : Memory.wf s.mem = true) :
    Memory.wf (State.writeCtx s g n r o k).mem = true := by
  simp [State.writeCtx, *]

@[simp] theorem State.badBell_frame (s : State) (g n i : Nat) : (State.badBell s g n i).pending = s.pending ∧
    (State.badBell s g n i).mem = s.mem ∧ (State.badBell s g n i).fuses = s.fuses := by
  simp [State.badBell]

theorem State.makeRoom_frame (s : State) (g : Nat) : ∀ t, State.makeRoom s g = some t → t.pending = s.pending ∧
    t.fuses = s.fuses := by
  unfold State.makeRoom
  dsimp only
  (repeat' split)
  all_goals (simp [*])

theorem State.makeRoom_wf (s : State) (g : Nat) (hm : Memory.wf s.mem = true) :
    ∀ t, State.makeRoom s g = some t → Memory.wf t.mem = true := by
  unfold State.makeRoom
  dsimp only
  (repeat' split)
  all_goals (simp [*])

@[simp] theorem State.chanFlag_frame (s : State) (c i : Nat) : (State.chanFlag s c i).pending = s.pending ∧
    (State.chanFlag s c i).mem = s.mem ∧ (State.chanFlag s c i).fuses = s.fuses := by
  simp [State.chanFlag]

@[simp] theorem State.endEntry_frame (s : State) (g n code : Nat) :
    (State.endEntry s g n code).pending = s.pending ∧ (State.endEntry s g n code).fuses = s.fuses := by
  simp [State.endEntry]

@[simp] theorem State.endEntry_wf (s : State) (g n code : Nat) (hm : Memory.wf s.mem = true) :
    Memory.wf (State.endEntry s g n code).mem = true := by
  simp [State.endEntry, *]

@[simp] theorem State.statusRecord_frame (s : State) (c code : Nat) :
    (State.statusRecord s c code).pending = s.pending ∧ (State.statusRecord s c code).fuses = s.fuses := by
  simp [State.statusRecord]

@[simp] theorem State.statusRecord_wf (s : State) (c code : Nat) (hm : Memory.wf s.mem = true) :
    Memory.wf (State.statusRecord s c code).mem = true := by
  unfold State.statusRecord
  dsimp only
  (repeat' split)
  all_goals (simp [*])

@[simp] theorem State.stopChan_frame (s : State) (c code written : Nat) :
    (State.stopChan s c code written).pending = s.pending ∧ (State.stopChan s c code written).fuses = s.fuses := by
  unfold State.stopChan
  dsimp only
  (repeat' split)
  all_goals (simp [*])

@[simp] theorem State.stopChan_wf (s : State) (c code written : Nat) (hm : Memory.wf s.mem = true) :
    Memory.wf (State.stopChan s c code written).mem = true := by
  unfold State.stopChan
  dsimp only
  (repeat' split)
  all_goals (simp [*])

theorem State.beginDesc_kept (s : State) (c a : Nat) (ring : Option (Nat × Nat)) : Kept s (s.beginDesc c a ring) := by
  unfold State.beginDesc
  extract_lets g v0 v ok inside
  generalize hq : (if ok = true then s.groupRead g a 32 else (List.replicate 32 0, false, s)) = q
  have h0 : Kept s q.2.2 := by
    subst hq; split
    · exact State.groupRead_kept ..
    · exact kept_self s
  obtain ⟨bs, ue, u⟩ := q
  dsimp only at h0 ⊢
  refine h0.trans ?_
  (repeat' split) <;> exact ⟨by simp, by simp, fun h => by simp [h]⟩

@[simp] theorem State.beginDesc_frame (s : State) (c a : Nat) (ring : Option (Nat × Nat)) : (s.beginDesc c a ring).pending = s.pending ∧ (s.beginDesc c a ring).fuses = s.fuses :=
  ⟨(State.beginDesc_kept s c a ring).1, (State.beginDesc_kept s c a ring).2.1⟩

@[simp] theorem State.beginDesc_wf (s : State) (c a : Nat) (ring : Option (Nat × Nat)) (hm :
    Memory.wf s.mem = true) : Memory.wf (State.beginDesc s c a ring).mem = true := by
  unfold State.beginDesc
  dsimp only
  (repeat' split)
  all_goals (simp [*])

@[simp] theorem State.serve_frame (s : State) (c : Nat) : (State.serve s c).pending = s.pending ∧
    (State.serve s c).fuses = s.fuses := by
  unfold State.serve
  (repeat' split)
  all_goals (simp)

@[simp] theorem State.serve_wf (s : State) (c : Nat) (hm : Memory.wf s.mem = true) :
    Memory.wf (State.serve s c).mem = true := by
  unfold State.serve
  dsimp only
  (repeat' split)
  all_goals (simp [*])

@[simp] theorem State.bell_frame (s : State) (g n add : Nat) : (State.bell s g n add).pending = s.pending ∧
    (State.bell s g n add).fuses = s.fuses := by
  change State.near s _
  unfold State.bell
  dsimp only
  generalize (if add = 0 then 1 else add) = m
  generalize (s.ringsOf g).any (fun e => e.1 == n) = b
  split
  · simp [State.near]
  · cases b <;> simp only [Bool.false_eq_true, if_false, if_true]
    · split
      · simp [State.near]
      · split
        · simp [State.near]
        · rename_i t ht
          have := State.makeRoom_frame _ _ _ ht
          simp at this
          simp [this, State.near]
    · split <;> simp [State.near]

@[simp] theorem State.bell_wf (s : State) (g n add : Nat) (hm : Memory.wf s.mem = true) :
    Memory.wf (State.bell s g n add).mem = true := by
  change State.ok _
  unfold State.bell
  dsimp only
  generalize (if add = 0 then 1 else add) = m
  generalize (s.ringsOf g).any (fun e => e.1 == n) = b
  split
  · simp [hm, State.ok]
  · cases b <;> simp only [Bool.false_eq_true, if_false, if_true]
    · split
      · simp [hm, State.ok]
      · split
        · simp [hm, State.ok]
        · rename_i t ht
          have := State.makeRoom_wf _ _ (by simp [hm]) _ ht
          simp [this, State.ok]
    · split <;> simp [hm, State.ok]

@[simp] theorem State.grpSync_frame (s : State) (g n : Nat) : (State.grpSync s g n).pending = s.pending ∧
    (State.grpSync s g n).mem = s.mem ∧ (State.grpSync s g n).fuses = s.fuses := by
  unfold State.grpSync
  (repeat' split)
  all_goals (simp)

@[simp] theorem State.startChan_frame (s : State) (c : Nat) : (State.startChan s c).pending = s.pending ∧
    (State.startChan s c).fuses = s.fuses := by
  simp [State.startChan]

@[simp] theorem State.startChan_wf (s : State) (c : Nat) (hm : Memory.wf s.mem = true) :
    Memory.wf (State.startChan s c).mem = true := by
  unfold State.startChan
  dsimp only
  (repeat' split)
  all_goals (simp [*])

@[simp] theorem State.writeChanCtrl_frame (s : State) (c : Nat) (w : Word) :
    (State.writeChanCtrl s c w).pending = s.pending ∧ (State.writeChanCtrl s c w).mem = s.mem ∧
    (State.writeChanCtrl s c w).fuses = s.fuses := by
  simp [State.writeChanCtrl]

@[simp] theorem State.resetVine_frame (s : State) (i : Nat) : (State.resetVine s i).pending = s.pending ∧
    (State.resetVine s i).mem = s.mem ∧ (State.resetVine s i).fuses = s.fuses := by
  simp [State.resetVine]

theorem State.vineWrite_frame (s : State) (i : Initiator) (may : Bool) (a : Nat) (f : State → State)
    (hf : (f s).pending = s.pending ∧ (f s).fuses = s.fuses) :
    (s.vineWrite i may a f).pending = s.pending ∧ (s.vineWrite i may a f).fuses = s.fuses := by
  unfold State.vineWrite
  (repeat' split) <;> simp [hf]

theorem State.vineWrite_wf (s : State) (i : Initiator) (may : Bool) (a : Nat) (f : State → State)
    (hm : Memory.wf s.mem = true) (hf : Memory.wf (f s).mem = true) : Memory.wf (s.vineWrite i may a f).mem = true := by
  unfold State.vineWrite
  (repeat' split) <;> simp [hm, hf]

@[simp] theorem State.ldgKick_frame (s : State) : (State.ldgKick s).pending = s.pending ∧
    (State.ldgKick s).mem = s.mem ∧ (State.ldgKick s).fuses = s.fuses := by
  simp [State.ldgKick]

@[simp] theorem State.pfwCheck_frame (s : State) : (State.pfwCheck s).pending = s.pending ∧
    (State.pfwCheck s).mem = s.mem ∧ (State.pfwCheck s).fuses = s.fuses := by
  simp [State.pfwCheck]

@[simp] theorem State.modeFlush_frame (s : State) : (State.modeFlush s).pending = s.pending ∧
    (State.modeFlush s).mem = s.mem ∧ (State.modeFlush s).fuses = s.fuses := by
  simp [State.modeFlush]

@[simp] theorem State.loadGo_frame (s : State) : (s.loadGo).pending = s.pending ∧ (s.loadGo).mem = s.mem ∧
    (s.loadGo).fuses = s.fuses := by
  unfold State.loadGo
  split
  · exact ⟨rfl, rfl, rfl⟩
  · dsimp only; split <;> simp

@[simp] theorem State.dropReads_frame (s : State) : (s.dropReads).pending = s.pending ∧ (s.dropReads).mem = s.mem ∧
    (s.dropReads).fuses = s.fuses := by
  exact ⟨rfl, rfl, rfl⟩

@[simp] theorem State.askReads_frame (s : State) (runs : List (Nat × Nat)) : (s.askReads runs).pending = s.pending ∧ (s.askReads runs).mem = s.mem ∧
    (s.askReads runs).fuses = s.fuses := by
  simp [State.askReads]

@[simp] theorem State.dropSynced_frame (s : State) : (s.dropSynced).pending = s.pending ∧ (s.dropSynced).mem = s.mem ∧
    (s.dropSynced).fuses = s.fuses := by
  unfold State.dropSynced
  have h := fun (l : List (Nat × RingCtx)) g t => foldl_keep (fun (s : State) (e : Nat × RingCtx) => s.dropRing g e.1) (fun s a => by simp) l t
  exact foldl_keep _ (fun s g => h _ _ _) _ _

@[simp] theorem State.storeGo_frame (s : State) : (State.storeGo s).pending = s.pending ∧
    (State.storeGo s).mem = s.mem ∧ (State.storeGo s).fuses = s.fuses := by
  simp [State.storeGo]

@[simp] theorem State.ldgSubmit_frame (s : State) (g len : Nat) : (State.ldgSubmit s g len).pending = s.pending ∧
    (State.ldgSubmit s g len).mem = s.mem ∧ (State.ldgSubmit s g len).fuses = s.fuses := by
  simp [State.ldgSubmit]

@[simp] theorem State.ldgAck_frame (s : State) : (State.ldgAck s).pending = s.pending ∧
    (State.ldgAck s).mem = s.mem ∧ (State.ldgAck s).fuses = s.fuses := by
  unfold State.ldgAck
  have := foldl_keep (fun (s : State) (r : LedgerRec) => s.modDreg (ldgReg r.src 0x104) fun w => setBit w 3 true) (fun s a => by simp) (s.store.recs.take s.store.inBlock) s
  simpa using this

@[simp] theorem State.ldgRetry_frame (s : State) (d : Nat) (x : NvmeCmd) :
    (State.ldgRetry s d x).pending = s.pending ∧ (State.ldgRetry s d x).mem = s.mem ∧
    (State.ldgRetry s d x).fuses = s.fuses := by
  simp [State.ldgRetry]

@[simp] theorem State.nvmeFailed_frame (s : State) (d : Nat) (status : BitVec 16) :
    (State.nvmeFailed s d status).pending = s.pending ∧ (State.nvmeFailed s d status).mem = s.mem ∧
    (State.nvmeFailed s d status).fuses = s.fuses := by
  simp [State.nvmeFailed]

@[simp] theorem State.driveState_frame (s : State) (d k : Nat) : (State.driveState s d k).pending = s.pending ∧
    (State.driveState s d k).mem = s.mem ∧ (State.driveState s d k).fuses = s.fuses := by
  simp [State.driveState]

@[simp] theorem State.pfwAssert_frame (s : State) : (State.pfwAssert s).pending = s.pending ∧
    (State.pfwAssert s).mem = s.mem ∧ (State.pfwAssert s).fuses = s.fuses := by
  simp [State.pfwAssert]

@[simp] theorem State.pfwRelease_frame (s : State) : (State.pfwRelease s).pending = s.pending ∧
    (State.pfwRelease s).mem = s.mem ∧ (State.pfwRelease s).fuses = s.fuses := by
  simp [State.pfwRelease]

/-! ### Operations of Machine/SoundRun.lean -/

@[simp] theorem State.ringVoices_frame (st : State) (s : Nat) : (State.ringVoices st s).pending = st.pending ∧
    (State.ringVoices st s).fuses = st.fuses := by
  simp [State.ringVoices]

@[simp] theorem State.ringVoices_wf (st : State) (s : Nat) (hm : Memory.wf st.mem = true) :
    Memory.wf (State.ringVoices st s).mem = true := by
  unfold State.ringVoices
  (repeat' split)
  all_goals (simp_all)

/-! ### Operations of Machine/StageRead.lean -/

@[simp] theorem State.stageRead_frame (s : State) (i o : Nat) : (State.stageRead s i o).2.pending = s.pending ∧
    (State.stageRead s i o).2.mem = s.mem ∧ (State.stageRead s i o).2.fuses = s.fuses := by
  unfold State.stageRead
  dsimp only
  (repeat' split)
  all_goals (simp [State.draw, *])

@[simp] theorem State.noteUnbound_frame (s : State) (as : List Nat) : (s.noteUnbound as).pending = s.pending ∧ (s.noteUnbound as).mem = s.mem ∧
    (s.noteUnbound as).fuses = s.fuses := by
  unfold State.noteUnbound
  exact foldl_keep _ (fun s a => by split <;> simp) _ _

/-! ### Operations of Machine/Press.lean -/

@[simp] theorem State.pressStart_frame (s : State) (i : Nat) : (State.pressStart s i).pending = s.pending ∧
    (State.pressStart s i).mem = s.mem ∧ (State.pressStart s i).fuses = s.fuses := by
  simp [State.pressStart]

/-! ### Operations of Machine/StageBus.lean -/

@[simp] theorem State.writeIdent_frame (s : State) (ini : Initiator) (i o : Nat) (row : RegRow) (v mask : Word) :
    (State.writeIdent s ini i o row v mask).pending = s.pending ∧
    (State.writeIdent s ini i o row v mask).mem = s.mem ∧
    (State.writeIdent s ini i o row v mask).fuses = s.fuses := by
  unfold State.writeIdent
  (repeat' split)
  all_goals (simp)

@[simp] theorem State.writeChord_frame (s : State) (i q : Nat) (row : RegRow) (v mask : Word) :
    (State.writeChord s i q row v mask).pending = s.pending ∧ (State.writeChord s i q row v mask).mem = s.mem ∧
    (State.writeChord s i q row v mask).fuses = s.fuses := by
  simp [State.writeChord]

@[simp] theorem State.writePress_frame (s : State) (abort : State → Nat → State) (i q : Nat) (row : RegRow) (v mask : Word)
    (ha : ∀ t j, (abort t j).pending = t.pending ∧ (abort t j).fuses = t.fuses) :
    (s.writePress abort i q row v mask).pending = s.pending ∧ (s.writePress abort i q row v mask).fuses = s.fuses := by
  change State.near s _
  unfold State.writePress
  (try dsimp only)
  (repeat' split) <;> simp [State.near, ha]

theorem State.writePress_wf (s : State) (abort : State → Nat → State) (i q : Nat) (row : RegRow) (v mask : Word)
    (hm : Memory.wf s.mem = true)
    (ha : ∀ t j, Memory.wf t.mem = true → Memory.wf (abort t j).mem = true) :
    Memory.wf (s.writePress abort i q row v mask).mem = true := by
  change State.ok _
  
  unfold State.writePress
  (try dsimp only)
  (repeat' split) <;> simp [State.ok, hm, ha]

@[simp] theorem State.writeReg_frame (s : State) (abort : State → Nat → State) (ini : Initiator) (i o : Nat) (v mask : Word)
    (ha : ∀ t j, (abort t j).pending = t.pending ∧ (abort t j).fuses = t.fuses) :
    (s.writeReg abort ini i o v mask).pending = s.pending ∧ (s.writeReg abort ini i o v mask).fuses = s.fuses := by
  change State.near s _
  unfold State.writeReg
  (try dsimp only)
  (repeat' split) <;> simp [State.near, ha]

theorem State.writeReg_wf (s : State) (abort : State → Nat → State) (ini : Initiator) (i o : Nat) (v mask : Word)
    (hm : Memory.wf s.mem = true)
    (ha : ∀ t j, Memory.wf t.mem = true → Memory.wf (abort t j).mem = true) :
    Memory.wf (s.writeReg abort ini i o v mask).mem = true := by
  change State.ok _
  have h1 := fun s i q row v mask hm => State.writePress_wf s abort i q row v mask hm ha
  unfold State.writeReg
  (try dsimp only)
  (repeat' split) <;> simp [State.ok, hm, h1]

@[simp] theorem State.mirror_frame (s : State) (i b o : Nat) : (State.mirror s i b o).pending = s.pending ∧
    (State.mirror s i b o).mem = s.mem ∧ (State.mirror s i b o).fuses = s.fuses := by
  simp [State.mirror]

@[simp] theorem State.applyWrite_frame (s : State) (abort : State → Nat → State) (ini : Initiator) (i o : Nat) (v mask : Word)
    (ha : ∀ t j, (abort t j).pending = t.pending ∧ (abort t j).fuses = t.fuses) :
    (s.applyWrite abort ini i o v mask).pending = s.pending ∧ (s.applyWrite abort ini i o v mask).fuses = s.fuses := by
  change State.near s _
  unfold State.applyWrite
  (try dsimp only)
  (repeat' split) <;> simp [State.near, ha]

theorem State.applyWrite_wf (s : State) (abort : State → Nat → State) (ini : Initiator) (i o : Nat) (v mask : Word)
    (hm : Memory.wf s.mem = true)
    (ha : ∀ t j, Memory.wf t.mem = true → Memory.wf (abort t j).mem = true) :
    Memory.wf (s.applyWrite abort ini i o v mask).mem = true := by
  change State.ok _
  have h1 := fun s ini i o v mask hm => State.writeReg_wf s abort ini i o v mask hm ha
  unfold State.applyWrite
  (try dsimp only)
  (repeat' split) <;> simp [State.ok, hm, h1]

@[simp] theorem State.stageWriteWith_frame (s : State) (abort : State → Nat → State) (ini : Initiator) (i o : Nat) (v mask : Word)
    (ha : ∀ t j, (abort t j).pending = t.pending ∧ (abort t j).fuses = t.fuses) :
    (s.stageWriteWith abort ini i o v mask).pending = s.pending ∧ (s.stageWriteWith abort ini i o v mask).fuses = s.fuses := by
  change State.near s _
  unfold State.stageWriteWith
  (try dsimp only)
  (repeat' split) <;> simp [State.near, ha]

theorem State.stageWriteWith_wf (s : State) (abort : State → Nat → State) (ini : Initiator) (i o : Nat) (v mask : Word)
    (hm : Memory.wf s.mem = true)
    (ha : ∀ t j, Memory.wf t.mem = true → Memory.wf (abort t j).mem = true) :
    Memory.wf (s.stageWriteWith abort ini i o v mask).mem = true := by
  change State.ok _
  have h1 := fun s ini i o v mask hm => State.applyWrite_wf s abort ini i o v mask hm ha
  unfold State.stageWriteWith
  (try dsimp only)
  (repeat' split) <;> simp [State.ok, hm, h1]

@[simp] theorem State.pressCut_frame (s : State) (i : Nat) : (State.pressCut s i).pending = s.pending ∧
    (State.pressCut s i).mem = s.mem ∧ (State.pressCut s i).fuses = s.fuses := by
  simp [State.pressCut]

theorem State.pressPut_kept (s : State) (i : Nat) (drop : List Nat) (a sub b v : Nat) : Kept s (s.pressPut i drop a sub b v) := by
  unfold State.pressPut
  split
  · exact ⟨(State.stageWriteWith_frame _ _ _ _ _ _ _ (fun t j => by simp)).1,
      (State.stageWriteWith_frame _ _ _ _ _ _ _ (fun t j => by simp)).2,
      fun hm => State.stageWriteWith_wf _ _ _ _ _ _ _ hm (fun t j h => by simp [h])⟩
  · dsimp only
    (repeat' split) <;> exact ⟨by simp, by simp, fun h => by simp [h]⟩

@[simp] theorem State.pressPut_frame (s : State) (i : Nat) (drop : List Nat) (a sub b v : Nat) : (s.pressPut i drop a sub b v).pending = s.pending ∧ (s.pressPut i drop a sub b v).fuses = s.fuses :=
  ⟨(State.pressPut_kept s i drop a sub b v).1, (State.pressPut_kept s i drop a sub b v).2.1⟩

@[simp] theorem State.pressPut_wf (s : State) (i : Nat) (drop : List Nat) (a sub b v : Nat) (hm : Memory.wf s.mem = true) : Memory.wf (s.pressPut i drop a sub b v).mem = true := (State.pressPut_kept s i drop a sub b v).2.2 hm

theorem State.pressPixels_kept (s s0 : State) (i : Nat) (p : Press) (fv : Nat) (drop : List Nat) (y : Nat) (xs : List Nat) : Kept s ((s.pressPixels s0 i p fv drop y xs).1) := by
  induction xs generalizing s with
  | nil => exact kept_self s
  | cons x r ih =>
    unfold State.pressPixels; dsimp only
    split
    · exact kept_self s
    · split
      · exact ih s
      · split
        · exact kept_self s
        · rename_i v _ _
          have h := State.pressPut_kept s i drop (p.dstAt x y).1 (p.dstAt x y).2 p.bits v
          generalize s.pressPut i drop (p.dstAt x y).1 (p.dstAt x y).2 p.bits v = u at h ⊢
          refine (h.trans ?_).trans (ih _)
          split
          · exact kept_self _
          · exact kept_of_same (by simp) (by simp) (by simp)

@[simp] theorem State.pressPixels_frame (s s0 : State) (i : Nat) (p : Press) (fv : Nat) (drop : List Nat) (y : Nat) (xs : List Nat) : ((s.pressPixels s0 i p fv drop y xs).1).pending = s.pending ∧ ((s.pressPixels s0 i p fv drop y xs).1).fuses = s.fuses :=
  ⟨(State.pressPixels_kept s s0 i p fv drop y xs).1, (State.pressPixels_kept s s0 i p fv drop y xs).2.1⟩

@[simp] theorem State.pressPixels_wf (s s0 : State) (i : Nat) (p : Press) (fv : Nat) (drop : List Nat) (y : Nat) (xs : List Nat) (hm : Memory.wf s.mem = true) : Memory.wf ((s.pressPixels s0 i p fv drop y xs).1).mem = true := (State.pressPixels_kept s s0 i p fv drop y xs).2.2 hm

theorem State.pressPattern_kept (s : State) (i : Nat) : Kept s (s.pressPattern i) := by
  unfold State.pressPattern
  dsimp only
  split
  · exact kept_self s
  · split
    · exact kept_of_same (by simp) (by simp) (by simp)
    · generalize hq : (if inWindow (s.stage i).press.src = true then ([], s) else _) = q
      have h0 : Kept s q.2 := by
        subst hq; split
        · exact kept_self s
        · exact ⟨by simp, by simp, fun h => by simp [h]⟩
      obtain ⟨bad, u⟩ := q
      dsimp only at h0 ⊢
      refine h0.trans ?_
      split <;> exact kept_of_same (by simp) (by simp) (by simp)

@[simp] theorem State.pressPattern_frame (s : State) (i : Nat) : (s.pressPattern i).pending = s.pending ∧ (s.pressPattern i).fuses = s.fuses :=
  ⟨(State.pressPattern_kept s i).1, (State.pressPattern_kept s i).2.1⟩

@[simp] theorem State.pressPattern_wf (s : State) (i : Nat) (hm : Memory.wf s.mem = true) : Memory.wf (s.pressPattern i).mem = true := (State.pressPattern_kept s i).2.2 hm

theorem State.pressSome_kept (s : State) (i : Nat) (xs : List Nat) : Kept s ((s.pressSome i xs).1) := by
  unfold State.pressSome
  extract_lets p y rd0
  generalize hq : (if p.loose = true then s.draw else (0, s)) = q
  have h0 : Kept s q.2 := by subst hq; split <;> exact ⟨rfl, rfl, id⟩
  obtain ⟨fv, u⟩ := q
  dsimp only at h0 ⊢
  refine h0.trans ?_
  clear h0 hq
  generalize hq : u.readRanges _ = q
  have h0 : Kept u q.2 := by subst hq; exact ⟨by simp, by simp, fun h => by simp [h]⟩
  obtain ⟨bad, v⟩ := q
  dsimp only at h0 ⊢
  refine h0.trans ?_
  generalize (if p.reads = true then _ else xs) = ys
  clear h0 hq
  generalize hv : v.noteUnbound _ = w
  have h0 : Kept v w := by subst hv; exact kept_of_same (by simp) (by simp) (by simp)
  refine h0.trans ?_
  clear h0 hv
  generalize hq : w.openRanges _ _ = q
  have h0 : Kept w q.2 := by subst hq; exact ⟨by simp, by simp, fun h => by simp [h]⟩
  obtain ⟨drop, z⟩ := q
  dsimp only at h0 ⊢
  refine h0.trans ?_
  have h1 := State.pressPixels_kept z z i p fv drop y ys
  generalize z.pressPixels z i p fv drop y ys = q at h1 ⊢
  obtain ⟨z', e⟩ := q
  cases e with
  | none => dsimp only at h1 ⊢; split <;> exact h1.trans (kept_of_same (by simp) (by simp) (by simp))
  | some e => dsimp only at h1 ⊢; exact h1.trans (kept_of_same (by simp) (by simp) (by simp))

@[simp] theorem State.pressSome_frame (s : State) (i : Nat) (xs : List Nat) : ((s.pressSome i xs).1).pending = s.pending ∧ ((s.pressSome i xs).1).fuses = s.fuses :=
  ⟨(State.pressSome_kept s i xs).1, (State.pressSome_kept s i xs).2.1⟩

@[simp] theorem State.pressSome_wf (s : State) (i : Nat) (xs : List Nat) (hm : Memory.wf s.mem = true) : Memory.wf ((s.pressSome i xs).1).mem = true := (State.pressSome_kept s i xs).2.2 hm

theorem State.pressPart_kept (s : State) (i k : Nat) : Kept s (s.pressPart i k) := by
  unfold State.pressPart
  have h1 : Kept s (if k = 0 then s else s.pressPattern i) := ite_kept _ (kept_self _) (State.pressPattern_kept ..)
  refine h1.trans ?_
  generalize (if k = 0 then s else s.pressPattern i) = t
  dsimp only
  generalize ((t.stage i).press.order.take k) = xs
  generalize hq : (if (t.stage i).press.busy = true then t.pressSome i xs else (t, false)) = q
  have h2 : Kept t q.1 := by
    subst hq; split
    · exact State.pressSome_kept t i xs
    · exact kept_self _
  obtain ⟨u, ok⟩ := q
  refine h2.trans ?_
  dsimp only
  split
  · exact kept_of_same (by simp) (by simp) (by simp)
  · exact kept_self _

@[simp] theorem State.pressPart_frame (s : State) (i k : Nat) : (s.pressPart i k).pending = s.pending ∧ (s.pressPart i k).fuses = s.fuses :=
  ⟨(State.pressPart_kept s i k).1, (State.pressPart_kept s i k).2.1⟩

@[simp] theorem State.pressPart_wf (s : State) (i k : Nat) (hm : Memory.wf s.mem = true) : Memory.wf (s.pressPart i k).mem = true := (State.pressPart_kept s i k).2.2 hm


theorem State.pressAbort_kept (s : State) (i : Nat) : Kept s (s.pressAbort i) := by
  unfold State.pressAbort
  dsimp only
  split
  · exact kept_self s
  · split
    · exact kept_of_same (by simp) (by simp) (by simp)
    · have h0 : Kept s s.draw.2 := kept_self _
      exact h0.trans (State.pressPart_kept ..)

@[simp] theorem State.pressAbort_frame (s : State) (i : Nat) : (s.pressAbort i).pending = s.pending ∧ (s.pressAbort i).fuses = s.fuses :=
  ⟨(State.pressAbort_kept s i).1, (State.pressAbort_kept s i).2.1⟩

@[simp] theorem State.pressAbort_wf (s : State) (i : Nat) (hm : Memory.wf s.mem = true) :
    Memory.wf (State.pressAbort s i).mem = true := by
  unfold State.pressAbort
  dsimp only
  (repeat' split)
  all_goals (simp [State.draw, *])

@[simp] theorem State.stageWrite_frame (s : State) (ini : Initiator) (i o : Nat) (v mask : Word) :
    (State.stageWrite s ini i o v mask).pending = s.pending ∧
    (State.stageWrite s ini i o v mask).fuses = s.fuses := by
  simp [State.stageWrite]

@[simp] theorem State.stageWrite_wf (s : State) (ini : Initiator) (i o : Nat) (v mask : Word) (hm :
    Memory.wf s.mem = true) : Memory.wf (State.stageWrite s ini i o v mask).mem = true := by
  exact State.stageWriteWith_wf _ _ _ _ _ _ _ hm (fun t j h => State.pressAbort_wf t j h)

theorem State.pressRow_kept (s : State) (i : Nat) (ue : Bool) : Kept s (s.pressRow i ue) := by
  unfold State.pressRow
  extract_lets p
  generalize hq : (if ue = true then s.draw else (0, s)) = q
  have h0 : Kept s q.2 := by subst hq; split <;> exact ⟨rfl, rfl, id⟩
  obtain ⟨fv, t⟩ := q
  dsimp only at h0 ⊢
  refine h0.trans ?_
  have h1 : Kept t (if ue = true then t.upset (p.ueAt (Config.progress fv % p.w)) 3 else t) :=
    ite_kept _ (kept_of_same (by simp) (by simp) (by simp)) (kept_self _)
  refine h1.trans ?_
  generalize (if ue = true then t.upset _ 3 else t) = t
  refine (State.pressPattern_kept t i).trans ?_
  generalize t.pressPattern i = t
  split
  · exact kept_self _
  · refine (State.pressSome_kept t i p.order).trans ?_
    split
    · exact kept_of_same (by simp) (by simp) (by simp)
    · exact kept_self _

@[simp] theorem State.pressRow_frame (s : State) (i : Nat) (ue : Bool) : (s.pressRow i ue).pending = s.pending ∧ (s.pressRow i ue).fuses = s.fuses :=
  ⟨(State.pressRow_kept s i ue).1, (State.pressRow_kept s i ue).2.1⟩

@[simp] theorem State.pressRow_wf (s : State) (i : Nat) (ue : Bool) (hm : Memory.wf s.mem = true) :
    Memory.wf (State.pressRow s i ue).mem = true := by
  unfold State.pressRow
  dsimp only
  (repeat' split)
  all_goals (simp [State.draw, *])

@[simp] theorem State.windowWrite_frame (s : State) (ini : Initiator) (i o : Nat) (v : Word) :
    (State.windowWrite s ini i o v).pending = s.pending ∧ (State.windowWrite s ini i o v).fuses = s.fuses := by
  simp [State.windowWrite]

@[simp] theorem State.windowWrite_wf (s : State) (ini : Initiator) (i o : Nat) (v : Word) (hm :
    Memory.wf s.mem = true) : Memory.wf (State.windowWrite s ini i o v).mem = true := by
  unfold State.windowWrite
  (repeat' split)
  all_goals (simp_all)

/-! ### Operations of Machine/VineRun.lean -/

@[simp] theorem State.vineBlocked_frame (s : State) (c a code : Nat) (write : Bool) :
    (State.vineBlocked s c a code write).pending = s.pending ∧ (State.vineBlocked s c a code write).mem = s.mem ∧
    (State.vineBlocked s c a code write).fuses = s.fuses := by
  simp [State.vineBlocked]

theorem State.gather_kept (s : State) (c : Nat) (d : List Word64) (n k : Nat) : Kept s ((s.gather c d n k).2.2.2) := by
  induction n generalizing s k with
  | zero => exact kept_self s
  | succ n ih =>
    unfold State.gather
    dsimp only
    split
    · exact kept_self s
    · split
      · exact kept_self s
      · split
        · refine Kept.trans ?_ (ih _ _)
          exact kept_of_same (by simp) (by simp) (by simp)
        · split
          · exact ⟨by simp, by simp, fun h => by simp [h]⟩
          · refine Kept.trans ?_ (ih _ _)
            exact ⟨by simp, by simp, fun h => by simp [h]⟩

@[simp] theorem State.gather_frame (s : State) (c : Nat) (d : List Word64) (n k : Nat) : ((s.gather c d n k).2.2.2).pending = s.pending ∧ ((s.gather c d n k).2.2.2).fuses = s.fuses :=
  ⟨(State.gather_kept s c d n k).1, (State.gather_kept s c d n k).2.1⟩

@[simp] theorem State.gather_wf (s : State) (c : Nat) (d : List Word64) (n k : Nat) (hm : Memory.wf s.mem = true) : Memory.wf ((s.gather c d n k).2.2.2).mem = true := (State.gather_kept s c d n k).2.2 hm

theorem State.scatter_kept (s : State) (c : Nat) (d : List Word64) (drop : List Nat) (n k : Nat) (bs : List Byte) : Kept s ((s.scatter c d drop n k bs).2.2.2) := by
  induction n generalizing s k bs with
  | zero => cases bs <;> exact kept_self s
  | succ n ih =>
    cases bs with
    | nil => exact kept_self s
    | cons b r =>
      unfold State.scatter
      dsimp only
      split
      · exact kept_self s
      · split
        · split
          · exact kept_self s
          · refine Kept.trans ?_ (ih _ _ _)
            exact ⟨by simp, by simp, fun h => by simp [h]⟩
        · split
          · exact ih _ _ _
          · refine Kept.trans ?_ (ih _ _ _)
            split <;> exact ⟨by simp, by simp, fun h => by simp [h]⟩

@[simp] theorem State.scatter_frame (s : State) (c : Nat) (d : List Word64) (drop : List Nat) (n k : Nat) (bs : List Byte) : ((s.scatter c d drop n k bs).2.2.2).pending = s.pending ∧ ((s.scatter c d drop n k bs).2.2.2).fuses = s.fuses :=
  ⟨(State.scatter_kept s c d drop n k bs).1, (State.scatter_kept s c d drop n k bs).2.1⟩

@[simp] theorem State.scatter_wf (s : State) (c : Nat) (d : List Word64) (drop : List Nat) (n k : Nat) (bs : List Byte) (hm : Memory.wf s.mem = true) : Memory.wf ((s.scatter c d drop n k bs).2.2.2).mem = true := (State.scatter_kept s c d drop n k bs).2.2 hm

theorem State.descData_kept (s : State) (c : Nat) (d : List Word64) (asset : List Byte) : Kept s ((s.descData c d asset).2.2.2) := by
  unfold State.descData
  dsimp only [State.draw]
  split
  · exact kept_self _
  · split
    · exact kept_self _
    · have h := State.gather_kept { s with nonce := s.nonce + 1 } c d (descTotal d) 0
      exact h

@[simp] theorem State.descData_frame (s : State) (c : Nat) (d : List Word64) (asset : List Byte) : ((s.descData c d asset).2.2.2).pending = s.pending ∧ ((s.descData c d asset).2.2.2).fuses = s.fuses :=
  ⟨(State.descData_kept s c d asset).1, (State.descData_kept s c d asset).2.1⟩

@[simp] theorem State.descData_wf (s : State) (c : Nat) (d : List Word64) (asset : List Byte) (hm : Memory.wf s.mem = true) : Memory.wf ((s.descData c d asset).2.2.2).mem = true := (State.descData_kept s c d asset).2.2 hm

theorem State.openDest_kept (s : State) (c : Nat) (d : List Word64) (n : Nat) : Kept s ((s.openDest c d n).2) := by
  unfold State.openDest
  split
  · exact kept_self s
  · exact ⟨by simp, by simp, fun h => by simp [h]⟩

@[simp] theorem State.openDest_frame (s : State) (c : Nat) (d : List Word64) (n : Nat) : ((s.openDest c d n).2).pending = s.pending ∧ ((s.openDest c d n).2).fuses = s.fuses :=
  ⟨(State.openDest_kept s c d n).1, (State.openDest_kept s c d n).2.1⟩

@[simp] theorem State.openDest_wf (s : State) (c : Nat) (d : List Word64) (n : Nat) (hm : Memory.wf s.mem = true) : Memory.wf ((s.openDest c d n).2).mem = true := (State.openDest_kept s c d n).2.2 hm

theorem State.transfer_kept (s : State) (c : Nat) (d : List Word64) (asset : List Byte) (limit : Nat) :
    Kept s ((s.transfer c d asset limit).2.2) := by
  unfold State.transfer
  split
  · exact kept_self s
  · have h := State.descData_kept s c d asset
    generalize s.descData c d asset = q at h ⊢
    obtain ⟨bs, e1, a1, t⟩ := q
    dsimp only at h ⊢
    refine h.trans ?_
    generalize bs.take limit = bs
    split
    · dsimp only
      split
      · exact kept_self _
      · exact kept_of_same (by simp) (by simp) (by simp)
    · have h := State.openDest_kept t c d bs.length
      generalize t.openDest c d bs.length = q at h ⊢
      obtain ⟨drop, u⟩ := q
      dsimp only at h ⊢
      refine h.trans ?_
      have h := State.scatter_kept u c d drop limit 0 bs
      generalize u.scatter c d drop limit 0 bs = q at h ⊢
      obtain ⟨n, e2, a2, v⟩ := q
      dsimp only at h ⊢
      refine h.trans ?_
      (repeat' split)
      · exact kept_of_same (by simp) (by simp) (by simp)
      · exact kept_of_same (by simp) (by simp) (by simp)
      · exact kept_self _

@[simp] theorem State.transfer_frame (s : State) (c : Nat) (d : List Word64) (asset : List Byte) (limit : Nat) : ((s.transfer c d asset limit).2.2).pending = s.pending ∧ ((s.transfer c d asset limit).2.2).fuses = s.fuses :=
  ⟨(State.transfer_kept s c d asset limit).1, (State.transfer_kept s c d asset limit).2.1⟩

@[simp] theorem State.transfer_wf (s : State) (c : Nat) (d : List Word64) (asset : List Byte) (limit : Nat) (hm : Memory.wf s.mem = true) : Memory.wf ((s.transfer c d asset limit).2.2).mem = true := (State.transfer_kept s c d asset limit).2.2 hm

@[simp] theorem State.finishDesc_frame (s : State) (c : Nat) : (State.finishDesc s c).pending = s.pending ∧
    (State.finishDesc s c).fuses = s.fuses := by
  unfold State.finishDesc
  dsimp only
  (repeat' split)
  all_goals (simp [*])

@[simp] theorem State.finishDesc_wf (s : State) (c : Nat) (hm : Memory.wf s.mem = true) :
    Memory.wf (State.finishDesc s c).mem = true := by
  unfold State.finishDesc
  extract_lets v d g own s1 s2 s3 s4 s5 direct v0 s6 s7
  have h1 : Memory.wf s1.mem = true := by simp only [s1]; simpa using hm
  have h2 : Memory.wf s2.mem = true := by simp only [s2]; split <;> simp [h1]
  have h3 : Memory.wf s3.mem = true := by simp only [s3]; split <;> simp [h2]
  have h4 : Memory.wf s4.mem = true := by simp only [s4]; split <;> simp [h3]
  have h5 : Memory.wf s5.mem = true := by simp only [s5]; split <;> simp [h4]
  have h6 : Memory.wf s6.mem = true := by simp only [s6]; split <;> simp [h5]
  have h7 : Memory.wf s7.mem = true := by simp only [s7]; split <;> simp [h6]
  simp [h7]

@[simp] theorem State.afterDesc_frame (s : State) (c : Nat) : (State.afterDesc s c).pending = s.pending ∧
    (State.afterDesc s c).fuses = s.fuses := by
  simp [State.afterDesc]

@[simp] theorem State.afterDesc_wf (s : State) (c : Nat) (hm : Memory.wf s.mem = true) :
    Memory.wf (State.afterDesc s c).mem = true := by
  unfold State.afterDesc
  dsimp only
  (repeat' split)
  all_goals (simp [*])

@[simp] theorem State.cutDesc_frame (s : State) (c code limit : Nat) :
    (State.cutDesc s c code limit).pending = s.pending ∧ (State.cutDesc s c code limit).fuses = s.fuses := by
  simp [State.cutDesc]

@[simp] theorem State.cutDesc_wf (s : State) (c code limit : Nat) (hm : Memory.wf s.mem = true) :
    Memory.wf (State.cutDesc s c code limit).mem = true := by
  simp [State.cutDesc, *]

theorem State.abortLast_kept (s : State) (c : Nat) : Kept s (s.abortLast c) := by
  unfold State.abortLast
  extract_lets v
  have h := State.transfer_kept s c v.desc [] (descTotal v.desc)
  generalize s.transfer c v.desc [] (descTotal v.desc) = q at h ⊢
  obtain ⟨n, code, t⟩ := q
  dsimp only at h ⊢
  refine h.trans ?_
  have h1 : Kept t (t.finishDesc c) := ⟨by simp, by simp, fun h => by simp [h]⟩
  split
  · exact ⟨by simp, by simp, fun h => State.stopChan_wf _ _ _ _ h⟩
  · refine h1.trans ?_
    generalize t.finishDesc c = u
    split
    · exact ⟨by simp, by simp, fun h => State.stopChan_wf _ _ _ _ (by simp [h])⟩
    · exact ⟨by simp, by simp, fun h => State.stopChan_wf _ _ _ _ h⟩

theorem State.abortChan_kept (s : State) (c : Nat) : Kept s (s.abortChan c) := by
  unfold State.abortChan
  extract_lets v
  split
  · exact kept_self s
  · split
    · exact ⟨by simp, by simp, fun h => State.stopChan_wf _ _ _ _ h⟩
    · have h0 : Kept s s.draw.2 := kept_self _
      refine h0.trans ?_
      generalize s.draw = q
      obtain ⟨fv, u⟩ := q
      dsimp only
      have h1 := fun k => show Kept u (u.cutDesc c 1 k) from ⟨by simp, by simp, fun h => State.cutDesc_wf _ _ _ _ h⟩
      have h2 := State.abortLast_kept u c
      generalize (if State.vineWaits u v.desc = true then 0 else _) = k
      (repeat' split) <;> first | exact h1 _ | exact h2

@[simp] theorem State.abortChan_frame (s : State) (c : Nat) : (s.abortChan c).pending = s.pending ∧
    (s.abortChan c).fuses = s.fuses := ⟨(State.abortChan_kept s c).1, (State.abortChan_kept s c).2.1⟩

@[simp] theorem State.abortChan_wf (s : State) (c : Nat) (hm : Memory.wf s.mem = true) :
    Memory.wf (s.abortChan c).mem = true := (State.abortChan_kept s c).2.2 hm

@[simp] theorem State.chanCmd_frame (s : State) (c : Nat) (v : Word) : (State.chanCmd s c v).pending = s.pending ∧
    (State.chanCmd s c v).fuses = s.fuses := by
  simp [State.chanCmd]

@[simp] theorem State.chanCmd_wf (s : State) (c : Nat) (v : Word) (hm : Memory.wf s.mem = true) :
    Memory.wf (State.chanCmd s c v).mem = true := by
  unfold State.chanCmd
  (repeat' split)
  all_goals (simp_all)

@[simp] theorem State.nvmeDone_frame (s : State) (d : Nat) (x : NvmeCmd) : (s.nvmeDone d x).pending = s.pending ∧
    (s.nvmeDone d x).mem = s.mem ∧ (s.nvmeDone d x).fuses = s.fuses := by
  cases x <;> (unfold State.nvmeDone; (repeat' split)) <;> simp

@[simp] theorem State.nvmeError_frame (s : State) (d : Nat) (x : NvmeCmd) :
    (State.nvmeError s d x).pending = s.pending ∧ (State.nvmeError s d x).fuses = s.fuses := by
  unfold State.nvmeError
  dsimp only
  (repeat' split)
  all_goals (simp [State.draw, *])

@[simp] theorem State.nvmeError_wf (s : State) (d : Nat) (x : NvmeCmd) (hm : Memory.wf s.mem = true) :
    Memory.wf (State.nvmeError s d x).mem = true := by
  unfold State.nvmeError
  dsimp only
  (repeat' split)
  all_goals (simp [State.draw, *])

theorem State.nvmeEnd_kept (s : State) (d idx : Nat) (status : BitVec 16) : Kept s (s.nvmeEnd d idx status) := by
  unfold State.nvmeEnd
  dsimp only
  split
  · exact kept_self s
  · exact ite_kept _ (kept_of_same (by simp) (by simp) (by simp)) ⟨by simp, by simp, fun h => by simp [h]⟩

@[simp] theorem State.nvmeEnd_frame (s : State) (d idx : Nat) (status : BitVec 16) : (s.nvmeEnd d idx status).pending = s.pending ∧ (s.nvmeEnd d idx status).fuses = s.fuses :=
  ⟨(State.nvmeEnd_kept s d idx status).1, (State.nvmeEnd_kept s d idx status).2.1⟩

@[simp] theorem State.nvmeEnd_wf (s : State) (d idx : Nat) (status : BitVec 16) (hm : Memory.wf s.mem = true) : Memory.wf (s.nvmeEnd d idx status).mem = true := (State.nvmeEnd_kept s d idx status).2.2 hm

/-! ### Operations of Machine/Links.lean -/

@[simp] theorem State.setSpk_frame (s : State) (b : Nat) (x : Spoke) : (State.setSpk s b x).pending = s.pending ∧
    (State.setSpk s b x).mem = s.mem ∧ (State.setSpk s b x).fuses = s.fuses := by
  simp [State.setSpk]

@[simp] theorem State.spkPoll_frame (s : State) (b gap : Nat) : (State.spkPoll s b gap).pending = s.pending ∧
    (State.spkPoll s b gap).mem = s.mem ∧ (State.spkPoll s b gap).fuses = s.fuses := by
  unfold State.spkPoll
  (repeat' split)
  all_goals (simp)

@[simp] theorem State.pollEvent_frame (s : State) (b : Nat) : (State.pollEvent s b).pending = s.pending ∧
    (State.pollEvent s b).mem = s.mem ∧ (State.pollEvent s b).fuses = s.fuses := by
  simp [State.pollEvent]

@[simp] theorem State.linePolls_frame (s : State) (i y : Nat) : (State.linePolls s i y).pending = s.pending ∧
    (State.linePolls s i y).mem = s.mem ∧ (State.linePolls s i y).fuses = s.fuses := by
  simp [State.linePolls]

@[simp] theorem State.spkKick_frame (s : State) (b gap : Nat) : (State.spkKick s b gap).pending = s.pending ∧
    (State.spkKick s b gap).mem = s.mem ∧ (State.spkKick s b gap).fuses = s.fuses := by
  simp [State.spkKick]

@[simp] theorem State.spkSend_frame (s : State) (b gap : Nat) (p : List Byte) : (State.spkSend s b gap p).pending = s.pending ∧
    (State.spkSend s b gap p).mem = s.mem ∧ (State.spkSend s b gap p).fuses = s.fuses := by
  simp [State.spkSend]

@[simp] theorem State.spkNext_frame (s : State) (b : Nat) : (State.spkNext s b).pending = s.pending ∧
    (State.spkNext s b).mem = s.mem ∧ (State.spkNext s b).fuses = s.fuses := by
  unfold State.spkNext
  split <;> simp

@[simp] theorem State.spkEnd_frame (s : State) (b : Nat) : (State.spkEnd s b).pending = s.pending ∧
    (State.spkEnd s b).mem = s.mem ∧ (State.spkEnd s b).fuses = s.fuses := by
  simp [State.spkEnd]

@[simp] theorem State.spkTime_frame (s : State) (was b : Nat) : (State.spkTime s was b).pending = s.pending ∧
    (State.spkTime s was b).mem = s.mem ∧ (State.spkTime s was b).fuses = s.fuses := by
  simp [State.spkTime]

@[simp] theorem State.putWords_frame (s : State) (a : Nat) (bs : List Byte) (n : Nat) :
    (State.putWords s a bs n).pending = s.pending ∧ (State.putWords s a bs n).mem = s.mem ∧
    (State.putWords s a bs n).fuses = s.fuses := by
  unfold State.putWords
  simp

@[simp] theorem State.sendBcast_frame (s : State) (b : Nat) (v : Word) :
    (State.sendBcast s b v).pending = s.pending ∧ (State.sendBcast s b v).mem = s.mem ∧
    (State.sendBcast s b v).fuses = s.fuses := by
  simp [State.sendBcast]

@[simp] theorem State.modUsb_frame (s : State) (p : Nat) (f : UsbPort → UsbPort) :
    (State.modUsb s p f).pending = s.pending ∧ (State.modUsb s p f).mem = s.mem ∧
    (State.modUsb s p f).fuses = s.fuses := by
  simp [State.modUsb]

@[simp] theorem State.setPipe_frame (s : State) (p i : Nat) (x : Pipe) :
    (State.setPipe s p i x).pending = s.pending ∧ (State.setPipe s p i x).mem = s.mem ∧
    (State.setPipe s p i x).fuses = s.fuses := by
  simp [State.setPipe]

@[simp] theorem State.setPe_frame (s : State) (p : Nat) (x : PePort) : (State.setPe s p x).pending = s.pending ∧
    (State.setPe s p x).mem = s.mem ∧ (State.setPe s p x).fuses = s.fuses := by
  simp [State.setPe]

@[simp] theorem State.driveLost_frame (s : State) (d : Nat) : (State.driveLost s d).pending = s.pending ∧
    (State.driveLost s d).fuses = s.fuses := by
  simp [State.driveLost]

@[simp] theorem State.driveLost_wf (s : State) (d : Nat) (hm : Memory.wf s.mem = true) :
    Memory.wf (State.driveLost s d).mem = true := by
  unfold State.driveLost
  (repeat' split)
  all_goals (simp_all)

@[simp] theorem State.setI2c_frame (s : State) (n : Nat) (x : Fifo) : (State.setI2c s n x).pending = s.pending ∧
    (State.setI2c s n x).mem = s.mem ∧ (State.setI2c s n x).fuses = s.fuses := by
  simp [State.setI2c]

@[simp] theorem State.uartLevels_frame (s : State) : (State.uartLevels s).pending = s.pending ∧
    (State.uartLevels s).mem = s.mem ∧ (State.uartLevels s).fuses = s.fuses := by
  simp [State.uartLevels]

@[simp] theorem State.modFlash_frame (s : State) (a n : Nat) (f : Nat → Byte → Byte) :
    (State.modFlash s a n f).pending = s.pending ∧ (State.modFlash s a n f).mem = s.mem ∧
    (State.modFlash s a n f).fuses = s.fuses := by
  simp [State.modFlash]

@[simp] theorem State.spiRun_frame (s : State) (data : List Byte) : (State.spiRun s data).pending = s.pending ∧
    (State.spiRun s data).mem = s.mem ∧ (State.spiRun s data).fuses = s.fuses := by
  have h := fun (l : List Nat) t (f : State → Nat → Word) => foldl_keep (fun (s : State) k =>
      s.setDreg (spiReg (0x100 + 4 * k)) (f s k)) (fun s i => by simp) l t
  change State.same s _
  unfold State.spiRun
  dsimp only
  (repeat' split) <;> first | exact h _ _ _ | simp [State.same]

/-! ### Operations of Machine/Frame.lean -/

/-- A fold over a state and what goes with it keeps what each round keeps. -/
theorem foldl_kept_fst {α β} (g : State × β → α → State × β) (h : ∀ q a, Kept q.1 (g q a).1) (l : List α) (q : State × β) :
    Kept q.1 (l.foldl g q).1 := by
  induction l generalizing q with
  | nil => exact kept_self _
  | cons a r ih => exact (h q a).trans (ih _)

theorem State.composeLayer_kept (s : State) (i : Nat) (m : Source) (t : Timing) (fv : Nat) (stopped : List (Nat × Nat × Nat)) (c : LineCtx) (l : Nat) : Kept s ((s.composeLayer i m t fv stopped c l).1) := by
  unfold State.composeLayer
  dsimp only
  exact ⟨by simp, by simp, fun h => by simp [h]⟩

@[simp] theorem State.composeLayer_frame (s : State) (i : Nat) (m : Source) (t : Timing) (fv : Nat) (stopped : List (Nat × Nat × Nat)) (c : LineCtx) (l : Nat) : ((s.composeLayer i m t fv stopped c l).1).pending = s.pending ∧ ((s.composeLayer i m t fv stopped c l).1).fuses = s.fuses :=
  ⟨(State.composeLayer_kept s i m t fv stopped c l).1, (State.composeLayer_kept s i m t fv stopped c l).2.1⟩

@[simp] theorem State.composeLayer_wf (s : State) (i : Nat) (m : Source) (t : Timing) (fv : Nat) (stopped : List (Nat × Nat × Nat)) (c : LineCtx) (l : Nat) (hm : Memory.wf s.mem = true) : Memory.wf ((s.composeLayer i m t fv stopped c l).1).mem = true := (State.composeLayer_kept s i m t fv stopped c l).2.2 hm

theorem State.drawPlane_kept (s : State) (i : Nat) (m : Source) (t : Timing) (fv : Nat) (c : LineCtx) (p : Nat) : Kept s ((s.drawPlane i m t fv c p).1) := by
  unfold State.drawPlane
  dsimp only
  exact ⟨by simp, by simp, fun h => by simp [h]⟩

@[simp] theorem State.drawPlane_frame (s : State) (i : Nat) (m : Source) (t : Timing) (fv : Nat) (c : LineCtx) (p : Nat) : ((s.drawPlane i m t fv c p).1).pending = s.pending ∧ ((s.drawPlane i m t fv c p).1).fuses = s.fuses :=
  ⟨(State.drawPlane_kept s i m t fv c p).1, (State.drawPlane_kept s i m t fv c p).2.1⟩

@[simp] theorem State.drawPlane_wf (s : State) (i : Nat) (m : Source) (t : Timing) (fv : Nat) (c : LineCtx) (p : Nat) (hm : Memory.wf s.mem = true) : Memory.wf ((s.drawPlane i m t fv c p).1).mem = true := (State.drawPlane_kept s i m t fv c p).2.2 hm

theorem State.readSpans_kept (s : State) (i : Nat) (m : Source) (c : LineCtx) : Kept s ((s.readSpans i m c).1) := by
  unfold State.readSpans
  exact foldl_kept_fst _ (fun q a => State.recordReads_kept ..) _ (s, c)

@[simp] theorem State.readSpans_frame (s : State) (i : Nat) (m : Source) (c : LineCtx) : ((s.readSpans i m c).1).pending = s.pending ∧ ((s.readSpans i m c).1).fuses = s.fuses :=
  ⟨(State.readSpans_kept s i m c).1, (State.readSpans_kept s i m c).2.1⟩

@[simp] theorem State.readSpans_wf (s : State) (i : Nat) (m : Source) (c : LineCtx) (hm : Memory.wf s.mem = true) : Memory.wf ((s.readSpans i m c).1).mem = true := (State.readSpans_kept s i m c).2.2 hm

theorem State.readConserved_kept (s : State) (i : Nat) (m : Source) (t : Timing) (c : LineCtx) : Kept s ((s.readConserved i m t c).1) := by
  unfold State.readConserved
  split
  · dsimp only [State.draw]
    have h0 : Kept s { s with nonce := s.nonce + 1 } := kept_self _
    refine h0.trans ?_
    generalize (Stage.readPlane _ m s.nonce c.y t.hactive) = q
    obtain ⟨es, rd, ue⟩ := q
    refine (State.recordReads_kept { s with nonce := s.nonce + 1 } i 2 0 m rd).trans ?_
    cases ue
    · exact kept_self _
    · exact kept_of_same (by simp) (by simp) (by simp)
  · exact kept_self _

@[simp] theorem State.readConserved_frame (s : State) (i : Nat) (m : Source) (t : Timing) (c : LineCtx) : ((s.readConserved i m t c).1).pending = s.pending ∧ ((s.readConserved i m t c).1).fuses = s.fuses :=
  ⟨(State.readConserved_kept s i m t c).1, (State.readConserved_kept s i m t c).2.1⟩

@[simp] theorem State.readConserved_wf (s : State) (i : Nat) (m : Source) (t : Timing) (c : LineCtx) (hm : Memory.wf s.mem = true) : Memory.wf ((s.readConserved i m t c).1).mem = true := (State.readConserved_kept s i m t c).2.2 hm

theorem State.composeSources_kept (s : State) (i : Nat) (m : Source) (t : Timing) (ks : List Nat) (c : LineCtx) : Kept s ((s.composeSources i m t ks c).1) := by
  unfold State.composeSources
  dsimp only [State.draw]
  have h0 : Kept s { s with nonce := s.nonce + 1 + 23 } := kept_self _
  refine h0.trans ?_
  generalize ({ s with nonce := s.nonce + 1 + 23 } : State) = u
  have h1 := fun (l : List Nat) (q : State × LineCtx) (fv : Nat) st => foldl_kept_fst (fun (q : State × LineCtx) l => q.1.composeLayer i m t (fv + l) st q.2 l) (fun q a => State.composeLayer_kept ..) l q
  have h2 := fun (l : List Nat) (q : State × LineCtx) (fv : Nat) => foldl_kept_fst (fun (q : State × LineCtx) k => q.1.drawPlane i m t (fv + k) q.2 (k - 16)) (fun q a => State.drawPlane_kept ..) l q
  exact (h1 _ (u, c) _ _).trans (h2 _ _ _)

@[simp] theorem State.composeSources_frame (s : State) (i : Nat) (m : Source) (t : Timing) (ks : List Nat) (c : LineCtx) : ((s.composeSources i m t ks c).1).pending = s.pending ∧ ((s.composeSources i m t ks c).1).fuses = s.fuses :=
  ⟨(State.composeSources_kept s i m t ks c).1, (State.composeSources_kept s i m t ks c).2.1⟩

@[simp] theorem State.composeSources_wf (s : State) (i : Nat) (m : Source) (t : Timing) (ks : List Nat) (c : LineCtx) (hm : Memory.wf s.mem = true) : Memory.wf ((s.composeSources i m t ks c).1).mem = true := (State.composeSources_kept s i m t ks c).2.2 hm

@[simp] theorem State.source_frame (s : State) (i : Nat) : ((s.source i).2).pending = s.pending ∧ ((s.source i).2).mem = s.mem ∧
    ((s.source i).2).fuses = s.fuses := by
  exact ⟨rfl, rfl, rfl⟩

theorem State.composeLine_kept (s : State) (i y : Nat) (t : Timing) : Kept s (s.composeLine i y t) := by
  unfold State.composeLine
  have h0 : Kept s (s.source i).2 := kept_of_same (by simp) (by simp) (by simp)
  generalize s.source i = q at h0 ⊢
  obtain ⟨m, u⟩ := q
  refine h0.trans ?_
  dsimp only
  have h1 := State.readSpans_kept u i m { y := y, regs := (s.stage i).regs, hs := (s.stage i).prism.hStart }
  generalize u.readSpans i m _ = q at h1 ⊢
  obtain ⟨u1, c1⟩ := q
  refine h1.trans ?_
  dsimp only
  have h2 := State.readConserved_kept u1 i m t c1
  generalize u1.readConserved i m t c1 = q at h2 ⊢
  obtain ⟨u2, c2⟩ := q
  refine h2.trans ?_
  dsimp only
  have h3 := State.composeSources_kept u2 i m t (upto 24 fun k => (u2.stage i).composes c2 k) c2
  generalize u2.composeSources i m t _ c2 = q at h3 ⊢
  obtain ⟨u3, c3⟩ := q
  exact h3.trans (kept_of_same (by simp) (by simp) (by simp))

@[simp] theorem State.composeLine_frame (s : State) (i y : Nat) (t : Timing) : (s.composeLine i y t).pending = s.pending ∧ (s.composeLine i y t).fuses = s.fuses :=
  ⟨(State.composeLine_kept s i y t).1, (State.composeLine_kept s i y t).2.1⟩

@[simp] theorem State.composeLine_wf (s : State) (i y : Nat) (t : Timing) (hm : Memory.wf s.mem = true) : Memory.wf (s.composeLine i y t).mem = true := (State.composeLine_kept s i y t).2.2 hm

@[simp] theorem State.lineStart_frame (s : State) (i : Nat) : (State.lineStart s i).pending = s.pending ∧
    (State.lineStart s i).mem = s.mem ∧ (State.lineStart s i).fuses = s.fuses := by
  simp [State.lineStart]

@[simp] theorem State.rindFault_frame (s : State) (i : Nat) : (State.rindFault s i).pending = s.pending ∧
    (State.rindFault s i).mem = s.mem ∧ (State.rindFault s i).fuses = s.fuses := by
  simp [State.rindFault]

@[simp] theorem State.mixSegment_frame (s : State) (i : Nat) (t : Timing) (c : LineCtx) :
    (State.mixSegment s i t c).pending = s.pending ∧ (State.mixSegment s i t c).fuses = s.fuses := by
  simp [State.mixSegment]

@[simp] theorem State.mixSegment_wf (s : State) (i : Nat) (t : Timing) (c : LineCtx) (hm :
    Memory.wf s.mem = true) : Memory.wf (State.mixSegment s i t c).mem = true := by
  unfold State.mixSegment
  dsimp only
  (repeat' split)
  all_goals (simp [*])

@[simp] theorem State.latch_frame (st : State) (s : Nat) : (State.latch st s).pending = st.pending ∧
    (State.latch st s).mem = st.mem ∧ (State.latch st s).fuses = st.fuses := by
  simp [State.latch]

/-! ### Operations of Machine/Units.lean -/

@[simp] theorem State.resetSource_frame (s : State) (n : Nat) : (State.resetSource s n).pending = s.pending ∧
    (State.resetSource s n).mem = s.mem ∧ (State.resetSource s n).fuses = s.fuses := by
  simp [State.resetSource]

@[simp] theorem State.resetSources_frame (s : State) (i : Nat) : (State.resetSources s i).pending = s.pending ∧
    (State.resetSources s i).mem = s.mem ∧ (State.resetSources s i).fuses = s.fuses := by
  simp [State.resetSources]

@[simp] theorem State.retarget_frame (s : State) (k t : Nat) : (State.retarget s k t).pending = s.pending ∧
    (State.retarget s k t).mem = s.mem ∧ (State.retarget s k t).fuses = s.fuses := by
  unfold State.retarget
  refine foldl_keep _ (fun s k => ?_) _ _
  change State.same s _
  (repeat' split) <;> simp [State.same]

@[simp] theorem State.endServices_frame (s : State) (k : Nat) : (State.endServices s k).pending = s.pending ∧
    (State.endServices s k).mem = s.mem ∧ (State.endServices s k).fuses = s.fuses := by
  simp [State.endServices]

@[simp] theorem State.movePip_frame (s : State) (k j : Nat) : (State.movePip s k j).pending = s.pending ∧
    (State.movePip s k j).mem = s.mem ∧ (State.movePip s k j).fuses = s.fuses := by
  simp [State.movePip]

@[simp] theorem State.stopStage_frame (s : State) (i : Nat) : (State.stopStage s i).pending = s.pending ∧
    (State.stopStage s i).mem = s.mem ∧ (State.stopStage s i).fuses = s.fuses := by
  unfold State.stopStage
  dsimp only
  simp only [State.modStage_pending, State.modStage_mem, State.modStage_fuses, State.resetVine_frame]
  have h1 := foldl_keep (fun (s : State) k => s.modCore k (·.quit .stopped)) (fun s a => by simp) (s.stagePips i) s
  have h2 := fun (l : List Nat) t => foldl_keep State.resetTimer (fun s a => by simp) l t
  simp [h1, h2]

@[simp] theorem State.zeroSegs_frame (s : State) (i : Nat) : (State.zeroSegs s i).pending = s.pending ∧
    (State.zeroSegs s i).fuses = s.fuses := by
  unfold State.zeroSegs
  exact foldl_keep2 _ (fun s g => by simp) _ _

@[simp] theorem State.zeroSegs_wf (s : State) (i : Nat) (hm : Memory.wf s.mem = true) :
    Memory.wf (State.zeroSegs s i).mem = true := by
  unfold State.zeroSegs
  exact foldl_wf _ (fun s g h => by simp [h]) _ _ hm

@[simp] theorem State.dropStage_frame (s : State) (i : Nat) : (State.dropStage s i).pending = s.pending ∧
    (State.dropStage s i).fuses = s.fuses := by
  simp [State.dropStage]

@[simp] theorem State.dropStage_wf (s : State) (i : Nat) (hm : Memory.wf s.mem = true) :
    Memory.wf (State.dropStage s i).mem = true := by
  unfold State.dropStage
  (repeat' split)
  all_goals (simp [*])

@[simp] theorem State.toMode_frame (s : State) (m : Mode) : (State.toMode s m).pending = s.pending ∧
    (State.toMode s m).mem = s.mem ∧ (State.toMode s m).fuses = s.fuses := by
  simp [State.toMode]

@[simp] theorem State.runMode_frame (s : State) : (State.runMode s).pending = s.pending ∧
    (State.runMode s).mem = s.mem ∧ (State.runMode s).fuses = s.fuses := by
  simp [State.runMode]

@[simp] theorem State.noteShed_frame (s : State) (sec : Nat) : (State.noteShed s sec).pending = s.pending ∧
    (State.noteShed s sec).mem = s.mem ∧ (State.noteShed s sec).fuses = s.fuses := by
  simp [State.noteShed]

@[simp] theorem State.reply_frame (s : State) (w code : Nat) (words : List Word) :
    (State.reply s w code words).pending = s.pending ∧ (State.reply s w code words).mem = s.mem ∧
    (State.reply s w code words).fuses = s.fuses := by
  simp [State.reply]

@[simp] theorem State.replyTo_frame (s : State) (asker : Option Nat) (code : Nat) (words : List Word) :
    (State.replyTo s asker code words).pending = s.pending ∧ (State.replyTo s asker code words).mem = s.mem ∧
    (State.replyTo s asker code words).fuses = s.fuses := by
  unfold State.replyTo
  (repeat' split)
  all_goals (simp)

@[simp] theorem State.journal_frame (s : State) (op phase kind stage lindex : Nat) (failed spare :
    Option (Nat × Nat)) (step voices : Nat) :
    (State.journal s op phase kind stage lindex failed spare step voices).pending = s.pending ∧
    (State.journal s op phase kind stage lindex failed spare step voices).mem = s.mem ∧
    (State.journal s op phase kind stage lindex failed spare step voices).fuses = s.fuses := by
  simp [State.journal]

/-! ### Operations of Machine/Faults.lean -/

theorem State.readShadow_kept (s : State) (sec k u : Nat) (ue : Bool) : Kept s ((s.readShadow sec k u ue).2) := by
  unfold State.readShadow
  dsimp only
  exact ((show Kept s s.draw.2 from kept_self _).trans (ite_kept _ (State.upset_kept _ _ _) (kept_self _))).trans
    (State.readRanges_kept _ _)

@[simp] theorem State.readShadow_frame (s : State) (sec k u : Nat) (ue : Bool) : ((s.readShadow sec k u ue).2).pending = s.pending ∧ ((s.readShadow sec k u ue).2).fuses = s.fuses :=
  ⟨(State.readShadow_kept s sec k u ue).1, (State.readShadow_kept s sec k u ue).2.1⟩

@[simp] theorem State.readShadow_wf (s : State) (sec k u : Nat) (ue : Bool) (hm : Memory.wf s.mem = true) : Memory.wf ((s.readShadow sec k u ue).2).mem = true := (State.readShadow_kept s sec k u ue).2.2 hm

@[simp] theorem State.recordFault_frame (s : State) (sec kind unit det : Nat) :
    (State.recordFault s sec kind unit det).pending = s.pending ∧
    (State.recordFault s sec kind unit det).mem = s.mem ∧
    (State.recordFault s sec kind unit det).fuses = s.fuses := by
  simp [State.recordFault]

@[simp] theorem State.failEntry_frame (s : State) (i b : Nat) (e : BindEntry) :
    (State.failEntry s i b e).pending = s.pending ∧ (State.failEntry s i b e).mem = s.mem ∧
    (State.failEntry s i b e).fuses = s.fuses := by
  simp [State.failEntry]

@[simp] theorem State.failUnit_frame (s : State) (sec kind u : Nat) :
    (State.failUnit s sec kind u).pending = s.pending ∧ (State.failUnit s sec kind u).mem = s.mem ∧
    (State.failUnit s sec kind u).fuses = s.fuses := by
  simp [State.failUnit]

@[simp] theorem State.failTimers_frame (s : State) (sec : Nat) : (State.failTimers s sec).pending = s.pending ∧
    (State.failTimers s sec).mem = s.mem ∧ (State.failTimers s sec).fuses = s.fuses := by
  unfold State.failTimers
  exact foldl_keep _ (fun s k => by simp) _ _

@[simp] theorem State.failLogic_frame (s : State) (sec : Nat) : (State.failLogic s sec).pending = s.pending ∧
    (State.failLogic s sec).mem = s.mem ∧ (State.failLogic s sec).fuses = s.fuses := by
  simp [State.failLogic]

@[simp] theorem State.failMemory_frame (s : State) (sec : Nat) : (State.failMemory s sec).pending = s.pending ∧
    (State.failMemory s sec).fuses = s.fuses := by
  simp [State.failMemory]

@[simp] theorem State.failMemory_wf (s : State) (sec : Nat) (hm : Memory.wf s.mem = true) :
    Memory.wf (State.failMemory s sec).mem = true := by
  unfold State.failMemory
  dsimp only
  (repeat' split)
  all_goals (simp_all)

@[simp] theorem State.startRepair_frame (s : State) (sec : Nat) (v : Word) :
    (State.startRepair s sec v).pending = s.pending ∧ (State.startRepair s sec v).mem = s.mem ∧
    (State.startRepair s sec v).fuses = s.fuses := by
  simp [State.startRepair]

@[simp] theorem State.shedUnit_frame (s : State) (i b : Nat) : (State.shedUnit s i b).pending = s.pending ∧
    (State.shedUnit s i b).mem = s.mem ∧ (State.shedUnit s i b).fuses = s.fuses := by
  simp [State.shedUnit]

@[simp] theorem State.shedFailedVoices_frame (s : State) (i b n : Nat) :
    (State.shedFailedVoices s i b n).pending = s.pending ∧ (State.shedFailedVoices s i b n).mem = s.mem ∧
    (State.shedFailedVoices s i b n).fuses = s.fuses := by
  unfold State.shedFailedVoices
  dsimp only
  (repeat' split)
  all_goals (simp [*])

theorem State.recompose_kept (s : State) (i k : Nat) (t : Timing) (c : LineCtx) : Kept s ((s.recompose i k t c).1) := by
  unfold State.recompose
  split
  · dsimp only [State.draw]
    have h0 : Kept s { s with nonce := s.nonce + 1 } := kept_self _
    refine h0.trans ?_
    generalize ({ s with nonce := s.nonce + 1 } : State) = u
    have h0 : Kept u (u.source i).2 := kept_of_same (by simp) (by simp) (by simp)
    refine h0.trans ?_
    split
    · exact State.composeLayer_kept ..
    · exact State.drawPlane_kept ..
  · exact kept_self _

@[simp] theorem State.recompose_frame (s : State) (i k : Nat) (t : Timing) (c : LineCtx) : ((s.recompose i k t c).1).pending = s.pending ∧ ((s.recompose i k t c).1).fuses = s.fuses :=
  ⟨(State.recompose_kept s i k t c).1, (State.recompose_kept s i k t c).2.1⟩

@[simp] theorem State.recompose_wf (s : State) (i k : Nat) (t : Timing) (c : LineCtx) (hm : Memory.wf s.mem = true) : Memory.wf ((s.recompose i k t c).1).mem = true := (State.recompose_kept s i k t c).2.2 hm

theorem State.recomposeLines_kept (s : State) (i k : Nat) : Kept s (s.recomposeLines i k) := by
  unfold State.recomposeLines
  extract_lets u st t v
  have h0 : Kept s u := kept_of_same (by simp [u]) (by simp [u]) (by simp [u])
  have h1 : Kept u v := by
    simp only [v]
    split
    · rename_i c _
      exact ⟨by simp, by simp, fun h => by simp [h]⟩
    · exact kept_self _
  refine h0.trans (h1.trans ?_)
  split
  · exact ⟨by simp, by simp, fun h => by simp [h]⟩
  · exact kept_self _

@[simp] theorem State.recomposeLines_frame (s : State) (i k : Nat) : (s.recomposeLines i k).pending = s.pending ∧ (s.recomposeLines i k).fuses = s.fuses :=
  ⟨(State.recomposeLines_kept s i k).1, (State.recomposeLines_kept s i k).2.1⟩

@[simp] theorem State.recomposeLines_wf (s : State) (i k : Nat) (hm : Memory.wf s.mem = true) : Memory.wf (s.recomposeLines i k).mem = true := (State.recomposeLines_kept s i k).2.2 hm

@[simp] theorem State.restartPip_frame (s : State) (i n k j : Nat) :
    (State.restartPip s i n k j).pending = s.pending ∧ (State.restartPip s i n k j).mem = s.mem ∧
    (State.restartPip s i n k j).fuses = s.fuses := by
  simp [State.restartPip, State.draw]

theorem State.rebind_kept (s : State) (i b sec u : Nat) : Kept s (s.rebind i b sec u) := by
  unfold State.rebind
  dsimp only
  (repeat' split) <;> exact ⟨by simp, by simp, fun h => by simp [h]⟩

@[simp] theorem State.rebind_frame (s : State) (i b sec u : Nat) : (s.rebind i b sec u).pending = s.pending ∧ (s.rebind i b sec u).fuses = s.fuses :=
  ⟨(State.rebind_kept s i b sec u).1, (State.rebind_kept s i b sec u).2.1⟩

@[simp] theorem State.rebind_wf (s : State) (i b sec u : Nat) (hm : Memory.wf s.mem = true) : Memory.wf (s.rebind i b sec u).mem = true := (State.rebind_kept s i b sec u).2.2 hm

@[simp] theorem State.release_frame (s : State) (i b : Nat) : (State.release s i b).pending = s.pending ∧
    (State.release s i b).fuses = s.fuses := by
  simp [State.release]

@[simp] theorem State.release_wf (s : State) (i b : Nat) (hm : Memory.wf s.mem = true) :
    Memory.wf (State.release s i b).mem = true := by
  unfold State.release
  refine foldl_wf _ (fun s w h => ?_) _ _ (by simp [hm])
  exact State.applyWrite_wf _ _ _ _ _ _ _ h (fun t j h => State.pressAbort_wf t j h)

@[simp] theorem State.shedFor_frame (s : State) (i b other : Nat) :
    (State.shedFor s i b other).pending = s.pending ∧ (State.shedFor s i b other).fuses = s.fuses := by
  simp [State.shedFor]

@[simp] theorem State.shedFor_wf (s : State) (i b other : Nat) (hm : Memory.wf s.mem = true) :
    Memory.wf (State.shedFor s i b other).mem = true := by
  simp [State.shedFor, *]

@[simp] theorem State.applyStep_frame (s : State) (i b : Nat) (p : ShedStep) :
    (State.applyStep s i b p).pending = s.pending ∧ (State.applyStep s i b p).fuses = s.fuses := by
  unfold State.applyStep
  (repeat' split)
  all_goals (simp)

@[simp] theorem State.applyStep_wf (s : State) (i b : Nat) (p : ShedStep) (hm : Memory.wf s.mem = true) :
    Memory.wf (State.applyStep s i b p).mem = true := by
  unfold State.applyStep
  dsimp only
  (repeat' split)
  all_goals (simp [*])

@[simp] theorem State.fixLeads_frame (s : State) : (State.fixLeads s).pending = s.pending ∧
    (State.fixLeads s).mem = s.mem ∧ (State.fixLeads s).fuses = s.fuses := by
  unfold State.fixLeads
  exact foldl_keep _ (fun s k => by change State.same s _; (try dsimp only); (repeat' split) <;> simp [State.same]) _ _

@[simp] theorem State.enterOrphan_frame (s : State) : (State.enterOrphan s).pending = s.pending ∧
    (State.enterOrphan s).mem = s.mem ∧ (State.enterOrphan s).fuses = s.fuses := by
  change State.same s _
  unfold State.enterOrphan
  split <;> simp [State.same]

@[simp] theorem State.replayEntry_frame (s : State) (w k : Nat) : (State.replayEntry s w k).pending = s.pending ∧
    (State.replayEntry s w k).fuses = s.fuses := by
  unfold State.replayEntry
  dsimp only
  (repeat' split)
  all_goals (simp [*])

@[simp] theorem State.replayEntry_wf (s : State) (w k : Nat) (hm : Memory.wf s.mem = true) :
    Memory.wf (State.replayEntry s w k).mem = true := by
  unfold State.replayEntry
  dsimp only
  (repeat' split)
  all_goals (simp [*])

@[simp] theorem State.failLoadLost_frame (s : State) : (State.failLoadLost s).pending = s.pending ∧
    (State.failLoadLost s).fuses = s.fuses := by
  simp [State.failLoadLost]

@[simp] theorem State.failLoadLost_wf (s : State) (hm : Memory.wf s.mem = true) :
    Memory.wf (State.failLoadLost s).mem = true := by
  unfold State.failLoadLost
  dsimp only
  (repeat' split)
  all_goals (simp [*])

@[simp] theorem State.takeOver_frame (s : State) (w : Nat) : (s.takeOver w).pending = s.pending ∧ (s.takeOver w).mem = s.mem ∧
    (s.takeOver w).fuses = s.fuses := by
  unfold State.takeOver
  exact foldl_keep _ (fun s a => by split <;> simp) _ _

theorem State.loseWarden_kept (s : State) (w : Nat) : Kept s (s.loseWarden w) := by
  unfold State.loseWarden
  split
  · exact kept_self s
  · dsimp only
    generalize hp : State.pulse _ 8 = u
    have h1 : Kept s u := by subst hp; exact kept_of_same (by simp) (by simp) (by simp)
    refine h1.trans ?_
    clear h1 hp
    split
    · exact kept_self _
    · split
      · exact kept_of_same (by simp) (by simp) (by simp)
      · have h := fun (l : List Nat) (t : State) (f : Nat → Nat) => foldl_kept (fun (s : State) j => s.replayEntry w (f j))
          (fun s j => ⟨by simp, by simp, fun h => by simp [h]⟩) l t
        generalize hq : List.foldl _ _ (List.range 256) = q
        have h2 : Kept u q := by
          subst hq
          refine Kept.trans ?_ (h _ _ _)
          exact kept_of_same (by simp) (by simp) (by simp)
        refine h2.trans ?_
        exact ⟨by simp, by simp, fun h => by simp [h]⟩

@[simp] theorem State.loseWarden_frame (s : State) (w : Nat) : (State.loseWarden s w).pending = s.pending ∧
    (State.loseWarden s w).fuses = s.fuses := ⟨(State.loseWarden_kept s w).1, (State.loseWarden_kept s w).2.1⟩

@[simp] theorem State.loseWarden_wf (s : State) (w : Nat) (hm : Memory.wf s.mem = true) :
    Memory.wf (State.loseWarden s w).mem = true := (State.loseWarden_kept s w).2.2 hm

@[simp] theorem State.loseWardenIn_frame (s : State) (sec : Nat) : (State.loseWardenIn s sec).pending = s.pending ∧
    (State.loseWardenIn s sec).fuses = s.fuses := by
  unfold State.loseWardenIn
  (repeat' split)
  all_goals (simp)

@[simp] theorem State.loseWardenIn_wf (s : State) (sec : Nat) (hm : Memory.wf s.mem = true) :
    Memory.wf (State.loseWardenIn s sec).mem = true := by
  unfold State.loseWardenIn
  (repeat' split)
  all_goals (simp_all)

@[simp] theorem State.failTimer_frame (s : State) (sec k : Nat) : (State.failTimer s sec k).pending = s.pending ∧
    (State.failTimer s sec k).mem = s.mem ∧ (State.failTimer s sec k).fuses = s.fuses := by
  simp [State.failTimer]

@[simp] theorem State.shadowWord_frame (s : State) (sec slot k : Nat) :
    (State.shadowWord s sec slot k).pending = s.pending ∧ (State.shadowWord s sec slot k).fuses = s.fuses := by
  unfold State.shadowWord
  (repeat' split)
  all_goals (simp)

@[simp] theorem State.shadowWord_wf (s : State) (sec slot k : Nat) (hm : Memory.wf s.mem = true) :
    Memory.wf (State.shadowWord s sec slot k).mem = true := by
  unfold State.shadowWord
  (repeat' split)
  all_goals (simp_all)

@[simp] theorem State.copyStale_frame (s : State) (sec : Nat) : (State.copyStale s sec).pending = s.pending ∧
    (State.copyStale s sec).fuses = s.fuses := by
  unfold State.copyStale
  dsimp only
  (repeat' split)
  all_goals (simp [*])

@[simp] theorem State.copyStale_wf (s : State) (sec : Nat) (hm : Memory.wf s.mem = true) :
    Memory.wf (State.copyStale s sec).mem = true := by
  unfold State.copyStale
  dsimp only
  (repeat' split)
  all_goals (simp_all)

/-! ### Operations of Machine/Load.lean -/

@[simp] theorem State.beginPass1_frame (s : State) : (s.beginPass1).pending = s.pending ∧ (s.beginPass1).mem = s.mem ∧
    (s.beginPass1).fuses = s.fuses := by
  simp [State.beginPass1]

@[simp] theorem State.takeSource_frame (s : State) (x : Nat) : (State.takeSource s x).pending = s.pending ∧
    (State.takeSource s x).mem = s.mem ∧ (State.takeSource s x).fuses = s.fuses := by
  simp [State.takeSource]

@[simp] theorem State.nextSource_frame (n : Nat) (s : State) : (State.nextSource n s).pending = s.pending ∧
    (State.nextSource n s).mem = s.mem ∧ (State.nextSource n s).fuses = s.fuses := by
  induction n generalizing s with
  | zero => exact ⟨rfl, rfl, rfl⟩
  | succ n ih =>
    unfold State.nextSource
    dsimp only
    (repeat' split) <;> simp [ih]

@[simp] theorem State.failFull_frame (s : State) (code : Nat) : (State.failFull s code).pending = s.pending ∧
    (State.failFull s code).mem = s.mem ∧ (State.failFull s code).fuses = s.fuses := by
  unfold State.failFull
  exact State.nextSource_frame _ _

@[simp] theorem State.stageReady_frame (s : State) (p : Nat) : (State.stageReady s p).pending = s.pending ∧
    (State.stageReady s p).mem = s.mem ∧ (State.stageReady s p).fuses = s.fuses := by
  unfold State.stageReady
  dsimp only
  (repeat' split) <;> simp

@[simp] theorem State.beginPass2_frame (s : State) (step : Nat) : (s.beginPass2 step).pending = s.pending ∧ (s.beginPass2 step).mem = s.mem ∧
    (s.beginPass2 step).fuses = s.fuses := by
  simp [State.beginPass2]

@[simp] theorem State.slotLeft_frame (s : State) (i : Nat) : (s.slotLeft i).pending = s.pending ∧ (s.slotLeft i).mem = s.mem ∧
    (s.slotLeft i).fuses = s.fuses := by
  simp [State.slotLeft]

theorem State.readLpxSource_kept (s : State) (n : Nat) : Kept s ((s.readLpxSource n).2) := by
  unfold State.readLpxSource
  split
  · exact ⟨by simp, by simp, fun h => by simp [h]⟩
  · exact kept_self s

@[simp] theorem State.readLpxSource_frame (s : State) (n : Nat) : ((s.readLpxSource n).2).pending = s.pending ∧ ((s.readLpxSource n).2).fuses = s.fuses :=
  ⟨(State.readLpxSource_kept s n).1, (State.readLpxSource_kept s n).2.1⟩

@[simp] theorem State.readLpxSource_wf (s : State) (n : Nat) (hm : Memory.wf s.mem = true) : Memory.wf ((s.readLpxSource n).2).mem = true := (State.readLpxSource_kept s n).2.2 hm

@[simp] theorem State.endStageLoad_frame (s : State) (code : Nat) :
    (State.endStageLoad s code).pending = s.pending ∧ (State.endStageLoad s code).mem = s.mem ∧
    (State.endStageLoad s code).fuses = s.fuses := by
  simp [State.endStageLoad]

@[simp] theorem State.failStage_frame (s : State) (code : Nat) : (State.failStage s code).pending = s.pending ∧
    (State.failStage s code).fuses = s.fuses := by
  unfold State.failStage
  dsimp only
  split
  · simp
  · have h := fun (l : List Seg) t => foldl_keep2 (fun (s : State) (g : Seg) => s.zeroMem g.base g.size) (fun s a => by simp) l t
    simp [h]

@[simp] theorem State.failStage_wf (s : State) (code : Nat) (hm : Memory.wf s.mem = true) :
    Memory.wf (State.failStage s code).mem = true := by
  unfold State.failStage
  dsimp only
  split
  · simp [hm]
  · have h := fun (l : List Seg) t => foldl_wf (fun (s : State) (g : Seg) => s.zeroMem g.base g.size) (fun s a h => by simp [h]) l t
    simp [h, hm]

@[simp] theorem State.failLoad_frame (s : State) (code : Nat) : (State.failLoad s code).pending = s.pending ∧
    (State.failLoad s code).fuses = s.fuses := by
  simp [State.failLoad]

@[simp] theorem State.failLoad_wf (s : State) (code : Nat) (hm : Memory.wf s.mem = true) :
    Memory.wf (State.failLoad s code).mem = true := by
  unfold State.failLoad
  (repeat' split)
  all_goals (simp_all)

theorem State.readFailed_kept (s : State) : Kept s (s.readFailed) := by
  unfold State.readFailed
  dsimp only
  split
  · exact ite_kept _ ⟨by simp, by simp, fun h => by simp [h]⟩ (kept_self _)
  · exact kept_self s

@[simp] theorem State.readFailed_frame (s : State) : (s.readFailed).pending = s.pending ∧ (s.readFailed).fuses = s.fuses :=
  ⟨(State.readFailed_kept s).1, (State.readFailed_kept s).2.1⟩

@[simp] theorem State.readFailed_wf (s : State) (hm : Memory.wf s.mem = true) : Memory.wf (s.readFailed).mem = true := (State.readFailed_kept s).2.2 hm

@[simp] theorem State.resetStages_frame (s : State) : (State.resetStages s).pending = s.pending ∧
    (State.resetStages s).mem = s.mem ∧ (State.resetStages s).fuses = s.fuses := by
  unfold State.resetStages
  dsimp only
  have h1 := fun (l : List Nat) t => foldl_keep (fun (s : State) i => (s.resetSources i).resetVine i) (fun s a => by simp) l t
  have h2 := fun (l : List Nat) t => foldl_keep State.resetTimer (fun s a => by simp) l t
  have h3 := fun (l : List Nat) t => foldl_keep (fun (s : State) k => s.modCore k fun _ => {}) (fun s a => by simp) l t
  have h4 := fun (l : List Nat) t => foldl_keep (fun (s : State) i => s.setStage i {}) (fun s a => by simp) l t
  have h5 := fun (l : List Nat) t => foldl_keep (fun (s : State) n => s.modDreg (0x13000000 + 8 * (32 + n)) fun w => setFld w 8 5 31) (fun s a => by simp) l t
  simp only [h1, h2, h3, h4, h5, and_self]

@[simp] theorem State.shedAtLoad_frame (s : State) (i : Nat) (e : FloorEntry) :
    (State.shedAtLoad s i e).pending = s.pending ∧ (State.shedAtLoad s i e).mem = s.mem ∧
    (State.shedAtLoad s i e).fuses = s.fuses := by
  unfold State.shedAtLoad
  (repeat' split)
  all_goals (simp)

theorem State.formEntry_frame (full : Bool) (i : Nat) (s : State) (e : FloorEntry) (t : State)
    (h : State.formEntry full i (some s) e = some t) : t.pending = s.pending ∧ t.mem = s.mem ∧ t.fuses = s.fuses := by
  unfold State.formEntry at h
  simp only [Option.bind_some] at h
  (repeat' split at h) <;> first | (cases h; simp; done) | (cases h; done)

@[simp] theorem State.fillSeg_frame (s : State) (r : Rec) (assets : List Byte) :
    (State.fillSeg s r assets).1.pending = s.pending ∧ (State.fillSeg s r assets).1.fuses = s.fuses := by
  unfold State.fillSeg
  dsimp only
  (repeat' split)
  all_goals (simp [State.draw, *])

@[simp] theorem State.fillSeg_wf (s : State) (r : Rec) (assets : List Byte) (hm : Memory.wf s.mem = true) :
    Memory.wf (State.fillSeg s r assets).1.mem = true := by
  unfold State.fillSeg
  dsimp only
  split
  · exact filter_swf memDefault _ hm
  all_goals simp [hm]

@[simp] theorem State.initRun_frame (s : State) (i o : Nat) (p : List Byte) :
    (State.initRun s i o p).pending = s.pending ∧ (State.initRun s i o p).fuses = s.fuses := by
  simp [State.initRun]

@[simp] theorem State.initRun_wf (s : State) (i o : Nat) (p : List Byte) (hm : Memory.wf s.mem = true) :
    Memory.wf (State.initRun s i o p).mem = true := by
  unfold State.initRun
  (repeat' split)
  all_goals (simp_all)

@[simp] theorem State.drainMirrors_frame (s : State) : (State.drainMirrors s).pending = s.pending ∧
    (State.drainMirrors s).fuses = s.fuses := by
  simp [State.drainMirrors]

@[simp] theorem State.drainMirrors_wf (s : State) (hm : Memory.wf s.mem = true) :
    Memory.wf (State.drainMirrors s).mem = true := by
  unfold State.drainMirrors
  refine foldl_wf _ (fun s c h => ?_) _ _ hm
  dsimp only
  split
  · simpa using h
  · exact foldl_wf _ (fun s e h => State.shadowWord_wf _ _ _ _ h) _ _ (by simpa using h)

theorem State.applyRec_frame (q : State × List Byte) (r : Rec) : (State.applyRec q r).1.pending = q.1.pending ∧
    (State.applyRec q r).1.fuses = q.1.fuses := by
  obtain ⟨s, bs⟩ := q
  unfold State.applyRec
  dsimp only
  split
  · simp
  · split
    · simp
    · simp
    · exact foldl_keep2 _ (fun s u => by simp) _ _
    · (repeat' split) <;> simp
    · simp

theorem State.applyRec_wf (q : State × List Byte) (r : Rec) (hm : Memory.wf q.1.mem = true) :
    Memory.wf (State.applyRec q r).1.mem = true := by
  obtain ⟨s, bs⟩ := q
  unfold State.applyRec
  dsimp only at hm ⊢
  split
  · simp [hm]
  · split
    · simp [hm]
    · simp [hm]
    · exact foldl_wf _ (fun s u h => by simp [h]) _ _ hm
    · (repeat' split) <;> simp [hm]
    · simp [hm]

@[simp] theorem State.installStage_frame (s : State) (m : Image) (i : Nat) (chans : List (Nat × Nat)) :
    (State.installStage s m i chans).pending = s.pending ∧ (State.installStage s m i chans).mem = s.mem ∧
    (State.installStage s m i chans).fuses = s.fuses := by
  simp [State.installStage]

theorem State.formImage_frame (s : State) (m : Image) (full : Bool) (t : State) (h :
    State.formImage s m full = some t) : t.pending = s.pending ∧ t.mem = s.mem ∧ t.fuses = s.fuses := by
  have entry : ∀ (i : Nat) (es : List FloorEntry) (o : Option State) (t : State), es.foldl (State.formEntry full i) o = some t →
      ∃ u, o = some u ∧ State.same u t := by
    intro i es
    induction es with
    | nil => intro o t h; exact ⟨t, h, rfl, rfl, rfl⟩
    | cons e r ih =>
      intro o t h
      obtain ⟨u, hu, hs⟩ := ih _ _ h
      cases o with
      | none => simp [State.formEntry] at hu
      | some v =>
        have := State.formEntry_frame full i v e u hu
        exact ⟨v, rfl, hs.1.trans this.1, hs.2.1.trans this.2.1, hs.2.2.trans this.2.2⟩
  have stage : ∀ (l : List Nat) (o : Option State) (t : State),
      l.foldl (fun s i => (m.entries i).foldl (State.formEntry full i) s) o = some t → ∃ u, o = some u ∧ State.same u t := by
    intro l
    induction l with
    | nil => intro o t h; exact ⟨t, h, rfl, rfl, rfl⟩
    | cons i r ih =>
      intro o t h
      obtain ⟨u, hu, hs⟩ := ih _ _ h
      obtain ⟨v, hv, hs'⟩ := entry _ _ _ _ hu
      exact ⟨v, hv, hs.1.trans hs'.1, hs.2.1.trans hs'.2.1, hs.2.2.trans hs'.2.2⟩
  obtain ⟨u, hu, hs⟩ := stage _ _ _ h
  cases hu
  have hi := foldl_keep (fun (s : State) i => s.installStage m i (m.channels ((s.others m).flatMap Stage.timers)))
    (fun s i => by simp) m.stages
  have hj := fun cs t => foldl_keep (fun (s : State) i => s.installStage m i cs) (fun s i => by simp) m.stages t
  exact ⟨hs.1.trans (hj _ _).1, hs.2.1.trans (hj _ _).2.1, hs.2.2.trans (hj _ _).2.2⟩

@[simp] theorem State.clearPips_frame (s : State) (i : Nat) : (State.clearPips s i).pending = s.pending ∧
    (State.clearPips s i).mem = s.mem ∧ (State.clearPips s i).fuses = s.fuses := by
  unfold State.clearPips
  exact foldl_keep _ (fun s k => by simp) _ _

@[simp] theorem State.applySpoke_frame (s : State) (m : Image) : (State.applySpoke s m).pending = s.pending ∧
    (State.applySpoke s m).mem = s.mem ∧ (State.applySpoke s m).fuses = s.fuses := by
  unfold State.applySpoke
  refine foldl_keep _ (fun s r => ?_) _ _
  dsimp only
  split
  · have h := fun (l : List (List Byte)) t b => foldl_keep (fun (s : State) e =>
        s.modDreg (spkReg b (fieldAt e 0 1) 0x24) fun w => setFld w 8 8 (fieldAt e 1 1)) (fun s a => by simp) l t
    simp [h]
  · simp

theorem State.applyImage_frame (s : State) (m : Image) (full : Bool) (assets : List Byte) (t : State)
    (h : s.applyImage m full assets = some t) : t.pending = s.pending ∧ t.fuses = s.fuses := by
  unfold State.applyImage at h
  simp only [Option.map_eq_some_iff] at h
  obtain ⟨u, hu, rfl⟩ := h
  have h0 := State.formImage_frame _ _ _ _ hu
  have h1 := fun t => foldl_keep State.clearPips (fun s i => by simp) m.stages t
  have h2 := fun q => foldl_fst2 State.applyRec (fun q r => State.applyRec_frame q r) m.recs q
  have h3 := fun t => foldl_keep (fun (s : State) i => s.modStage i fun st =>
    { st with bindGen := if full then 1 else ((List.range 4).map fun i => (s.stage i).bindGen).getD i 0 + 1 }) (fun s i => by simp) m.stages t
  refine ⟨?_, ?_⟩
  · refine Eq.trans (foldl_keep2 _ (fun s i => by simp) m.stages _).1 ?_
    simp [h2, h1, h0]
  · refine Eq.trans (foldl_keep2 _ (fun s i => by simp) m.stages _).2 ?_
    simp [h2, h1, h0]

theorem State.applyImage_wf (s : State) (m : Image) (full : Bool) (assets : List Byte) (hm : Memory.wf s.mem = true) (t : State)
    (h : s.applyImage m full assets = some t) : Memory.wf t.mem = true := by
  unfold State.applyImage at h
  simp only [Option.map_eq_some_iff] at h
  obtain ⟨u, hu, rfl⟩ := h
  have h0 := State.formImage_frame _ _ _ _ hu
  have h1 := fun t => foldl_keep State.clearPips (fun s i => by simp) m.stages t
  have h2 : ∀ (l : List Rec) (q : State × List Byte), Memory.wf q.1.mem = true → Memory.wf (l.foldl State.applyRec q).1.mem = true := by
    intro l
    induction l with
    | nil => intro q h; exact h
    | cons r l ih => intro q h; exact ih _ (State.applyRec_wf q r h)
  refine foldl_wf _ (fun s i h => by simp [h]) _ _ ?_
  rw [(State.applySpoke_frame _ _).2.1]
  apply State.drainMirrors_wf
  apply h2
  simp [h1, h0, hm]

@[simp] theorem State.installDevice_frame (s : State) (m : Image) : (State.installDevice s m).pending = s.pending ∧
    (State.installDevice s m).mem = s.mem ∧ (State.installDevice s m).fuses = s.fuses := by
  simp [State.installDevice]

@[simp] theorem State.releaseStandby_frame (s : State) : (State.releaseStandby s).pending = s.pending ∧
    (State.releaseStandby s).mem = s.mem ∧ (State.releaseStandby s).fuses = s.fuses := by
  simp [State.releaseStandby]

/-- What installing an image keeps. -/
theorem kept_of_applyImage {s t : State} {m : Image} {full : Bool} {assets : List Byte} (h : s.applyImage m full assets = some t) :
    Kept s t :=
  ⟨(State.applyImage_frame s m full assets t h).1, (State.applyImage_frame s m full assets t h).2,
    fun hm => State.applyImage_wf s m full assets hm t h⟩

@[simp] theorem State.pass1Ok_frame (s : State) (m : Image) : (s.pass1Ok m).pending = s.pending ∧ (s.pass1Ok m).mem = s.mem ∧
    (s.pass1Ok m).fuses = s.fuses := by
  unfold State.pass1Ok
  dsimp only
  split
  · split <;> simp
  · split <;> simp

theorem State.commitFull_kept (s : State) (m : Image) (assets : List Byte) : Kept s (s.commitFull m assets) := by
  have hd : Kept s (s.installDevice m) := kept_of_same (by simp) (by simp) (by simp)
  unfold State.commitFull
  split
  · exact ⟨by simp, by simp, fun h => by simp [h]⟩
  · rename_i heq
    exact hd.trans (Kept.trans (kept_of_applyImage heq) (kept_of_same (by simp) (by simp) (by simp)))

@[simp] theorem State.commitFull_frame (s : State) (m : Image) (assets : List Byte) : (s.commitFull m assets).pending = s.pending ∧ (s.commitFull m assets).fuses = s.fuses :=
  ⟨(State.commitFull_kept s m assets).1, (State.commitFull_kept s m assets).2.1⟩

@[simp] theorem State.commitFull_wf (s : State) (m : Image) (assets : List Byte) (hm : Memory.wf s.mem = true) : Memory.wf (s.commitFull m assets).mem = true := (State.commitFull_kept s m assets).2.2 hm

/-- Dropping what stands outside a list of segments. -/
theorem foldl_filter_kept (p : Seg → Nat × Byte → Bool) (l : List Seg) (s : State) :
    Kept s (l.foldl (fun t g => { t with mem := t.mem.filter (p g) }) s) :=
  foldl_kept (fun t g => { t with mem := t.mem.filter (p g) }) (fun _ _ => ⟨rfl, rfl, fun h => filter_swf memDefault _ h⟩) l s

theorem State.commitStage_kept (s : State) (m : Image) (assets : List Byte) : Kept s (s.commitStage m assets) := by
  unfold State.commitStage
  dsimp only
  split
  · exact ⟨by simp, by simp, fun h => by simp [h]⟩
  · rename_i heq
    refine Kept.trans (Kept.trans ?_ (foldl_filter_kept _ _ _)) ((kept_of_applyImage heq).trans (kept_self _))
    exact kept_self _

@[simp] theorem State.commitStage_frame (s : State) (m : Image) (assets : List Byte) : (s.commitStage m assets).pending = s.pending ∧ (s.commitStage m assets).fuses = s.fuses :=
  ⟨(State.commitStage_kept s m assets).1, (State.commitStage_kept s m assets).2.1⟩

@[simp] theorem State.commitStage_wf (s : State) (m : Image) (assets : List Byte) (hm : Memory.wf s.mem = true) : Memory.wf (s.commitStage m assets).mem = true := (State.commitStage_kept s m assets).2.2 hm

@[simp] theorem State.stopForLoad_frame (s : State) (i : Nat) : (State.stopForLoad s i).pending = s.pending ∧
    (State.stopForLoad s i).mem = s.mem ∧ (State.stopForLoad s i).fuses = s.fuses := by
  simp [State.stopForLoad]

@[simp] theorem State.startPips_frame (s : State) (i : Nat) : (State.startPips s i).pending = s.pending ∧
    (State.startPips s i).mem = s.mem ∧ (State.startPips s i).fuses = s.fuses := by
  unfold State.startPips
  exact foldl_keep _ (fun s k => by split <;> simp) _ _

/-! ### Operations of Machine/Bus.lean -/

@[simp] theorem State.plainWrite_frame (s : State) (a : Nat) (v mask : Word) :
    (State.plainWrite s a v mask).pending = s.pending ∧ (State.plainWrite s a v mask).mem = s.mem ∧
    (State.plainWrite s a v mask).fuses = s.fuses := by
  unfold State.plainWrite
  (repeat' split)
  all_goals (simp)

@[simp] theorem State.writeIrqCfg_frame (s : State) (ini : Initiator) (n : Nat) (v mask : Word) :
    (State.writeIrqCfg s ini n v mask).pending = s.pending ∧ (State.writeIrqCfg s ini n v mask).mem = s.mem ∧
    (State.writeIrqCfg s ini n v mask).fuses = s.fuses := by
  unfold State.writeIrqCfg
  (repeat' split)
  all_goals (simp)

@[simp] theorem State.clearPending_frame (s : State) (n : Nat) : (State.clearPending s n).pending = s.pending ∧
    (State.clearPending s n).mem = s.mem ∧ (State.clearPending s n).fuses = s.fuses := by
  simp [State.clearPending]

@[simp] theorem State.writeTarget_frame (s : State) (t o : Nat) (cmd : Word) :
    (State.writeTarget s t o cmd).pending = s.pending ∧ (State.writeTarget s t o cmd).mem = s.mem ∧
    (State.writeTarget s t o cmd).fuses = s.fuses := by
  simp [State.writeTarget]

@[simp] theorem State.writeRouter_frame (s : State) (ini : Initiator) (o : Nat) (v mask : Word) :
    (State.writeRouter s ini o v mask).pending = s.pending ∧ (State.writeRouter s ini o v mask).mem = s.mem ∧
    (State.writeRouter s ini o v mask).fuses = s.fuses := by
  simp [State.writeRouter]

@[simp] theorem State.readClaim_frame (s : State) (t : Nat) : (State.readClaim s t).2.pending = s.pending ∧
    (State.readClaim s t).2.mem = s.mem ∧ (State.readClaim s t).2.fuses = s.fuses := by
  unfold State.readClaim
  (repeat' split)
  all_goals (simp)

@[simp] theorem State.readTarget_frame (s : State) (t o : Nat) : (State.readTarget s t o).2.pending = s.pending ∧
    (State.readTarget s t o).2.mem = s.mem ∧ (State.readTarget s t o).2.fuses = s.fuses := by
  unfold State.readTarget
  (repeat' split)
  all_goals (simp)

@[simp] theorem State.readRouter_frame (s : State) (ini : Initiator) (o : Nat) :
    (State.readRouter s ini o).2.pending = s.pending ∧ (State.readRouter s ini o).2.mem = s.mem ∧
    (State.readRouter s ini o).2.fuses = s.fuses := by
  change State.same s _
  unfold State.readRouter
  dsimp only
  (repeat' split) <;> first | exact ⟨rfl, rfl, rfl⟩ | simp [State.same]

@[simp] theorem State.forgetAsker_frame (s : State) (w : Nat) : (s.forgetAsker w).pending = s.pending ∧ (s.forgetAsker w).mem = s.mem ∧
    (s.forgetAsker w).fuses = s.fuses := by
  unfold State.forgetAsker; split <;> exact ⟨rfl, rfl, rfl⟩

@[simp] theorem State.mbForce_frame (s : State) (ini : Initiator) (m t : Nat) : (s.mbForce ini m t).pending = s.pending ∧ (s.mbForce ini m t).mem = s.mem ∧
    (s.mbForce ini m t).fuses = s.fuses := by
  unfold State.mbForce
  dsimp only
  (repeat' split) <;> simp

@[simp] theorem State.writeMbox_frame (s : State) (ini : Initiator) (t m r : Nat) (v mask : Word) :
    (State.writeMbox s ini t m r v mask).pending = s.pending ∧ (State.writeMbox s ini t m r v mask).mem = s.mem ∧
    (State.writeMbox s ini t m r v mask).fuses = s.fuses := by
  simp [State.writeMbox]

@[simp] theorem State.writeMboxBlock_frame (s : State) (ini : Initiator) (o : Nat) (v mask : Word) :
    (State.writeMboxBlock s ini o v mask).pending = s.pending ∧ (State.writeMboxBlock s ini o v mask).mem = s.mem ∧
    (State.writeMboxBlock s ini o v mask).fuses = s.fuses := by
  unfold State.writeMboxBlock
  (repeat' split)
  all_goals (simp)

theorem same_ite {α} (c : Prop) [Decidable c] (s : State) (a b : α × State) (ha : State.same s a.2) (hb : State.same s b.2) :
    State.same s (if c then a else b).2 := by
  split <;> assumption

@[simp] theorem State.readMbox_frame (s : State) (t m r : Nat) : (State.readMbox s t m r).2.pending = s.pending ∧
    (State.readMbox s t m r).2.mem = s.mem ∧ (State.readMbox s t m r).2.fuses = s.fuses := by
  unfold State.readMbox
  extract_lets b b' k
  change State.same s (Prod.snd _)
  repeat' apply same_ite
  all_goals simp [State.same]

@[simp] theorem State.readMboxBlock_frame (s : State) (ini : Initiator) (o : Nat) :
    (State.readMboxBlock s ini o).2.pending = s.pending ∧ (State.readMboxBlock s ini o).2.mem = s.mem ∧
    (State.readMboxBlock s ini o).2.fuses = s.fuses := by
  unfold State.readMboxBlock
  dsimp only
  (repeat' split)
  all_goals (simp [*])

@[simp] theorem State.writeChan_frame (s : State) (c r : Nat) (v mask : Word) :
    (State.writeChan s c r v mask).pending = s.pending ∧ (State.writeChan s c r v mask).fuses = s.fuses := by
  simp [State.writeChan]

@[simp] theorem State.writeChan_wf (s : State) (c r : Nat) (v mask : Word) (hm : Memory.wf s.mem = true) :
    Memory.wf (State.writeChan s c r v mask).mem = true := by
  unfold State.writeChan
  dsimp only
  (repeat' split)
  all_goals (simp [*])

@[simp] theorem State.writeGrp_frame (s : State) (g r : Nat) (v mask : Word) :
    (State.writeGrp s g r v mask).pending = s.pending ∧ (State.writeGrp s g r v mask).fuses = s.fuses := by
  simp [State.writeGrp]

@[simp] theorem State.writeGrp_wf (s : State) (g r : Nat) (v mask : Word) (hm : Memory.wf s.mem = true) :
    Memory.wf (State.writeGrp s g r v mask).mem = true := by
  unfold State.writeGrp
  dsimp only
  (repeat' split)
  all_goals (simp [*])

@[simp] theorem State.writeLdg_frame (s : State) (g r : Nat) (v mask : Word) :
    (State.writeLdg s g r v mask).pending = s.pending ∧ (State.writeLdg s g r v mask).mem = s.mem ∧
    (State.writeLdg s g r v mask).fuses = s.fuses := by
  simp [State.writeLdg]

@[simp] theorem State.writeQm_frame (s : State) (r : Nat) (v mask : Word) :
    (State.writeQm s r v mask).pending = s.pending ∧ (State.writeQm s r v mask).mem = s.mem ∧
    (State.writeQm s r v mask).fuses = s.fuses := by
  simp [State.writeQm]

@[simp] theorem State.writeVine_frame (s : State) (ini : Initiator) (o : Nat) (v mask : Word) :
    (State.writeVine s ini o v mask).pending = s.pending ∧ (State.writeVine s ini o v mask).fuses = s.fuses := by
  change State.near s _
  unfold State.writeVine
  split
  · simp [State.near]
  · refine State.vineWrite_frame _ _ _ _ _ ?_
    split <;> simp

@[simp] theorem State.writeVine_wf (s : State) (ini : Initiator) (o : Nat) (v mask : Word) (hm :
    Memory.wf s.mem = true) : Memory.wf (State.writeVine s ini o v mask).mem = true := by
  change State.ok _
  unfold State.writeVine
  split
  · exact hm
  · refine State.vineWrite_wf _ _ _ _ _ hm ?_
    split <;> simp [hm]

@[simp] theorem State.readChan_frame (s : State) (c r : Nat) : (State.readChan s c r).2.pending = s.pending ∧
    (State.readChan s c r).2.mem = s.mem ∧ (State.readChan s c r).2.fuses = s.fuses := by
  unfold State.readChan
  (repeat' split)
  all_goals (simp)

@[simp] theorem State.readVinePlace_frame (s : State) (x : VinePlace) : (s.readVinePlace x).2.pending = s.pending ∧
    (s.readVinePlace x).2.mem = s.mem ∧ (s.readVinePlace x).2.fuses = s.fuses := by
  cases x <;> (unfold State.readVinePlace; (repeat' split)) <;> simp

@[simp] theorem State.readVine_frame (s : State) (ini : Initiator) (o : Nat) :
    (State.readVine s ini o).2.pending = s.pending ∧ (State.readVine s ini o).2.mem = s.mem ∧
    (State.readVine s ini o).2.fuses = s.fuses := by
  unfold State.readVine
  split
  · simp
  · split <;> simp

@[simp] theorem State.writeTimer_frame (s : State) (ini : Initiator) (k r : Nat) (v mask : Word) :
    (State.writeTimer s ini k r v mask).pending = s.pending ∧ (State.writeTimer s ini k r v mask).mem = s.mem ∧
    (State.writeTimer s ini k r v mask).fuses = s.fuses := by
  unfold State.writeTimer
  refine State.timerWrite_frame _ _ _ _ _ ?_
  change State.same s _
  dsimp only
  (repeat' split) <;> simp [State.same]

@[simp] theorem State.writeTally_frame (s : State) (r : Nat) (v mask : Word) :
    (State.writeTally s r v mask).pending = s.pending ∧ (State.writeTally s r v mask).mem = s.mem ∧
    (State.writeTally s r v mask).fuses = s.fuses := by
  change State.same s _
  unfold State.writeTally
  dsimp only
  (repeat' split) <;> simp [State.same]

@[simp] theorem State.readTally_frame (s : State) (r : Nat) : (State.readTally s r).2.pending = s.pending ∧
    (State.readTally s r).2.mem = s.mem ∧ (State.readTally s r).2.fuses = s.fuses := by
  unfold State.readTally
  (repeat' split)
  all_goals (simp)

@[simp] theorem State.writeUsb_frame (s : State) (o : Nat) (v mask : Word) :
    (State.writeUsb s o v mask).pending = s.pending ∧ (State.writeUsb s o v mask).mem = s.mem ∧
    (State.writeUsb s o v mask).fuses = s.fuses := by
  simp [State.writeUsb]

@[simp] theorem State.i2cCmd_frame (s : State) (n : Nat) (w : Word) (start : Bool) :
    (State.i2cCmd s n w start).pending = s.pending ∧ (State.i2cCmd s n w start).mem = s.mem ∧
    (State.i2cCmd s n w start).fuses = s.fuses := by
  simp [State.i2cCmd]

@[simp] theorem State.writeSerial_frame (s : State) (o : Nat) (v mask : Word) :
    (State.writeSerial s o v mask).pending = s.pending ∧ (State.writeSerial s o v mask).mem = s.mem ∧
    (State.writeSerial s o v mask).fuses = s.fuses := by
  simp [State.writeSerial]

@[simp] theorem State.spkRefresh_frame (s : State) (b d : Nat) : (s.spkRefresh b d).pending = s.pending ∧ (s.spkRefresh b d).mem = s.mem ∧
    (s.spkRefresh b d).fuses = s.fuses := by
  unfold State.spkRefresh; dsimp only; split <;> first | exact ⟨rfl, rfl, rfl⟩ | simp

@[simp] theorem State.writeSpoke_frame (s : State) (ini : Initiator) (o : Nat) (v mask : Word) :
    (State.writeSpoke s ini o v mask).pending = s.pending ∧ (State.writeSpoke s ini o v mask).mem = s.mem ∧
    (State.writeSpoke s ini o v mask).fuses = s.fuses := by
  change State.same s _
  unfold State.writeSpoke
  dsimp only
  (repeat' split) <;> simp [State.same]

@[simp] theorem State.sharedWrite_frame (s : State) (ini : Initiator) (a : Nat) (v mask : Word) :
    (State.sharedWrite s ini a v mask).pending = s.pending ∧ (State.sharedWrite s ini a v mask).fuses = s.fuses := by
  change State.near s _
  unfold State.sharedWrite
  extract_lets o warden
  clear_value o
  generalize (a - 0x13000000) / 0x10000 = k
  simp only [warden]
  split
  all_goals (repeat' split)
  all_goals simp [State.near]

@[simp] theorem State.sharedWrite_wf (s : State) (ini : Initiator) (a : Nat) (v mask : Word) (hm :
    Memory.wf s.mem = true) : Memory.wf (State.sharedWrite s ini a v mask).mem = true := by
  change State.ok _
  unfold State.sharedWrite
  extract_lets o warden
  clear_value o
  generalize (a - 0x13000000) / 0x10000 = k
  simp only [warden]
  split
  all_goals (repeat' split)
  all_goals simp [State.ok, hm]

@[simp] theorem State.sharedReadAt_frame (s : State) (ini : Initiator) (k o : Nat) :
    (State.sharedReadAt s ini k o).2.pending = s.pending ∧ (State.sharedReadAt s ini k o).2.mem = s.mem ∧
    (State.sharedReadAt s ini k o).2.fuses = s.fuses := by
  unfold State.sharedReadAt
  (repeat' split)
  all_goals (simp)

@[simp] theorem State.sharedRead_frame (s : State) (ini : Initiator) (a : Nat) :
    (State.sharedRead s ini a).2.pending = s.pending ∧ (State.sharedRead s ini a).2.mem = s.mem ∧
    (State.sharedRead s ini a).2.fuses = s.fuses := by
  exact State.sharedReadAt_frame _ _ _ _

@[simp] theorem State.mgmtWrite_frame (s : State) (ini : Initiator) (a : Nat) (v mask : Word) :
    (State.mgmtWrite s ini a v mask).pending = s.pending ∧ (State.mgmtWrite s ini a v mask).mem = s.mem ∧
    (State.mgmtWrite s ini a v mask).fuses = s.fuses := by
  change State.same s _
  unfold State.mgmtWrite
  generalize a - 0x10000000 = o
  dsimp only
  (repeat' split) <;> first | exact ⟨rfl, rfl, rfl⟩ | simp [State.same]

@[simp] theorem State.mgmtRead_frame (s : State) (a : Nat) : (State.mgmtRead s a).2.pending = s.pending ∧
    (State.mgmtRead s a).2.mem = s.mem ∧ (State.mgmtRead s a).2.fuses = s.fuses := by
  have h : ∀ (c : Prop) [Decidable c] (a b : Word × State), State.same s a.2 → State.same s b.2 →
      State.same s (if c then a else b).2 := by
    intro c _ a b ha hb; split <;> assumption
  suffices h : ∀ q, s.mgmtRead a = q → State.same s q.2 from h _ rfl
  intro q hq
  unfold State.mgmtRead at hq
  extract_lets o p at hq
  clear_value o
  subst hq
  repeat' (first | exact ⟨rfl, rfl, rfl⟩ | apply h)

@[simp] theorem State.sectorWrite_frame (s : State) (ini : Initiator) (a : Nat) (v mask : Word) :
    (State.sectorWrite s ini a v mask).pending = s.pending ∧ (State.sectorWrite s ini a v mask).fuses = s.fuses := by
  change State.near s _
  unfold State.sectorWrite
  extract_lets sec slot o cmd
  clear_value sec slot o
  (repeat' split) <;> simp [State.near]

@[simp] theorem State.sectorWrite_wf (s : State) (ini : Initiator) (a : Nat) (v mask : Word) (hm :
    Memory.wf s.mem = true) : Memory.wf (State.sectorWrite s ini a v mask).mem = true := by
  change State.ok _
  have h1 := fun s ini i o v mask hm => State.applyWrite_wf s State.pressAbort ini i o v mask hm (fun t j h => State.pressAbort_wf t j h)
  unfold State.sectorWrite
  extract_lets sec slot o cmd
  clear_value sec slot o
  (repeat' split) <;> simp [State.ok, hm, h1]

@[simp] theorem State.sectorRead_frame (s : State) (a : Nat) : (State.sectorRead s a).2.pending = s.pending ∧
    (State.sectorRead s a).2.mem = s.mem ∧ (State.sectorRead s a).2.fuses = s.fuses := by
  unfold State.sectorRead
  dsimp only
  (repeat' split)
  all_goals (simp [*])

theorem State.memWord_kept (s : State) (a : Nat) (v mask : Word) : Kept s (s.memWord a v mask) := by
  unfold State.memWord
  split
  · rename_i h
    have h1 : Kept s _ := State.openRanges_eq h
    exact h1.trans (foldl_kept _ (fun s k => ite_kept _ ⟨by simp, by simp, fun h => by simp [h]⟩ (kept_self _)) _ _)
  · rename_i h
    exact State.openRanges_eq h

@[simp] theorem State.memWord_frame (s : State) (a : Nat) (v mask : Word) : (s.memWord a v mask).pending = s.pending ∧ (s.memWord a v mask).fuses = s.fuses :=
  ⟨(State.memWord_kept s a v mask).1, (State.memWord_kept s a v mask).2.1⟩

@[simp] theorem State.memWord_wf (s : State) (a : Nat) (v mask : Word) (hm : Memory.wf s.mem = true) : Memory.wf (s.memWord a v mask).mem = true := (State.memWord_kept s a v mask).2.2 hm

@[simp] theorem State.busWrite_frame (s : State) (ini : Initiator) (a : Nat) (v mask : Word) :
    (State.busWrite s ini a v mask).pending = s.pending ∧ (State.busWrite s ini a v mask).fuses = s.fuses := by
  change State.near s _
  unfold State.busWrite
  extract_lets warden i
  clear_value i
  simp only [warden]
  (repeat' split) <;> simp [State.near]

@[simp] theorem State.busWrite_wf (s : State) (ini : Initiator) (a : Nat) (v mask : Word) (hm :
    Memory.wf s.mem = true) : Memory.wf (State.busWrite s ini a v mask).mem = true := by
  change State.ok _
  unfold State.busWrite
  extract_lets warden i
  clear_value i
  simp only [warden]
  (repeat' split) <;> simp [State.ok, hm]

@[simp] theorem State.readMem_frame (s : State) (a : Nat) : (s.readMem a).2.pending = s.pending ∧ (s.readMem a).2.fuses = s.fuses := by
  simp [State.readMem]

@[simp] theorem State.readMem_wf (s : State) (a : Nat) (hm : Memory.wf s.mem = true) : Memory.wf (s.readMem a).2.mem = true := by
  simp [State.readMem, hm]

theorem State.busRead_kept (s : State) (ini : Initiator) (a : Nat) : Kept s ((s.busRead ini a).2) := by
  unfold State.busRead
  dsimp only
  (repeat' split)
  all_goals exact ⟨by simp, by simp, fun h => by simp [h]⟩

@[simp] theorem State.busRead_frame (s : State) (ini : Initiator) (a : Nat) : ((s.busRead ini a).2).pending = s.pending ∧ ((s.busRead ini a).2).fuses = s.fuses :=
  ⟨(State.busRead_kept s ini a).1, (State.busRead_kept s ini a).2.1⟩

@[simp] theorem State.busRead_wf (s : State) (ini : Initiator) (a : Nat) (hm : Memory.wf s.mem = true) : Memory.wf ((s.busRead ini a).2).mem = true := (State.busRead_kept s ini a).2.2 hm

theorem State.loadDone_kept (s : State) (core : Nat) (p : PendLoad) (base : Nat) (evict : Option Nat) : Kept s (s.loadDone core p base evict) := by
  have h : ∀ (t : State) (c : Core), Kept t (t.setCore core c) := fun t c => kept_of_same (by simp) (by simp) (by simp)
  unfold State.loadDone
  dsimp only
  split
  · split <;> exact h _ _
  · exact ite_kept _ (h _ _) ((State.busRead_kept _ _ _).trans (h _ _))

@[simp] theorem State.loadDone_frame (s : State) (core : Nat) (p : PendLoad) (base : Nat) (evict : Option Nat) : (s.loadDone core p base evict).pending = s.pending ∧ (s.loadDone core p base evict).fuses = s.fuses :=
  ⟨(State.loadDone_kept s core p base evict).1, (State.loadDone_kept s core p base evict).2.1⟩

@[simp] theorem State.loadDone_wf (s : State) (core : Nat) (p : PendLoad) (base : Nat) (evict : Option Nat) (hm : Memory.wf s.mem = true) : Memory.wf (s.loadDone core p base evict).mem = true := (State.loadDone_kept s core p base evict).2.2 hm

@[simp] theorem State.writeHostPort_frame (s : State) (p o : Nat) (v : Word) :
    (State.writeHostPort s p o v).pending = s.pending ∧ (State.writeHostPort s p o v).mem = s.mem ∧
    (State.writeHostPort s p o v).fuses = s.fuses := by
  simp [State.writeHostPort]

@[simp] theorem State.hostWrite_frame (s : State) (p o : Nat) (v : Word) :
    (State.hostWrite s p o v).pending = s.pending ∧ (State.hostWrite s p o v).fuses = s.fuses := by
  simp [State.hostWrite]

@[simp] theorem State.hostWrite_wf (s : State) (p o : Nat) (v : Word) (hm : Memory.wf s.mem = true) :
    Memory.wf (State.hostWrite s p o v).mem = true := by
  change State.ok _
  unfold State.hostWrite
  dsimp only
  (repeat' split) <;> simp [State.ok, hm]

@[simp] theorem State.hostRead_frame (s : State) (p o : Nat) : (State.hostRead s p o).2.pending = s.pending ∧
    (State.hostRead s p o).2.mem = s.mem ∧ (State.hostRead s p o).2.fuses = s.fuses := by
  unfold State.hostRead
  dsimp only
  (repeat' split)
  all_goals (simp [*])

/-! ### Operations of Machine/PipMem.lean -/

@[simp] theorem State.unreported_frame (s t : State) : (s.unreported t).pending = t.pending ∧ (s.unreported t).mem = t.mem ∧
    (s.unreported t).fuses = t.fuses := by
  simp [State.unreported]

theorem State.putWord_kept (s : State) (e : WbEntry) : Kept s (s.putWord e) := by
  unfold State.putWord
  split
  · rename_i h
    have h1 : Kept s _ := State.openRanges_eq h
    exact h1.trans (foldl_kept _ (fun s k => ite_kept _ ⟨by simp, by simp, fun h => by simp [h]⟩ (kept_self _)) _ _)
  · rename_i h
    exact State.openRanges_eq h

@[simp] theorem State.putWord_frame (s : State) (e : WbEntry) : (s.putWord e).pending = s.pending ∧ (s.putWord e).fuses = s.fuses :=
  ⟨(State.putWord_kept s e).1, (State.putWord_kept s e).2.1⟩

@[simp] theorem State.putWord_wf (s : State) (e : WbEntry) (hm : Memory.wf s.mem = true) : Memory.wf (s.putWord e).mem = true := (State.putWord_kept s e).2.2 hm

theorem State.putEntry_kept (s : State) (k : Nat) (e : WbEntry) : Kept s (s.putEntry k e) := by
  unfold State.putEntry
  dsimp only
  (repeat' split) <;> exact ⟨by simp, by simp, fun h => by simp [h]⟩

@[simp] theorem State.putEntry_frame (s : State) (k : Nat) (e : WbEntry) : (s.putEntry k e).pending = s.pending ∧ (s.putEntry k e).fuses = s.fuses :=
  ⟨(State.putEntry_kept s k e).1, (State.putEntry_kept s k e).2.1⟩

@[simp] theorem State.putEntry_wf (s : State) (k : Nat) (e : WbEntry) (hm : Memory.wf s.mem = true) : Memory.wf (s.putEntry k e).mem = true := (State.putEntry_kept s k e).2.2 hm

@[simp] theorem State.drainAll_frame (s : State) (k : Nat) : (State.drainAll s k).pending = s.pending ∧
    (State.drainAll s k).fuses = s.fuses := by
  simp [State.drainAll]

@[simp] theorem State.drainAll_wf (s : State) (k : Nat) (hm : Memory.wf s.mem = true) :
    Memory.wf (State.drainAll s k).mem = true := by
  unfold State.drainAll
  (repeat' split)
  all_goals (simp_all)

@[simp] theorem State.flushCore_frame (s : State) (k : Nat) : (State.flushCore s k).pending = s.pending ∧
    (State.flushCore s k).fuses = s.fuses := by
  simp [State.flushCore]

@[simp] theorem State.flushCore_wf (s : State) (k : Nat) (hm : Memory.wf s.mem = true) :
    Memory.wf (State.flushCore s k).mem = true := by
  unfold State.flushCore
  (repeat' split)
  all_goals (simp_all)

/-! ### Operations of Machine/ChordRun.lean -/

theorem State.chordWrite_kept (s : State) (ini : Initiator) (i o : Nat) (v mask : Word) : Kept s (s.chordWrite ini i o v mask) := by
  unfold State.chordWrite
  exact ⟨by simp, by simp, fun h => by simp [h]⟩

@[simp] theorem State.chordWrite_frame (s : State) (ini : Initiator) (i o : Nat) (v mask : Word) :
    (s.chordWrite ini i o v mask).pending = s.pending ∧ (s.chordWrite ini i o v mask).fuses = s.fuses :=
  ⟨(State.chordWrite_kept s ini i o v mask).1, (State.chordWrite_kept s ini i o v mask).2.1⟩

@[simp] theorem State.chordWrite_wf (s : State) (ini : Initiator) (i o : Nat) (v mask : Word) (hm : Memory.wf s.mem = true) :
    Memory.wf (s.chordWrite ini i o v mask).mem = true := (State.chordWrite_kept s ini i o v mask).2.2 hm

@[simp] theorem State.arrive_frame (s : State) (i : Nat) (w : ChordWrite) :
    (State.arrive s i w).pending = s.pending ∧ (State.arrive s i w).fuses = s.fuses := by
  simp [State.arrive]

@[simp] theorem State.arrive_wf (s : State) (i : Nat) (w : ChordWrite) (hm : Memory.wf s.mem = true) :
    Memory.wf (State.arrive s i w).mem = true := by
  unfold State.arrive
  (repeat' split)
  all_goals (simp_all)

@[simp] theorem State.deliver_frame (s : State) (i : Nat) : (State.deliver s i).pending = s.pending ∧
    (State.deliver s i).fuses = s.fuses := by
  simp [State.deliver]

@[simp] theorem State.deliver_wf (s : State) (i : Nat) (hm : Memory.wf s.mem = true) :
    Memory.wf (State.deliver s i).mem = true := by
  unfold State.deliver
  dsimp only
  (repeat' split)
  all_goals (simp_all)

@[simp] theorem State.arriveReflex_frame (s : State) (i : Nat) (w : ChordWrite) :
    (State.arriveReflex s i w).pending = s.pending ∧ (State.arriveReflex s i w).fuses = s.fuses := by
  simp [State.arriveReflex]

@[simp] theorem State.arriveReflex_wf (s : State) (i : Nat) (w : ChordWrite) (hm : Memory.wf s.mem = true) :
    Memory.wf (State.arriveReflex s i w).mem = true := by
  unfold State.arriveReflex
  split <;> simp [hm]

@[simp] theorem State.cycleEnd_frame (s : State) : (s.cycleEnd).pending = s.pending ∧ (s.cycleEnd).mem = s.mem ∧
    (s.cycleEnd).fuses = s.fuses := by
  simp [State.cycleEnd]

@[simp] theorem State.pass_frame (s : State) : (s.pass).pending = s.pending ∧ (s.pass).mem = s.mem ∧
    (s.pass).fuses = s.fuses := by
  simp [State.pass]

theorem State.idle_kept (s : State) : Kept s (s.idle) := by
  unfold State.idle
  split
  · exact kept_self s
  · dsimp only
    split
    · have h := fun t => foldl_kept State.deliver (fun s i => ⟨by simp, by simp, fun h => by simp [h]⟩) (List.range 4) t
      refine Kept.trans ?_ (h _)
      exact kept_of_same (by simp) (by simp) (by simp)
    · exact kept_of_same (by simp) (by simp) (by simp)

@[simp] theorem State.idle_frame (s : State) : (s.idle).pending = s.pending ∧ (s.idle).fuses = s.fuses :=
  ⟨(State.idle_kept s).1, (State.idle_kept s).2.1⟩

@[simp] theorem State.idle_wf (s : State) (hm : Memory.wf s.mem = true) : Memory.wf (s.idle).mem = true := (State.idle_kept s).2.2 hm

/-! ### Operations of Machine/Power.lean -/

@[simp] theorem State.scrubNext_frame (s : State) (a : Nat) : (s.scrubNext a).pending = s.pending ∧ (s.scrubNext a).mem = s.mem ∧
    (s.scrubNext a).fuses = s.fuses := by
  unfold State.scrubNext
  split <;> simp

@[simp] theorem State.sampleHigh_frame (s : State) : (s.sampleHigh).pending = s.pending ∧ (s.sampleHigh).mem = s.mem ∧
    (s.sampleHigh).fuses = s.fuses := by
  unfold State.sampleHigh
  exact foldl_keep _ (fun s a => by simp) _ _

@[simp] theorem State.cleared_frame (s : State) (journals : Bool) :
    (State.cleared s journals).pending = s.pending ∧ (State.cleared s journals).fuses = s.fuses := by
  simp [State.cleared]

@[simp] theorem State.cleared_wf (s : State) (journals : Bool) (hm : Memory.wf s.mem = true) :
    Memory.wf (State.cleared s journals).mem = true := by
  rfl

@[simp] theorem State.stampCause_frame (s : State) (cause : Nat) : (State.stampCause s cause).pending = s.pending ∧
    (State.stampCause s cause).mem = s.mem ∧ (State.stampCause s cause).fuses = s.fuses := by
  simp [State.stampCause]

@[simp] theorem State.releaseWA_frame (s : State) : (State.releaseWA s).pending = s.pending ∧
    (State.releaseWA s).mem = s.mem ∧ (State.releaseWA s).fuses = s.fuses := by
  simp [State.releaseWA]

@[simp] theorem State.crystalStarts_frame (s : State) : (State.crystalStarts s).pending = s.pending ∧
    (State.crystalStarts s).mem = s.mem ∧ (State.crystalStarts s).fuses = s.fuses := by
  simp [State.crystalStarts, State.draw]

@[simp] theorem State.toBoot_frame (s : State) (cause : Nat) (journals : Bool) :
    (State.toBoot s cause journals).pending = s.pending ∧ (State.toBoot s cause journals).fuses = s.fuses := by
  simp [State.toBoot]

@[simp] theorem State.toBoot_wf (s : State) (cause : Nat) (journals : Bool) (hm : Memory.wf s.mem = true) :
    Memory.wf (State.toBoot s cause journals).mem = true := by
  simp [State.toBoot, *]

@[simp] theorem State.toOff_frame (s : State) (p : Power → Power) : (State.toOff s p).pending = s.pending ∧
    (State.toOff s p).fuses = s.fuses := by
  simp [State.toOff]

@[simp] theorem State.toOff_wf (s : State) (p : Power → Power) (hm : Memory.wf s.mem = true) :
    Memory.wf (State.toOff s p).mem = true := by
  simp [State.toOff, *]

@[simp] theorem State.aonLost_frame (s : State) : (State.aonLost s).pending = s.pending ∧
    (State.aonLost s).mem = s.mem ∧ (State.aonLost s).fuses = s.fuses := by
  simp [State.aonLost]

@[simp] theorem State.supply_frame (s : State) (onBat low : Bool) :
    (State.supply s onBat low).pending = s.pending ∧ (State.supply s onBat low).mem = s.mem ∧
    (State.supply s onBat low).fuses = s.fuses := by
  simp [State.supply]

@[simp] theorem State.io18Rises_frame (s : State) : (State.io18Rises s).pending = s.pending ∧
    (State.io18Rises s).mem = s.mem ∧ (State.io18Rises s).fuses = s.fuses := by
  simp [State.io18Rises]

@[simp] theorem State.io18Falls_frame (s : State) (others : Bool) :
    (State.io18Falls s others).pending = s.pending ∧ (State.io18Falls s others).fuses = s.fuses := by
  simp [State.io18Falls]

@[simp] theorem State.io18Falls_wf (s : State) (others : Bool) (hm : Memory.wf s.mem = true) :
    Memory.wf (State.io18Falls s others).mem = true := by
  unfold State.io18Falls
  dsimp only
  (repeat' split)
  all_goals (simp [*])

@[simp] theorem State.allPortsOff_frame (s : State) : (State.allPortsOff s).pending = s.pending ∧
    (State.allPortsOff s).mem = s.mem ∧ (State.allPortsOff s).fuses = s.fuses := by
  unfold State.allPortsOff
  exact foldl_keep _ (fun s k => by change State.same s _; (try dsimp only); (repeat' split) <;> simp [State.same]) _ _

@[simp] theorem State.enterAttract_frame (s : State) : (State.enterAttract s).pending = s.pending ∧
    (State.enterAttract s).mem = s.mem ∧ (State.enterAttract s).fuses = s.fuses := by
  simp [State.enterAttract]

@[simp] theorem State.leaveAttract_frame (s : State) : (State.leaveAttract s).pending = s.pending ∧
    (State.leaveAttract s).mem = s.mem ∧ (State.leaveAttract s).fuses = s.fuses := by
  simp [State.leaveAttract]

@[simp] theorem State.repairLate_frame (s : State) : (State.repairLate s).pending = s.pending ∧
    (State.repairLate s).fuses = s.fuses := by
  simp [State.repairLate]

@[simp] theorem State.repairLate_wf (s : State) (hm : Memory.wf s.mem = true) :
    Memory.wf (State.repairLate s).mem = true := by
  unfold State.repairLate
  refine foldl_wf _ (fun s c h => ?_) _ _ hm
  dsimp only
  split
  · exact foldl_wf _ (fun s i h => by simp [h]) _ _ (by simpa using h)
  · simpa using h

@[simp] theorem State.serviceCheck_frame (s : State) : (State.serviceCheck s).pending = s.pending ∧
    (State.serviceCheck s).mem = s.mem ∧ (State.serviceCheck s).fuses = s.fuses := by
  simp [State.serviceCheck]

@[simp] theorem State.beginService_frame (s : State) (w : Nat) : (State.beginService s w).pending = s.pending ∧
    (State.beginService s w).mem = s.mem ∧ (State.beginService s w).fuses = s.fuses := by
  have h := fun (l : List Nat) t => foldl_keep (fun (s : State) i =>
    match (s.stage i).phase with
    | .empty => s
    | .running => s.modStage i fun st => { st with stopReq := true }
    | _ => s.stopStage i) (fun s i => by (try dsimp only); split <;> simp) l t
  unfold State.beginService
  dsimp only
  simp only [State.serviceCheck_frame]
  exact h _ { s with power := { s.power with target := .service, asker := some w } }

@[simp] theorem State.recordWake_frame (s : State) (e : Nat × Nat) (aborted : Bool) (ap : Nat) (m : Mode) :
    (State.recordWake s e aborted ap m).pending = s.pending ∧ (State.recordWake s e aborted ap m).mem = s.mem ∧
    (State.recordWake s e aborted ap m).fuses = s.fuses := by
  simp [State.recordWake]

@[simp] theorem State.beginEntry_frame (s : State) (w : Nat) (m : Mode) :
    (State.beginEntry s w m).pending = s.pending ∧ (State.beginEntry s w m).mem = s.mem ∧
    (State.beginEntry s w m).fuses = s.fuses := by
  simp [State.beginEntry]

@[simp] theorem State.parkChannels_frame (s : State) : (State.parkChannels s).pending = s.pending ∧
    (State.parkChannels s).mem = s.mem ∧ (State.parkChannels s).fuses = s.fuses := by
  unfold State.parkChannels
  split
  · exact foldl_keep _ (fun s c => by simp) _ _
  · exact ⟨rfl, rfl, rfl⟩

@[simp] theorem State.beginStop_frame (s : State) : (State.beginStop s).pending = s.pending ∧
    (State.beginStop s).mem = s.mem ∧ (State.beginStop s).fuses = s.fuses := by
  unfold State.beginStop
  dsimp only
  simp only [State.parkChannels_frame]
  exact foldl_keep _ (fun s c => by simp) _ _

@[simp] theorem State.endStop_frame (s : State) : (State.endStop s).pending = s.pending ∧
    (State.endStop s).fuses = s.fuses := by
  simp [State.endStop]

@[simp] theorem State.endStop_wf (s : State) (hm : Memory.wf s.mem = true) :
    Memory.wf (State.endStop s).mem = true := by
  unfold State.endStop
  (repeat' split)
  all_goals (simp_all)

@[simp] theorem State.beginSave_frame (s : State) : (State.beginSave s).pending = s.pending ∧
    (State.beginSave s).mem = s.mem ∧ (State.beginSave s).fuses = s.fuses := by
  simp [State.beginSave]

@[simp] theorem State.copyAllStale_frame (s : State) : (State.copyAllStale s).pending = s.pending ∧
    (State.copyAllStale s).fuses = s.fuses := by
  simp [State.copyAllStale]

@[simp] theorem State.copyAllStale_wf (s : State) (hm : Memory.wf s.mem = true) :
    Memory.wf (State.copyAllStale s).mem = true := by
  unfold State.copyAllStale
  refine foldl_wf _ (fun s c h => ?_) _ _ hm
  split
  · exact h
  · exact foldl_wf _ (fun s k h => State.copyStale_wf s c h) _ _ h

@[simp] theorem State.endSave_frame (s : State) : (State.endSave s).pending = s.pending ∧
    (State.endSave s).fuses = s.fuses := by
  unfold State.endSave
  (repeat' split)
  all_goals (simp)

@[simp] theorem State.endSave_wf (s : State) (hm : Memory.wf s.mem = true) :
    Memory.wf (State.endSave s).mem = true := by
  change State.ok _
  unfold State.endSave
  split
  · simp [State.ok, hm]
  · simp only [State.ok]
    apply State.copyAllStale_wf
    apply State.drainMirrors_wf
    refine foldl_wf _ (fun s k h => ?_) _ _ hm
    simp [h]
  · exact hm

theorem State.linkEvent_kept (s : State) (p : Nat) (st : BitVec 11) (u c : Word) : Kept s (s.linkEvent p st u c) := by
  unfold State.linkEvent
  extract_lets e st' link perst aer sub s1 s2 s3 lost up
  have h1 : Kept s s1 := kept_self _
  have h2 : Kept s1 s2 := kept_of_same (by simp [s2]) (by simp [s2]) (by simp [s2])
  have h3 : Kept s2 s3 := by
    simp only [s3]
    exact ite_kept _ (kept_of_same (by simp) (by simp) (by simp)) (kept_self _)
  have h4 := (h1.trans h2).trans h3
  clear_value s3
  refine h4.trans (Kept.trans (t := if lost = true then s3.driveLost p else if up = true then s3.driveState p 1 else s3) ?_
    (kept_of_same (by simp) (by simp) (by simp)))
  exact ite_kept _ ⟨by simp, by simp, fun h => State.driveLost_wf _ _ h⟩
    (ite_kept _ (kept_of_same (by simp) (by simp) (by simp)) (kept_self _))

@[simp] theorem State.linkEvent_frame (s : State) (p : Nat) (st : BitVec 11) (u c : Word) : (s.linkEvent p st u c).pending = s.pending ∧ (s.linkEvent p st u c).fuses = s.fuses :=
  ⟨(State.linkEvent_kept s p st u c).1, (State.linkEvent_kept s p st u c).2.1⟩

@[simp] theorem State.linkEvent_wf (s : State) (p : Nat) (st : BitVec 11) (u c : Word) (hm : Memory.wf s.mem = true) : Memory.wf (s.linkEvent p st u c).mem = true := (State.linkEvent_kept s p st u c).2.2 hm

theorem State.linkPower_kept (s : State) (k : Nat) : Kept s (s.linkPower k) := by
  unfold State.linkPower
  exact foldl_kept (fun (s : State) p => let st := (s.pep p).status
      if st.getLsbD 0 then s.linkEvent p ((st &&& 0x4FF) ||| BitVec.ofNat 11 (0x100 * k)) 0 0 else s)
    (fun s a => ite_kept _ (State.linkEvent_kept _ _ _ _ _) (kept_self _)) (List.range 2) s

@[simp] theorem State.linkPower_frame (s : State) (k : Nat) : (s.linkPower k).pending = s.pending ∧ (s.linkPower k).fuses = s.fuses :=
  ⟨(State.linkPower_kept s k).1, (State.linkPower_kept s k).2.1⟩

@[simp] theorem State.linkPower_wf (s : State) (k : Nat) (hm : Memory.wf s.mem = true) : Memory.wf (s.linkPower k).mem = true := (State.linkPower_kept s k).2.2 hm

theorem State.endPorts_kept (s : State) : Kept s (s.endPorts) := by
  unfold State.endPorts
  have h1 : Kept s s.allPortsOff := kept_of_same (by simp) (by simp) (by simp)
  exact (h1.trans (State.linkPower_kept _ _)).trans (ite_kept _ (kept_self _) (kept_self _))

@[simp] theorem State.endPorts_frame (s : State) : (s.endPorts).pending = s.pending ∧ (s.endPorts).fuses = s.fuses :=
  ⟨(State.endPorts_kept s).1, (State.endPorts_kept s).2.1⟩

@[simp] theorem State.endPorts_wf (s : State) (hm : Memory.wf s.mem = true) : Memory.wf (s.endPorts).mem = true := (State.endPorts_kept s).2.2 hm

@[simp] theorem State.takeMode_frame (s : State) : (State.takeMode s).pending = s.pending ∧
    (State.takeMode s).fuses = s.fuses := by
  change State.near s _
  unfold State.takeMode
  dsimp only
  split
  · simp [State.near]
  · have h := fun (l : List Nat) t => foldl_keep2 (fun (s : State) k => s.modCore k fun c =>
      if k < 20 then { c with dcache := [], icache := [], fetchBuf := none } else { c with run := .stopped }) (fun s a => by simp) l t
    simp [State.near, h]
  · simp [State.near]

@[simp] theorem State.takeMode_wf (s : State) (hm : Memory.wf s.mem = true) :
    Memory.wf (State.takeMode s).mem = true := by
  have h := fun (l : List Nat) t (f : Nat → Core → Core) => foldl_keep (fun (s : State) k => s.modCore k (f k)) (fun s a => by simp) l t
  change State.ok _
  unfold State.takeMode
  dsimp only
  split
  · simp [State.ok, hm]
  · simp only [State.ok]
    rw [(h _ _ (fun k c => if k < 20 then { c with dcache := [], icache := [], fetchBuf := none } else { c with run := .stopped })).2.1]
    simp [hm]
  · rfl

@[simp] theorem State.unparkChan_frame (s : State) (c : Nat) : (State.unparkChan s c).pending = s.pending ∧
    (State.unparkChan s c).fuses = s.fuses := by
  unfold State.unparkChan
  dsimp only
  (repeat' split)
  all_goals (simp [*])

@[simp] theorem State.unparkChan_wf (s : State) (c : Nat) (hm : Memory.wf s.mem = true) :
    Memory.wf (State.unparkChan s c).mem = true := by
  unfold State.unparkChan
  dsimp only
  (repeat' split)
  all_goals (simp [*])

theorem State.resumeAll_kept (s : State) : Kept s (s.resumeAll) := by
  unfold State.resumeAll
  extract_lets s1 st lp kp s2 up s3 s4 s5 s6 s7
  have h1 : Kept s s1 := foldl_kept _ (fun s k => kept_of_same (by simp) (by simp) (by simp)) _ _
  clear_value s1
  have h2 : Kept s1 s2 := kept_of_same rfl rfl rfl
  clear_value s2
  have h3 : Kept s2 s3 := foldl_kept _ (fun s k => ite_kept _ (kept_of_same (by simp) (by simp) (by simp)) (kept_self _)) _ _
  clear_value s3
  have h4 : Kept s3 s4 := foldl_kept _ (fun s k => ⟨by simp, by simp, fun h => by simp [h]⟩) _ _
  clear_value s4
  have h5 : Kept s4 s5 := ite_kept _ (State.linkPower_kept _ _) (kept_self _)
  clear_value s5
  have h6 : Kept s5 s6 := kept_of_same (by simp [s6]) (by simp [s6]) (by simp [s6])
  clear_value s6
  have h7 : Kept s6 s7 := foldl_kept _ (fun s k => kept_of_same (by simp) (by simp) (by simp)) _ _
  clear_value s7
  exact h1.trans (h2.trans (h3.trans (h4.trans (h5.trans (h6.trans (h7.trans ⟨by simp, by simp, fun h => by simp [h]⟩))))))

@[simp] theorem State.resumeAll_frame (s : State) : (s.resumeAll).pending = s.pending ∧ (s.resumeAll).fuses = s.fuses :=
  ⟨(State.resumeAll_kept s).1, (State.resumeAll_kept s).2.1⟩

@[simp] theorem State.resumeAll_wf (s : State) (hm : Memory.wf s.mem = true) : Memory.wf (s.resumeAll).mem = true := (State.resumeAll_kept s).2.2 hm

@[simp] theorem State.unwound_frame (s : State) : (State.unwound s).pending = s.pending ∧
    (State.unwound s).mem = s.mem ∧ (State.unwound s).fuses = s.fuses := by
  simp [State.unwound]

@[simp] theorem State.unwind_frame (s : State) (ap : Nat) : (State.unwind s ap).pending = s.pending ∧
    (State.unwind s ap).fuses = s.fuses := by
  unfold State.unwind
  (repeat' split)
  all_goals (simp)

@[simp] theorem State.unwind_wf (s : State) (ap : Nat) (hm : Memory.wf s.mem = true) :
    Memory.wf (State.unwind s ap).mem = true := by
  unfold State.unwind
  dsimp only
  (repeat' split)
  all_goals (simp [*])

@[simp] theorem State.clocksOn_frame (s : State) : (State.clocksOn s).pending = s.pending ∧
    (State.clocksOn s).fuses = s.fuses := by
  unfold State.clocksOn
  simp

@[simp] theorem State.clocksOn_wf (s : State) (hm : Memory.wf s.mem = true) :
    Memory.wf (State.clocksOn s).mem = true := by
  unfold State.clocksOn
  simp [hm]

/-! ### Operations of Machine/Warden.lean -/

theorem State.serveCmd_frame (s : State) (w op : Nat) (who : List Sender) (anyPip duringEntry : Bool) (n : Nat) (masks : List Word)
    (f : State → State) (hf : (f s).pending = s.pending ∧ (f s).fuses = s.fuses) :
    (s.serveCmd w op who anyPip duringEntry n masks f).pending = s.pending ∧ (s.serveCmd w op who anyPip duringEntry n masks f).fuses = s.fuses := by
  change State.near s _
  unfold State.serveCmd
  dsimp only
  (repeat' split) <;> simp [State.near, hf]

theorem State.serveCmd_wf (s : State) (w op : Nat) (who : List Sender) (anyPip duringEntry : Bool) (n : Nat) (masks : List Word)
    (f : State → State) (hm : Memory.wf s.mem = true) (hf : Memory.wf (f s).mem = true) :
    Memory.wf (s.serveCmd w op who anyPip duringEntry n masks f).mem = true := by
  change State.ok _
  unfold State.serveCmd
  dsimp only
  (repeat' split) <;> simp [State.ok, hm, hf]

@[simp] theorem State.answerBind_frame (s : State) (w i k l : Nat) :
    (State.answerBind s w i k l).pending = s.pending ∧ (State.answerBind s w i k l).mem = s.mem ∧
    (State.answerBind s w i k l).fuses = s.fuses := by
  simp [State.answerBind]

@[simp] theorem State.acceptLoad_frame (s : State) (w i src addr maxLen : Nat) (unload : Bool) :
    (State.acceptLoad s w i src addr maxLen unload).pending = s.pending ∧
    (State.acceptLoad s w i src addr maxLen unload).mem = s.mem ∧
    (State.acceptLoad s w i src addr maxLen unload).fuses = s.fuses := by
  simp [State.acceptLoad]

theorem State.shedDone_frame (s : State) (w a i l n sec : Nat) (f : State → State)
    (hf : ∀ s, (f s).pending = s.pending ∧ (f s).fuses = s.fuses) : (s.shedDone w a i l n sec f).pending = s.pending ∧ (s.shedDone w a i l n sec f).fuses = s.fuses := by
  simp [State.shedDone, hf]

theorem State.shedDone_wf (s : State) (w a i l n sec : Nat) (f : State → State) (hm : Memory.wf s.mem = true)
    (hf : ∀ s, Memory.wf s.mem = true → Memory.wf (f s).mem = true) : Memory.wf (s.shedDone w a i l n sec f).mem = true := by
  simp [State.shedDone, hf, hm]

@[simp] theorem State.writeSlot_frame (s : State) (n : Nat) (bs : List Byte) :
    (State.writeSlot s n bs).pending = s.pending ∧ (State.writeSlot s n bs).mem = s.mem ∧
    (State.writeSlot s n bs).fuses = s.fuses := by
  simp [State.writeSlot, State.draw]

end Sys2Proof.Machine
end

