-- ==== Sys2Proof/Laws/Commands.lean ====
section
/-!
SUPPORT. Every command answers a next state, leaves the queue and the fuses alone and keeps the canonical form of memory. One law
per command; `FUSE_PROGRAM` adds to the fuses, and `REGISTER_WRITE` may stop.
-/

set_option linter.unusedSimpArgs false

namespace Sys2Proof.Machine

/-- The command answered a next state that keeps what `Kept` names. -/
def Res.Keeps (s : State) : Res → Prop
  | .next t => Kept s t
  | _ => False

/-- A next state that keeps it. -/
theorem Res.keeps_next {s t : State} (h : Kept s t) : Res.Keeps s (.next t) := h

/-! ### What the shared operations of a family keep -/

/-- An instruction of a Pip keeps what its body keeps. -/
theorem pipIssueWith_kept (pair : Bool) (x : Issue) (word : Word) (undef : Core → Bool) (priv : Bool)
    (body : Body) (s : State) (hb : ∀ s c t d, body s c = .ok (t, d) → Kept s t) :
    Res.Keeps s (pipIssueWith pair x word undef priv body s) := by
  obtain ⟨t, h, hk⟩ := pipIssueWith_kept' pair x word undef priv body s hb
  rw [h]; exact hk

/-- A body that changes the core alone keeps everything. -/
theorem coreBody_kept (f : Core → Core) (s : State) (c : Core) (t : State) (d : Core) (h : coreBody f s c = .ok (t, d)) :
    Kept s t := by
  cases h; exact kept_self _

/-- An atomic keeps the canonical form, and everything but memory. -/
theorem atomicBody_kept (x : Issue) (rd ra rb : Reg) (f : Word → Word → Word) {s : State} {c : Core} {t : State} {d : Core}
    (h : atomicBody x rd ra rb f s c = .ok (t, d)) : Kept s t := by
  unfold atomicBody waitBody at h
  dsimp only at h
  split at h
  · cases h
  · split at h
    · cases h
    · split at h
      · cases h
      · split at h
        · cases h; exact kept_self s
        · generalize hq : State.readRanges _ _ = q at h
          have h1 : Kept s q.2 := by
            rw [← hq]
            exact (ite_kept _ (State.upset_kept _ _ _) (kept_self _)).trans (State.readRanges_kept _ _)
          split at h
          · cases h
            refine h1.trans ?_
            generalize leBytes _ 4 = bs
            have h2 : ∀ (u : State) (a : Nat), Kept u (u.setBytes a bs) := fun u a =>
              ⟨(State.setBytes_frame _ _ _).1, (State.setBytes_frame _ _ _).2, State.setBytes_wf⟩
            have hw : ∀ (u : State) (i a n : Nat), Kept u (u.watchMem i a n) := fun u i a n =>
              ⟨by simp, by simp, fun h => by simp [h]⟩
            split
            · exact (h2 (State.stalled _ _).1 _).trans (hw _ _ _ _)
            · exact h2 (State.stalled _ _).1 _
          · cases h; exact h1

/-- A command to a Warden keeps what its service keeps. -/
theorem State.serveCmd_kept (s : State) (w op : Nat) (who : List Sender) (anyPip duringEntry : Bool) (n : Nat) (masks : List Word)
    (f : State → State) (hf : Kept s (f s)) : Kept s (s.serveCmd w op who anyPip duringEntry n masks f) :=
  ⟨(serveCmd_frame s w op who anyPip duringEntry n masks f ⟨hf.1, hf.2.1⟩).1,
    (serveCmd_frame s w op who anyPip duringEntry n masks f ⟨hf.1, hf.2.1⟩).2,
    fun h => serveCmd_wf s w op who anyPip duringEntry n masks f h (hf.2.2 h)⟩

/-- A Chord instruction keeps what its effect keeps. -/
theorem chordStep_kept (op i : Nat) (s : State) (f : Nat → State → State) (hf : ∀ n, Kept s (f n s)) :
    Res.Keeps s (chordStep op i s f) := by
  unfold chordStep
  dsimp only
  split
  · exact hf _
  · exact kept_self s

/-- A write of a Vine register keeps what its effect keeps. -/
theorem State.vineWrite_kept (s : State) (i : Initiator) (may : Bool) (a : Nat) (f : State → State) (hf : Kept s (f s)) :
    Kept s (s.vineWrite i may a f) :=
  ⟨(vineWrite_frame s i may a f ⟨hf.1, hf.2.1⟩).1, (vineWrite_frame s i may a f ⟨hf.1, hf.2.1⟩).2,
    fun h => vineWrite_wf s i may a f h (hf.2.2 h)⟩

/-- A write of a timer register keeps what its effect keeps. -/
theorem State.timerWrite_kept (s : State) (i : Initiator) (k o : Nat) (f : State → State)
    (hf : (f s).pending = s.pending ∧ (f s).mem = s.mem ∧ (f s).fuses = s.fuses) : Kept s (s.timerWrite i k o f) := by
  obtain ⟨h1, h2, h3⟩ := timerWrite_frame s i k o f hf
  exact ⟨h1, h3, fun h => by rw [h2]; exact h⟩

/-! ### The commands -/

theorem execPowerGood_kept (s : State) : Res.Keeps s (execPowerGood s) := by
  unfold execPowerGood
  try dsimp only
  all_goals (refine Res.keeps_next ?_; refine ⟨?_, ?_, ?_⟩ <;> intros <;> simp [*])

theorem execRailEnRise_kept (s : State) : Res.Keeps s (execRailEnRise s) := by
  unfold execRailEnRise
  try dsimp only
  (repeat' split)
  all_goals (refine Res.keeps_next ?_; refine ⟨?_, ?_, ?_⟩ <;> intros <;> simp [*])

theorem execResetNRelease_kept (straps : BitVec 3) (qiPins : BitVec 64) (s : State)
    : Res.Keeps s (execResetNRelease straps qiPins s) := by
  unfold execResetNRelease
  try dsimp only
  (repeat' split)
  all_goals (refine Res.keeps_next ?_; refine ⟨?_, ?_, ?_⟩ <;> intros <;> simp [*])

theorem execResetNAssert_kept (s : State) : Res.Keeps s (execResetNAssert s) := by
  unfold execResetNAssert
  try dsimp only
  (repeat' split)
  all_goals (refine Res.keeps_next ?_; refine ⟨?_, ?_, ?_⟩ <;> intros <;> simp [*])

theorem execPowerLoss_kept (s : State) : Res.Keeps s (execPowerLoss s) := by
  unfold execPowerLoss
  try dsimp only
  all_goals (refine Res.keeps_next ?_; refine ⟨?_, ?_, ?_⟩ <;> intros <;> simp [*])

theorem execBrownOut_kept (s : State) : Res.Keeps s (execBrownOut s) := by
  unfold execBrownOut
  try dsimp only
  (repeat' split)
  all_goals (refine Res.keeps_next ?_; refine ⟨?_, ?_, ?_⟩ <;> intros <;> simp [*])

theorem execKeeperFailure_kept (s : State) : Res.Keeps s (execKeeperFailure s) := by
  unfold execKeeperFailure
  try dsimp only
  (repeat' split)
  all_goals (refine Res.keeps_next ?_; refine ⟨?_, ?_, ?_⟩ <;> intros <;> simp [*])

theorem execRootPllLoss_kept (xtalStopped : Bool) (s : State) : Res.Keeps s (execRootPllLoss xtalStopped s) := by
  unfold execRootPllLoss
  try dsimp only
  (repeat' split)
  all_goals (refine Res.keeps_next ?_; refine ⟨?_, ?_, ?_⟩ <;> intros <;> simp [*])

theorem execMonitoredRailFault_kept (s : State) : Res.Keeps s (execMonitoredRailFault s) := by
  unfold execMonitoredRailFault
  try dsimp only
  (repeat' split)
  all_goals (refine Res.keeps_next ?_; refine ⟨?_, ?_, ?_⟩ <;> intros <;> simp [*])

theorem execVddaDacFault_kept (s : State) : Res.Keeps s (execVddaDacFault s) := by
  unfold execVddaDacFault
  try dsimp only
  all_goals (refine Res.keeps_next ?_; refine ⟨?_, ?_, ?_⟩ <;> intros <;> simp [*])

theorem execVddIo33Loss_kept (s : State) : Res.Keeps s (execVddIo33Loss s) := by
  unfold execVddIo33Loss
  try dsimp only
  all_goals (refine Res.keeps_next ?_; refine ⟨?_, ?_, ?_⟩ <;> intros <;> simp [*])

theorem execAonSupplySwitch_kept (io18Good : Bool) (s : State) : Res.Keeps s (execAonSupplySwitch io18Good s) := by
  unfold execAonSupplySwitch
  try dsimp only
  (repeat' split)
  all_goals (refine Res.keeps_next ?_; refine ⟨?_, ?_, ?_⟩ <;> intros <;> simp [*])

theorem execVddBatLoss_kept (s : State) : Res.Keeps s (execVddBatLoss s) := by
  unfold execVddBatLoss
  try dsimp only
  (repeat' split)
  all_goals (refine Res.keeps_next ?_; refine ⟨?_, ?_, ?_⟩ <;> intros <;> simp [*])

theorem execPfwNAssert_kept (s : State) : Res.Keeps s (execPfwNAssert s) := by
  unfold execPfwNAssert
  try dsimp only
  all_goals (refine Res.keeps_next ?_; refine ⟨?_, ?_, ?_⟩ <;> intros <;> simp [*])

theorem execPfwNRelease_kept (s : State) : Res.Keeps s (execPfwNRelease s) := by
  unfold execPfwNRelease
  try dsimp only
  all_goals (refine Res.keeps_next ?_; refine ⟨?_, ?_, ?_⟩ <;> intros <;> simp [*])

theorem execFullLoadStart_kept (s : State) : Res.Keeps s (execFullLoadStart s) := by
  unfold execFullLoadStart
  try dsimp only
  (repeat' split)
  all_goals (refine Res.keeps_next ?_; refine ⟨?_, ?_, ?_⟩ <;> intros <;> simp [*])

theorem execAssetStoreWaitEnd_kept (s : State) : Res.Keeps s (execAssetStoreWaitEnd s) := by
  unfold execAssetStoreWaitEnd
  try dsimp only
  (repeat' split)
  all_goals (refine Res.keeps_next ?_; refine ⟨?_, ?_, ?_⟩ <;> intros <;> simp [*])

theorem execHostReadyWaitEnd_kept (s : State) : Res.Keeps s (execHostReadyWaitEnd s) := by
  unfold execHostReadyWaitEnd
  try dsimp only
  (repeat' split)
  all_goals (refine Res.keeps_next ?_; refine ⟨?_, ?_, ?_⟩ <;> intros <;> simp [*])

theorem execPeStageReady_kept (p : Nat) (s : State) : Res.Keeps s (execPeStageReady p s) := by
  unfold execPeStageReady
  try dsimp only
  all_goals (refine Res.keeps_next ?_; refine ⟨?_, ?_, ?_⟩ <;> intros <;> simp [*])

theorem execLoadPass1End_kept (image : List Byte) (s : State) : Res.Keeps s (execLoadPass1End image s) := by
  have hf : ∀ (u : State) (c : Nat), Kept u (u.failLoad c) := fun u c => ⟨by simp, by simp, fun h => by simp [h]⟩
  unfold execLoadPass1End
  dsimp only
  split
  · exact kept_self s
  · split
    · exact Res.keeps_next (ite_kept _ (hf _ _) (kept_self s))
    · have h1 := State.readLpxSource_kept s (s.sourceBytes image).length
      generalize s.readLpxSource (s.sourceBytes image).length = q at h1 ⊢
      (repeat' split) <;> refine Res.keeps_next (h1.trans ?_) <;> first | with_reducible exact hf _ _ | exact kept_of_same (by simp) (by simp) (by simp)

theorem execSourceReadError_kept (s : State) : Res.Keeps s (execSourceReadError s) := by
  unfold execSourceReadError
  try dsimp only
  (repeat' split)
  all_goals (refine Res.keeps_next ?_; refine ⟨?_, ?_, ?_⟩ <;> intros <;> simp [*])

theorem execLp5xTrained_kept (mts rawGib : Nat) (s : State) : Res.Keeps s (execLp5xTrained mts rawGib s) := by
  unfold execLp5xTrained
  try dsimp only
  (repeat' split)
  all_goals (refine Res.keeps_next ?_; refine ⟨?_, ?_, ?_⟩ <;> intros <;> simp [*])

theorem execLp5xZeroFillEnd_kept (s : State) : Res.Keeps s (execLp5xZeroFillEnd s) := by
  unfold execLp5xZeroFillEnd
  try dsimp only
  (repeat' split)
  all_goals (refine Res.keeps_next ?_; refine ⟨?_, ?_, ?_⟩ <;> intros <;> simp [*])

theorem execLoadPass2End_kept (image assets : List Byte) (s : State) : Res.Keeps s (execLoadPass2End image assets s) := by
  have hf : ∀ (u : State) (c : Nat), Kept u (u.failLoad c) := fun u c => ⟨by simp, by simp, fun h => by simp [h]⟩
  unfold execLoadPass2End
  dsimp only
  split
  · exact kept_self s
  · split
    · exact kept_self s
    · exact Res.keeps_next (hf _ _)
    · split
      · exact kept_self s
      · have h1 := State.readLpxSource_kept s s.load.image.length
        generalize s.readLpxSource s.load.image.length = q at h1 ⊢
        (repeat' split) <;>
          refine Res.keeps_next (h1.trans ?_) <;>
            first | with_reducible exact hf _ _ | with_reducible exact State.commitFull_kept _ _ _ | exact State.commitStage_kept _ _ _

theorem execSynthLocked_kept (p : Nat) (s : State) : Res.Keeps s (execSynthLocked p s) := by
  unfold execSynthLocked
  try dsimp only
  (repeat' split)
  all_goals (refine Res.keeps_next ?_; refine ⟨?_, ?_, ?_⟩ <;> intros <;> simp [*])

theorem execStageStart_kept (s : Nat) (st : State) : Res.Keeps st (execStageStart s st) := by
  unfold execStageStart
  try dsimp only
  (repeat' split)
  all_goals (refine Res.keeps_next ?_; refine ⟨?_, ?_, ?_⟩ <;> intros <;> simp [*])

theorem execHealth_kept (w : Nat) (tj : BitVec 16) (s : State) : Res.Keeps s (execHealth w tj s) := by
  refine Res.keeps_next (State.serveCmd_kept _ _ _ _ _ _ _ _ _ ?_)
  try dsimp only
  all_goals (refine ⟨?_, ?_, ?_⟩ <;> intros <;> simp [State.shedDone, State.writeSlot, *])

theorem execLoadStage_kept (w : Nat) (s : State) : Res.Keeps s (execLoadStage w s) := by
  refine Res.keeps_next (State.serveCmd_kept _ _ _ _ _ _ _ _ _ ?_)
  try dsimp only
  (repeat' split)
  all_goals (refine ⟨?_, ?_, ?_⟩ <;> intros <;> simp [State.shedDone, State.writeSlot, *])

theorem execStageStop_kept (s : Nat) (st : State) : Res.Keeps st (execStageStop s st) := by
  unfold execStageStop
  try dsimp only
  (repeat' split)
  all_goals (refine Res.keeps_next ?_; refine ⟨?_, ?_, ?_⟩ <;> intros <;> simp [*])

theorem execUnloadStage_kept (w : Nat) (s : State) : Res.Keeps s (execUnloadStage w s) := by
  refine Res.keeps_next (State.serveCmd_kept _ _ _ _ _ _ _ _ _ ?_)
  try dsimp only
  (repeat' split)
  all_goals (refine ⟨?_, ?_, ?_⟩ <;> intros <;> simp [State.shedDone, State.writeSlot, *])

theorem execUnloadStageEnd_kept (s : Nat) (st : State) : Res.Keeps st (execUnloadStageEnd s st) := by
  unfold execUnloadStageEnd
  try dsimp only
  (repeat' split)
  all_goals (refine Res.keeps_next ?_; refine ⟨?_, ?_, ?_⟩ <;> intros <;> simp [*])

theorem execSetMode_kept (w : Nat) (s : State) : Res.Keeps s (execSetMode w s) := by
  refine Res.keeps_next (State.serveCmd_kept _ _ _ _ _ _ _ _ _ ?_)
  try dsimp only
  (repeat' split)
  all_goals (refine ⟨?_, ?_, ?_⟩ <;> intros <;> simp [State.shedDone, State.writeSlot, *])

theorem execShed_kept (w : Nat) (s : State) : Res.Keeps s (execShed w s) := by
  refine Res.keeps_next (State.serveCmd_kept _ _ _ _ _ _ _ _ _ ?_)
  try dsimp only
  (repeat' split)
  all_goals (refine ⟨?_, ?_, ?_⟩ <;> intros <;> simp [State.shedDone, State.writeSlot, *])

theorem execRepairStatus_kept (w : Nat) (s : State) : Res.Keeps s (execRepairStatus w s) := by
  refine Res.keeps_next (State.serveCmd_kept _ _ _ _ _ _ _ _ _ ?_)
  try dsimp only
  all_goals (refine ⟨?_, ?_, ?_⟩ <;> intros <;> simp [State.shedDone, State.writeSlot, *])

theorem execUpdateSlot_kept (w : Nat) (image : List Byte) (s : State) : Res.Keeps s (execUpdateSlot w image s) := by
  refine Res.keeps_next (State.serveCmd_kept _ _ _ _ _ _ _ _ _ ?_)
  try dsimp only
  (repeat' split)
  all_goals (refine ⟨?_, ?_, ?_⟩ <;> intros <;> simp [State.shedDone, State.writeSlot, *])

theorem execUpdateSlotEnd_kept (s : State) : Res.Keeps s (execUpdateSlotEnd s) := by
  unfold execUpdateSlotEnd
  try dsimp only
  (repeat' split)
  all_goals (refine Res.keeps_next ?_; refine ⟨?_, ?_, ?_⟩ <;> intros <;> simp [*])

theorem execLedgerStatus_kept (w : Nat) (s : State) : Res.Keeps s (execLedgerStatus w s) := by
  refine Res.keeps_next (State.serveCmd_kept _ _ _ _ _ _ _ _ _ ?_)
  try dsimp only
  all_goals (refine ⟨?_, ?_, ?_⟩ <;> intros <;> simp [State.shedDone, State.writeSlot, *])

theorem execBindQuery_kept (w : Nat) (s : State) : Res.Keeps s (execBindQuery w s) := by
  refine Res.keeps_next (State.serveCmd_kept _ _ _ _ _ _ _ _ _ ?_)
  try dsimp only
  (repeat' split)
  all_goals (refine ⟨?_, ?_, ?_⟩ <;> intros <;> simp [State.shedDone, State.writeSlot, *])

theorem execBadOpcode_kept (w : Nat) (s : State) : Res.Keeps s (execBadOpcode w s) := by
  unfold execBadOpcode
  try dsimp only
  (repeat' split)
  all_goals (refine Res.keeps_next ?_; refine ⟨?_, ?_, ?_⟩ <;> intros <;> simp [*])

theorem execMbClaim_kept (m : Nat) (claimants : List Nat) (s : State) : Res.Keeps s (execMbClaim m claimants s) := by
  unfold execMbClaim
  try dsimp only
  all_goals (refine Res.keeps_next ?_; refine ⟨?_, ?_, ?_⟩ <;> intros <;> simp [*])

theorem execMbClaimLapse_kept (m : Nat) (s : State) : Res.Keeps s (execMbClaimLapse m s) := by
  unfold execMbClaimLapse
  try dsimp only
  (repeat' split)
  all_goals (refine Res.keeps_next ?_; refine ⟨?_, ?_, ?_⟩ <;> intros <;> simp [*])

theorem execMbDoorbell_kept (m t : Nat) (v : Word) (s : State) : Res.Keeps s (execMbDoorbell m t v s) := by
  unfold execMbDoorbell
  try dsimp only
  all_goals (refine Res.keeps_next ?_; refine ⟨?_, ?_, ?_⟩ <;> intros <;> simp [*])

theorem execMbAck_kept (m t : Nat) (v : Word) (s : State) : Res.Keeps s (execMbAck m t v s) := by
  unfold execMbAck
  try dsimp only
  all_goals (refine Res.keeps_next ?_; refine ⟨?_, ?_, ?_⟩ <;> intros <;> simp [*])

theorem execMbRelease_kept (m t : Nat) (s : State) : Res.Keeps s (execMbRelease m t s) := by
  unfold execMbRelease
  try dsimp only
  all_goals (refine Res.keeps_next ?_; refine ⟨?_, ?_, ?_⟩ <;> intros <;> simp [*])

theorem execMbReleaseForce_kept (m : Nat) (i : Initiator) (s : State) : Res.Keeps s (execMbReleaseForce m i s) := by
  unfold execMbReleaseForce
  try dsimp only
  (repeat' split)
  all_goals (refine Res.keeps_next ?_; refine ⟨?_, ?_, ?_⟩ <;> intros <;> simp [*])

theorem execIrqSourceEvent_kept (src : Nat) (s : State) : Res.Keeps s (execIrqSourceEvent src s) := by
  unfold execIrqSourceEvent
  try dsimp only
  all_goals (refine Res.keeps_next ?_; refine ⟨?_, ?_, ?_⟩ <;> intros <;> simp [*])

theorem execModerationRelease_kept (src : Nat) (s : State) : Res.Keeps s (execModerationRelease src s) := by
  unfold execModerationRelease
  try dsimp only
  (repeat' split)
  all_goals (refine Res.keeps_next ?_; refine ⟨?_, ?_, ?_⟩ <;> intros <;> simp [*])

theorem execIrqClaim_kept (t : Nat) (s : State) : Res.Keeps s (execIrqClaim t s) := by
  unfold execIrqClaim
  try dsimp only
  all_goals (refine Res.keeps_next ?_; refine ⟨?_, ?_, ?_⟩ <;> intros <;> simp [*])

theorem execIrqEoi_kept (t src : Nat) (s : State) : Res.Keeps s (execIrqEoi t src s) := by
  unfold execIrqEoi
  try dsimp only
  all_goals (refine Res.keeps_next ?_; refine ⟨?_, ?_, ?_⟩ <;> intros <;> simp [*])

theorem execIrqSwset_kept (i : Initiator) (n : Nat) (v : Word) (s : State) : Res.Keeps s (execIrqSwset i n v s) := by
  unfold execIrqSwset
  try dsimp only
  all_goals (refine Res.keeps_next ?_; refine ⟨?_, ?_, ?_⟩ <;> intros <;> simp [*])

theorem execIrqSwclr_kept (i : Initiator) (n : Nat) (v : Word) (s : State) : Res.Keeps s (execIrqSwclr i n v s) := by
  unfold execIrqSwclr
  try dsimp only
  all_goals (refine Res.keeps_next ?_; refine ⟨?_, ?_, ?_⟩ <;> intros <;> simp [*])

theorem execPipInterruptEntry_kept (core : Nat) (s : State) : Res.Keeps s (execPipInterruptEntry core s) := by
  unfold execPipInterruptEntry
  try dsimp only
  (repeat' split)
  all_goals (refine Res.keeps_next ?_; refine ⟨?_, ?_, ?_⟩ <;> intros <;> simp [*])

theorem execPipRetentionWake_kept (core : Nat) (s : State) : Res.Keeps s (execPipRetentionWake core s) := by
  unfold execPipRetentionWake
  try dsimp only
  (repeat' split)
  all_goals (refine Res.keeps_next ?_; refine ⟨?_, ?_, ?_⟩ <;> intros <;> simp [*])

theorem execAddi_kept (x : Issue) (rd ra : Reg) (imm : BitVec 12) (s : State) : Res.Keeps s (execAddi x rd ra imm s) := by
  simp only [execAddi, pipR, pipRF, pipI, pipShift, pipShiftI, pipP, pipAtomic, pipIssue]
  refine pipIssueWith_kept _ _ _ _ _ _ _ fun s c t d h => ?_
  first
    | exact coreBody_kept _ _ _ _ _ h
    | ((try simp only [jumpBody, loadBody, storeBody, atomicBody, cacheBody] at h)
       (repeat' split at h) <;> cases h <;> (refine ⟨?_, ?_, ?_⟩ <;> intros <;> simp [*]))

theorem execAndi_kept (x : Issue) (rd ra : Reg) (imm : BitVec 12) (s : State) : Res.Keeps s (execAndi x rd ra imm s) := by
  simp only [execAndi, pipR, pipRF, pipI, pipShift, pipShiftI, pipP, pipAtomic, pipIssue]
  refine pipIssueWith_kept _ _ _ _ _ _ _ fun s c t d h => ?_
  first
    | exact coreBody_kept _ _ _ _ _ h
    | ((try simp only [jumpBody, loadBody, storeBody, atomicBody, cacheBody] at h)
       (repeat' split at h) <;> cases h <;> (refine ⟨?_, ?_, ?_⟩ <;> intros <;> simp [*]))

theorem execOri_kept (x : Issue) (rd ra : Reg) (imm : BitVec 12) (s : State) : Res.Keeps s (execOri x rd ra imm s) := by
  simp only [execOri, pipR, pipRF, pipI, pipShift, pipShiftI, pipP, pipAtomic, pipIssue]
  refine pipIssueWith_kept _ _ _ _ _ _ _ fun s c t d h => ?_
  first
    | exact coreBody_kept _ _ _ _ _ h
    | ((try simp only [jumpBody, loadBody, storeBody, atomicBody, cacheBody] at h)
       (repeat' split at h) <;> cases h <;> (refine ⟨?_, ?_, ?_⟩ <;> intros <;> simp [*]))

theorem execXori_kept (x : Issue) (rd ra : Reg) (imm : BitVec 12) (s : State) : Res.Keeps s (execXori x rd ra imm s) := by
  simp only [execXori, pipR, pipRF, pipI, pipShift, pipShiftI, pipP, pipAtomic, pipIssue]
  refine pipIssueWith_kept _ _ _ _ _ _ _ fun s c t d h => ?_
  first
    | exact coreBody_kept _ _ _ _ _ h
    | ((try simp only [jumpBody, loadBody, storeBody, atomicBody, cacheBody] at h)
       (repeat' split at h) <;> cases h <;> (refine ⟨?_, ?_, ?_⟩ <;> intros <;> simp [*]))

theorem execSlli_kept (x : Issue) (rd ra : Reg) (amt : BitVec 5) (s : State) : Res.Keeps s (execSlli x rd ra amt s) := by
  simp only [execSlli, pipR, pipRF, pipI, pipShift, pipShiftI, pipP, pipAtomic, pipIssue]
  refine pipIssueWith_kept _ _ _ _ _ _ _ fun s c t d h => ?_
  first
    | exact coreBody_kept _ _ _ _ _ h
    | ((try simp only [jumpBody, loadBody, storeBody, atomicBody, cacheBody] at h)
       (repeat' split at h) <;> cases h <;> (refine ⟨?_, ?_, ?_⟩ <;> intros <;> simp [*]))

theorem execSrli_kept (x : Issue) (rd ra : Reg) (amt : BitVec 5) (s : State) : Res.Keeps s (execSrli x rd ra amt s) := by
  simp only [execSrli, pipR, pipRF, pipI, pipShift, pipShiftI, pipP, pipAtomic, pipIssue]
  refine pipIssueWith_kept _ _ _ _ _ _ _ fun s c t d h => ?_
  first
    | exact coreBody_kept _ _ _ _ _ h
    | ((try simp only [jumpBody, loadBody, storeBody, atomicBody, cacheBody] at h)
       (repeat' split at h) <;> cases h <;> (refine ⟨?_, ?_, ?_⟩ <;> intros <;> simp [*]))

theorem execSrai_kept (x : Issue) (rd ra : Reg) (amt : BitVec 5) (s : State) : Res.Keeps s (execSrai x rd ra amt s) := by
  simp only [execSrai, pipR, pipRF, pipI, pipShift, pipShiftI, pipP, pipAtomic, pipIssue]
  refine pipIssueWith_kept _ _ _ _ _ _ _ fun s c t d h => ?_
  first
    | exact coreBody_kept _ _ _ _ _ h
    | ((try simp only [jumpBody, loadBody, storeBody, atomicBody, cacheBody] at h)
       (repeat' split at h) <;> cases h <;> (refine ⟨?_, ?_, ?_⟩ <;> intros <;> simp [*]))

theorem execRoli_kept (x : Issue) (rd ra : Reg) (amt : BitVec 5) (s : State) : Res.Keeps s (execRoli x rd ra amt s) := by
  simp only [execRoli, pipR, pipRF, pipI, pipShift, pipShiftI, pipP, pipAtomic, pipIssue]
  refine pipIssueWith_kept _ _ _ _ _ _ _ fun s c t d h => ?_
  first
    | exact coreBody_kept _ _ _ _ _ h
    | ((try simp only [jumpBody, loadBody, storeBody, atomicBody, cacheBody] at h)
       (repeat' split at h) <;> cases h <;> (refine ⟨?_, ?_, ?_⟩ <;> intros <;> simp [*]))

theorem execMovl_kept (x : Issue) (rd : Reg) (imm : BitVec 16) (s : State) : Res.Keeps s (execMovl x rd imm s) := by
  simp only [execMovl, pipR, pipRF, pipI, pipShift, pipShiftI, pipP, pipAtomic, pipIssue]
  refine pipIssueWith_kept _ _ _ _ _ _ _ fun s c t d h => ?_
  first
    | exact coreBody_kept _ _ _ _ _ h
    | ((try simp only [jumpBody, loadBody, storeBody, atomicBody, cacheBody] at h)
       (repeat' split at h) <;> cases h <;> (refine ⟨?_, ?_, ?_⟩ <;> intros <;> simp [*]))

theorem execMovh_kept (x : Issue) (rd : Reg) (imm : BitVec 16) (s : State) : Res.Keeps s (execMovh x rd imm s) := by
  simp only [execMovh, pipR, pipRF, pipI, pipShift, pipShiftI, pipP, pipAtomic, pipIssue]
  refine pipIssueWith_kept _ _ _ _ _ _ _ fun s c t d h => ?_
  first
    | exact coreBody_kept _ _ _ _ _ h
    | ((try simp only [jumpBody, loadBody, storeBody, atomicBody, cacheBody] at h)
       (repeat' split at h) <;> cases h <;> (refine ⟨?_, ?_, ?_⟩ <;> intros <;> simp [*]))

theorem execAdd_kept (x : Issue) (rd ra rb : Reg) (s : State) : Res.Keeps s (execAdd x rd ra rb s) := by
  simp only [execAdd, pipR, pipRF, pipI, pipShift, pipShiftI, pipP, pipAtomic, pipIssue]
  refine pipIssueWith_kept _ _ _ _ _ _ _ fun s c t d h => ?_
  first
    | exact coreBody_kept _ _ _ _ _ h
    | ((try simp only [jumpBody, loadBody, storeBody, atomicBody, cacheBody] at h)
       (repeat' split at h) <;> cases h <;> (refine ⟨?_, ?_, ?_⟩ <;> intros <;> simp [*]))

theorem execSub_kept (x : Issue) (rd ra rb : Reg) (s : State) : Res.Keeps s (execSub x rd ra rb s) := by
  simp only [execSub, pipR, pipRF, pipI, pipShift, pipShiftI, pipP, pipAtomic, pipIssue]
  refine pipIssueWith_kept _ _ _ _ _ _ _ fun s c t d h => ?_
  first
    | exact coreBody_kept _ _ _ _ _ h
    | ((try simp only [jumpBody, loadBody, storeBody, atomicBody, cacheBody] at h)
       (repeat' split at h) <;> cases h <;> (refine ⟨?_, ?_, ?_⟩ <;> intros <;> simp [*]))

theorem execAnd_kept (x : Issue) (rd ra rb : Reg) (s : State) : Res.Keeps s (execAnd x rd ra rb s) := by
  simp only [execAnd, pipR, pipRF, pipI, pipShift, pipShiftI, pipP, pipAtomic, pipIssue]
  refine pipIssueWith_kept _ _ _ _ _ _ _ fun s c t d h => ?_
  first
    | exact coreBody_kept _ _ _ _ _ h
    | ((try simp only [jumpBody, loadBody, storeBody, atomicBody, cacheBody] at h)
       (repeat' split at h) <;> cases h <;> (refine ⟨?_, ?_, ?_⟩ <;> intros <;> simp [*]))

theorem execOr_kept (x : Issue) (rd ra rb : Reg) (s : State) : Res.Keeps s (execOr x rd ra rb s) := by
  simp only [execOr, pipR, pipRF, pipI, pipShift, pipShiftI, pipP, pipAtomic, pipIssue]
  refine pipIssueWith_kept _ _ _ _ _ _ _ fun s c t d h => ?_
  first
    | exact coreBody_kept _ _ _ _ _ h
    | ((try simp only [jumpBody, loadBody, storeBody, atomicBody, cacheBody] at h)
       (repeat' split at h) <;> cases h <;> (refine ⟨?_, ?_, ?_⟩ <;> intros <;> simp [*]))

theorem execXor_kept (x : Issue) (rd ra rb : Reg) (s : State) : Res.Keeps s (execXor x rd ra rb s) := by
  simp only [execXor, pipR, pipRF, pipI, pipShift, pipShiftI, pipP, pipAtomic, pipIssue]
  refine pipIssueWith_kept _ _ _ _ _ _ _ fun s c t d h => ?_
  first
    | exact coreBody_kept _ _ _ _ _ h
    | ((try simp only [jumpBody, loadBody, storeBody, atomicBody, cacheBody] at h)
       (repeat' split at h) <;> cases h <;> (refine ⟨?_, ?_, ?_⟩ <;> intros <;> simp [*]))

theorem execAndn_kept (x : Issue) (rd ra rb : Reg) (s : State) : Res.Keeps s (execAndn x rd ra rb s) := by
  simp only [execAndn, pipR, pipRF, pipI, pipShift, pipShiftI, pipP, pipAtomic, pipIssue]
  refine pipIssueWith_kept _ _ _ _ _ _ _ fun s c t d h => ?_
  first
    | exact coreBody_kept _ _ _ _ _ h
    | ((try simp only [jumpBody, loadBody, storeBody, atomicBody, cacheBody] at h)
       (repeat' split at h) <;> cases h <;> (refine ⟨?_, ?_, ?_⟩ <;> intros <;> simp [*]))

theorem execOrn_kept (x : Issue) (rd ra rb : Reg) (s : State) : Res.Keeps s (execOrn x rd ra rb s) := by
  simp only [execOrn, pipR, pipRF, pipI, pipShift, pipShiftI, pipP, pipAtomic, pipIssue]
  refine pipIssueWith_kept _ _ _ _ _ _ _ fun s c t d h => ?_
  first
    | exact coreBody_kept _ _ _ _ _ h
    | ((try simp only [jumpBody, loadBody, storeBody, atomicBody, cacheBody] at h)
       (repeat' split at h) <;> cases h <;> (refine ⟨?_, ?_, ?_⟩ <;> intros <;> simp [*]))

theorem execXnor_kept (x : Issue) (rd ra rb : Reg) (s : State) : Res.Keeps s (execXnor x rd ra rb s) := by
  simp only [execXnor, pipR, pipRF, pipI, pipShift, pipShiftI, pipP, pipAtomic, pipIssue]
  refine pipIssueWith_kept _ _ _ _ _ _ _ fun s c t d h => ?_
  first
    | exact coreBody_kept _ _ _ _ _ h
    | ((try simp only [jumpBody, loadBody, storeBody, atomicBody, cacheBody] at h)
       (repeat' split at h) <;> cases h <;> (refine ⟨?_, ?_, ?_⟩ <;> intros <;> simp [*]))

theorem execSll_kept (x : Issue) (rd ra rb : Reg) (s : State) : Res.Keeps s (execSll x rd ra rb s) := by
  simp only [execSll, pipR, pipRF, pipI, pipShift, pipShiftI, pipP, pipAtomic, pipIssue]
  refine pipIssueWith_kept _ _ _ _ _ _ _ fun s c t d h => ?_
  first
    | exact coreBody_kept _ _ _ _ _ h
    | ((try simp only [jumpBody, loadBody, storeBody, atomicBody, cacheBody] at h)
       (repeat' split at h) <;> cases h <;> (refine ⟨?_, ?_, ?_⟩ <;> intros <;> simp [*]))

theorem execSrl_kept (x : Issue) (rd ra rb : Reg) (s : State) : Res.Keeps s (execSrl x rd ra rb s) := by
  simp only [execSrl, pipR, pipRF, pipI, pipShift, pipShiftI, pipP, pipAtomic, pipIssue]
  refine pipIssueWith_kept _ _ _ _ _ _ _ fun s c t d h => ?_
  first
    | exact coreBody_kept _ _ _ _ _ h
    | ((try simp only [jumpBody, loadBody, storeBody, atomicBody, cacheBody] at h)
       (repeat' split at h) <;> cases h <;> (refine ⟨?_, ?_, ?_⟩ <;> intros <;> simp [*]))

theorem execSra_kept (x : Issue) (rd ra rb : Reg) (s : State) : Res.Keeps s (execSra x rd ra rb s) := by
  simp only [execSra, pipR, pipRF, pipI, pipShift, pipShiftI, pipP, pipAtomic, pipIssue]
  refine pipIssueWith_kept _ _ _ _ _ _ _ fun s c t d h => ?_
  first
    | exact coreBody_kept _ _ _ _ _ h
    | ((try simp only [jumpBody, loadBody, storeBody, atomicBody, cacheBody] at h)
       (repeat' split at h) <;> cases h <;> (refine ⟨?_, ?_, ?_⟩ <;> intros <;> simp [*]))

theorem execRol_kept (x : Issue) (rd ra rb : Reg) (s : State) : Res.Keeps s (execRol x rd ra rb s) := by
  simp only [execRol, pipR, pipRF, pipI, pipShift, pipShiftI, pipP, pipAtomic, pipIssue]
  refine pipIssueWith_kept _ _ _ _ _ _ _ fun s c t d h => ?_
  first
    | exact coreBody_kept _ _ _ _ _ h
    | ((try simp only [jumpBody, loadBody, storeBody, atomicBody, cacheBody] at h)
       (repeat' split at h) <;> cases h <;> (refine ⟨?_, ?_, ?_⟩ <;> intros <;> simp [*]))

theorem execMin_kept (x : Issue) (rd ra rb : Reg) (s : State) : Res.Keeps s (execMin x rd ra rb s) := by
  simp only [execMin, pipR, pipRF, pipI, pipShift, pipShiftI, pipP, pipAtomic, pipIssue]
  refine pipIssueWith_kept _ _ _ _ _ _ _ fun s c t d h => ?_
  first
    | exact coreBody_kept _ _ _ _ _ h
    | ((try simp only [jumpBody, loadBody, storeBody, atomicBody, cacheBody] at h)
       (repeat' split at h) <;> cases h <;> (refine ⟨?_, ?_, ?_⟩ <;> intros <;> simp [*]))

theorem execMax_kept (x : Issue) (rd ra rb : Reg) (s : State) : Res.Keeps s (execMax x rd ra rb s) := by
  simp only [execMax, pipR, pipRF, pipI, pipShift, pipShiftI, pipP, pipAtomic, pipIssue]
  refine pipIssueWith_kept _ _ _ _ _ _ _ fun s c t d h => ?_
  first
    | exact coreBody_kept _ _ _ _ _ h
    | ((try simp only [jumpBody, loadBody, storeBody, atomicBody, cacheBody] at h)
       (repeat' split at h) <;> cases h <;> (refine ⟨?_, ?_, ?_⟩ <;> intros <;> simp [*]))

theorem execMinu_kept (x : Issue) (rd ra rb : Reg) (s : State) : Res.Keeps s (execMinu x rd ra rb s) := by
  simp only [execMinu, pipR, pipRF, pipI, pipShift, pipShiftI, pipP, pipAtomic, pipIssue]
  refine pipIssueWith_kept _ _ _ _ _ _ _ fun s c t d h => ?_
  first
    | exact coreBody_kept _ _ _ _ _ h
    | ((try simp only [jumpBody, loadBody, storeBody, atomicBody, cacheBody] at h)
       (repeat' split at h) <;> cases h <;> (refine ⟨?_, ?_, ?_⟩ <;> intros <;> simp [*]))

theorem execMaxu_kept (x : Issue) (rd ra rb : Reg) (s : State) : Res.Keeps s (execMaxu x rd ra rb s) := by
  simp only [execMaxu, pipR, pipRF, pipI, pipShift, pipShiftI, pipP, pipAtomic, pipIssue]
  refine pipIssueWith_kept _ _ _ _ _ _ _ fun s c t d h => ?_
  first
    | exact coreBody_kept _ _ _ _ _ h
    | ((try simp only [jumpBody, loadBody, storeBody, atomicBody, cacheBody] at h)
       (repeat' split at h) <;> cases h <;> (refine ⟨?_, ?_, ?_⟩ <;> intros <;> simp [*]))

theorem execAdc_kept (x : Issue) (rd ra rb : Reg) (s : State) : Res.Keeps s (execAdc x rd ra rb s) := by
  simp only [execAdc, pipR, pipRF, pipI, pipShift, pipShiftI, pipP, pipAtomic, pipIssue]
  refine pipIssueWith_kept _ _ _ _ _ _ _ fun s c t d h => ?_
  first
    | exact coreBody_kept _ _ _ _ _ h
    | ((try simp only [jumpBody, loadBody, storeBody, atomicBody, cacheBody] at h)
       (repeat' split at h) <;> cases h <;> (refine ⟨?_, ?_, ?_⟩ <;> intros <;> simp [*]))

theorem execSbc_kept (x : Issue) (rd ra rb : Reg) (s : State) : Res.Keeps s (execSbc x rd ra rb s) := by
  simp only [execSbc, pipR, pipRF, pipI, pipShift, pipShiftI, pipP, pipAtomic, pipIssue]
  refine pipIssueWith_kept _ _ _ _ _ _ _ fun s c t d h => ?_
  first
    | exact coreBody_kept _ _ _ _ _ h
    | ((try simp only [jumpBody, loadBody, storeBody, atomicBody, cacheBody] at h)
       (repeat' split at h) <;> cases h <;> (refine ⟨?_, ?_, ?_⟩ <;> intros <;> simp [*]))

theorem execMul_kept (x : Issue) (rd ra rb : Reg) (s : State) : Res.Keeps s (execMul x rd ra rb s) := by
  simp only [execMul, pipR, pipRF, pipI, pipShift, pipShiftI, pipP, pipAtomic, pipIssue]
  refine pipIssueWith_kept _ _ _ _ _ _ _ fun s c t d h => ?_
  first
    | exact coreBody_kept _ _ _ _ _ h
    | ((try simp only [jumpBody, loadBody, storeBody, atomicBody, cacheBody] at h)
       (repeat' split at h) <;> cases h <;> (refine ⟨?_, ?_, ?_⟩ <;> intros <;> simp [*]))

theorem execMulh_kept (x : Issue) (rd ra rb : Reg) (s : State) : Res.Keeps s (execMulh x rd ra rb s) := by
  simp only [execMulh, pipR, pipRF, pipI, pipShift, pipShiftI, pipP, pipAtomic, pipIssue]
  refine pipIssueWith_kept _ _ _ _ _ _ _ fun s c t d h => ?_
  first
    | exact coreBody_kept _ _ _ _ _ h
    | ((try simp only [jumpBody, loadBody, storeBody, atomicBody, cacheBody] at h)
       (repeat' split at h) <;> cases h <;> (refine ⟨?_, ?_, ?_⟩ <;> intros <;> simp [*]))

theorem execMulhu_kept (x : Issue) (rd ra rb : Reg) (s : State) : Res.Keeps s (execMulhu x rd ra rb s) := by
  simp only [execMulhu, pipR, pipRF, pipI, pipShift, pipShiftI, pipP, pipAtomic, pipIssue]
  refine pipIssueWith_kept _ _ _ _ _ _ _ fun s c t d h => ?_
  first
    | exact coreBody_kept _ _ _ _ _ h
    | ((try simp only [jumpBody, loadBody, storeBody, atomicBody, cacheBody] at h)
       (repeat' split at h) <;> cases h <;> (refine ⟨?_, ?_, ?_⟩ <;> intros <;> simp [*]))

theorem execMac_kept (x : Issue) (rd ra rb : Reg) (s : State) : Res.Keeps s (execMac x rd ra rb s) := by
  simp only [execMac, pipR, pipRF, pipI, pipShift, pipShiftI, pipP, pipAtomic, pipIssue]
  refine pipIssueWith_kept _ _ _ _ _ _ _ fun s c t d h => ?_
  first
    | exact coreBody_kept _ _ _ _ _ h
    | ((try simp only [jumpBody, loadBody, storeBody, atomicBody, cacheBody] at h)
       (repeat' split at h) <;> cases h <;> (refine ⟨?_, ?_, ?_⟩ <;> intros <;> simp [*]))

theorem execDiv_kept (x : Issue) (rd ra rb : Reg) (s : State) : Res.Keeps s (execDiv x rd ra rb s) := by
  simp only [execDiv, pipR, pipRF, pipI, pipShift, pipShiftI, pipP, pipAtomic, pipIssue]
  refine pipIssueWith_kept _ _ _ _ _ _ _ fun s c t d h => ?_
  first
    | exact coreBody_kept _ _ _ _ _ h
    | ((try simp only [jumpBody, loadBody, storeBody, atomicBody, cacheBody] at h)
       (repeat' split at h) <;> cases h <;> (refine ⟨?_, ?_, ?_⟩ <;> intros <;> simp [*]))

theorem execDivu_kept (x : Issue) (rd ra rb : Reg) (s : State) : Res.Keeps s (execDivu x rd ra rb s) := by
  simp only [execDivu, pipR, pipRF, pipI, pipShift, pipShiftI, pipP, pipAtomic, pipIssue]
  refine pipIssueWith_kept _ _ _ _ _ _ _ fun s c t d h => ?_
  first
    | exact coreBody_kept _ _ _ _ _ h
    | ((try simp only [jumpBody, loadBody, storeBody, atomicBody, cacheBody] at h)
       (repeat' split at h) <;> cases h <;> (refine ⟨?_, ?_, ?_⟩ <;> intros <;> simp [*]))

theorem execRem_kept (x : Issue) (rd ra rb : Reg) (s : State) : Res.Keeps s (execRem x rd ra rb s) := by
  simp only [execRem, pipR, pipRF, pipI, pipShift, pipShiftI, pipP, pipAtomic, pipIssue]
  refine pipIssueWith_kept _ _ _ _ _ _ _ fun s c t d h => ?_
  first
    | exact coreBody_kept _ _ _ _ _ h
    | ((try simp only [jumpBody, loadBody, storeBody, atomicBody, cacheBody] at h)
       (repeat' split at h) <;> cases h <;> (refine ⟨?_, ?_, ?_⟩ <;> intros <;> simp [*]))

theorem execRemu_kept (x : Issue) (rd ra rb : Reg) (s : State) : Res.Keeps s (execRemu x rd ra rb s) := by
  simp only [execRemu, pipR, pipRF, pipI, pipShift, pipShiftI, pipP, pipAtomic, pipIssue]
  refine pipIssueWith_kept _ _ _ _ _ _ _ fun s c t d h => ?_
  first
    | exact coreBody_kept _ _ _ _ _ h
    | ((try simp only [jumpBody, loadBody, storeBody, atomicBody, cacheBody] at h)
       (repeat' split at h) <;> cases h <;> (refine ⟨?_, ?_, ?_⟩ <;> intros <;> simp [*]))

theorem execClz_kept (x : Issue) (rd ra : Reg) (s : State) : Res.Keeps s (execClz x rd ra s) := by
  simp only [execClz, pipR, pipRF, pipI, pipShift, pipShiftI, pipP, pipAtomic, pipIssue]
  refine pipIssueWith_kept _ _ _ _ _ _ _ fun s c t d h => ?_
  first
    | exact coreBody_kept _ _ _ _ _ h
    | ((try simp only [jumpBody, loadBody, storeBody, atomicBody, cacheBody] at h)
       (repeat' split at h) <;> cases h <;> (refine ⟨?_, ?_, ?_⟩ <;> intros <;> simp [*]))

theorem execPopc_kept (x : Issue) (rd ra : Reg) (s : State) : Res.Keeps s (execPopc x rd ra s) := by
  simp only [execPopc, pipR, pipRF, pipI, pipShift, pipShiftI, pipP, pipAtomic, pipIssue]
  refine pipIssueWith_kept _ _ _ _ _ _ _ fun s c t d h => ?_
  first
    | exact coreBody_kept _ _ _ _ _ h
    | ((try simp only [jumpBody, loadBody, storeBody, atomicBody, cacheBody] at h)
       (repeat' split at h) <;> cases h <;> (refine ⟨?_, ?_, ?_⟩ <;> intros <;> simp [*]))

theorem execBrev_kept (x : Issue) (rd ra : Reg) (s : State) : Res.Keeps s (execBrev x rd ra s) := by
  simp only [execBrev, pipR, pipRF, pipI, pipShift, pipShiftI, pipP, pipAtomic, pipIssue]
  refine pipIssueWith_kept _ _ _ _ _ _ _ fun s c t d h => ?_
  first
    | exact coreBody_kept _ _ _ _ _ h
    | ((try simp only [jumpBody, loadBody, storeBody, atomicBody, cacheBody] at h)
       (repeat' split at h) <;> cases h <;> (refine ⟨?_, ?_, ?_⟩ <;> intros <;> simp [*]))

theorem execBswap_kept (x : Issue) (rd ra : Reg) (s : State) : Res.Keeps s (execBswap x rd ra s) := by
  simp only [execBswap, pipR, pipRF, pipI, pipShift, pipShiftI, pipP, pipAtomic, pipIssue]
  refine pipIssueWith_kept _ _ _ _ _ _ _ fun s c t d h => ?_
  first
    | exact coreBody_kept _ _ _ _ _ h
    | ((try simp only [jumpBody, loadBody, storeBody, atomicBody, cacheBody] at h)
       (repeat' split at h) <;> cases h <;> (refine ⟨?_, ?_, ?_⟩ <;> intros <;> simp [*]))

theorem execSextB_kept (x : Issue) (rd ra : Reg) (s : State) : Res.Keeps s (execSextB x rd ra s) := by
  simp only [execSextB, pipR, pipRF, pipI, pipShift, pipShiftI, pipP, pipAtomic, pipIssue]
  refine pipIssueWith_kept _ _ _ _ _ _ _ fun s c t d h => ?_
  first
    | exact coreBody_kept _ _ _ _ _ h
    | ((try simp only [jumpBody, loadBody, storeBody, atomicBody, cacheBody] at h)
       (repeat' split at h) <;> cases h <;> (refine ⟨?_, ?_, ?_⟩ <;> intros <;> simp [*]))

theorem execSextH_kept (x : Issue) (rd ra : Reg) (s : State) : Res.Keeps s (execSextH x rd ra s) := by
  simp only [execSextH, pipR, pipRF, pipI, pipShift, pipShiftI, pipP, pipAtomic, pipIssue]
  refine pipIssueWith_kept _ _ _ _ _ _ _ fun s c t d h => ?_
  first
    | exact coreBody_kept _ _ _ _ _ h
    | ((try simp only [jumpBody, loadBody, storeBody, atomicBody, cacheBody] at h)
       (repeat' split at h) <;> cases h <;> (refine ⟨?_, ?_, ?_⟩ <;> intros <;> simp [*]))

theorem execCmp_kept (x : Issue) (qd : BitVec 3) (ra rb : Reg) (qe : BitVec 3) (cc : BitVec 4) (s : State)
    : Res.Keeps s (execCmp x qd ra rb qe cc s) := by
  simp only [execCmp, pipR, pipRF, pipI, pipShift, pipShiftI, pipP, pipAtomic, pipIssue]
  refine pipIssueWith_kept _ _ _ _ _ _ _ fun s c t d h => ?_
  first
    | exact coreBody_kept _ _ _ _ _ h
    | ((try simp only [jumpBody, loadBody, storeBody, atomicBody, cacheBody] at h)
       (repeat' split at h) <;> cases h <;> (refine ⟨?_, ?_, ?_⟩ <;> intros <;> simp [*]))

theorem execCmpi_kept (x : Issue) (qd : BitVec 3) (ra : Reg) (imm : BitVec 12) (cc : BitVec 3) (s : State)
    : Res.Keeps s (execCmpi x qd ra imm cc s) := by
  simp only [execCmpi, pipR, pipRF, pipI, pipShift, pipShiftI, pipP, pipAtomic, pipIssue]
  refine pipIssueWith_kept _ _ _ _ _ _ _ fun s c t d h => ?_
  first
    | exact coreBody_kept _ _ _ _ _ h
    | ((try simp only [jumpBody, loadBody, storeBody, atomicBody, cacheBody] at h)
       (repeat' split at h) <;> cases h <;> (refine ⟨?_, ?_, ?_⟩ <;> intros <;> simp [*]))

theorem execPand_kept (x : Issue) (qd qa qb : BitVec 3) (s : State) : Res.Keeps s (execPand x qd qa qb s) := by
  simp only [execPand, pipR, pipRF, pipI, pipShift, pipShiftI, pipP, pipAtomic, pipIssue]
  refine pipIssueWith_kept _ _ _ _ _ _ _ fun s c t d h => ?_
  first
    | exact coreBody_kept _ _ _ _ _ h
    | ((try simp only [jumpBody, loadBody, storeBody, atomicBody, cacheBody] at h)
       (repeat' split at h) <;> cases h <;> (refine ⟨?_, ?_, ?_⟩ <;> intros <;> simp [*]))

theorem execPor_kept (x : Issue) (qd qa qb : BitVec 3) (s : State) : Res.Keeps s (execPor x qd qa qb s) := by
  simp only [execPor, pipR, pipRF, pipI, pipShift, pipShiftI, pipP, pipAtomic, pipIssue]
  refine pipIssueWith_kept _ _ _ _ _ _ _ fun s c t d h => ?_
  first
    | exact coreBody_kept _ _ _ _ _ h
    | ((try simp only [jumpBody, loadBody, storeBody, atomicBody, cacheBody] at h)
       (repeat' split at h) <;> cases h <;> (refine ⟨?_, ?_, ?_⟩ <;> intros <;> simp [*]))

theorem execPxor_kept (x : Issue) (qd qa qb : BitVec 3) (s : State) : Res.Keeps s (execPxor x qd qa qb s) := by
  simp only [execPxor, pipR, pipRF, pipI, pipShift, pipShiftI, pipP, pipAtomic, pipIssue]
  refine pipIssueWith_kept _ _ _ _ _ _ _ fun s c t d h => ?_
  first
    | exact coreBody_kept _ _ _ _ _ h
    | ((try simp only [jumpBody, loadBody, storeBody, atomicBody, cacheBody] at h)
       (repeat' split at h) <;> cases h <;> (refine ⟨?_, ?_, ?_⟩ <;> intros <;> simp [*]))

theorem execPandn_kept (x : Issue) (qd qa qb : BitVec 3) (s : State) : Res.Keeps s (execPandn x qd qa qb s) := by
  simp only [execPandn, pipR, pipRF, pipI, pipShift, pipShiftI, pipP, pipAtomic, pipIssue]
  refine pipIssueWith_kept _ _ _ _ _ _ _ fun s c t d h => ?_
  first
    | exact coreBody_kept _ _ _ _ _ h
    | ((try simp only [jumpBody, loadBody, storeBody, atomicBody, cacheBody] at h)
       (repeat' split at h) <;> cases h <;> (refine ⟨?_, ?_, ?_⟩ <;> intros <;> simp [*]))

theorem execPnot_kept (x : Issue) (qd qa : BitVec 3) (s : State) : Res.Keeps s (execPnot x qd qa s) := by
  simp only [execPnot, pipR, pipRF, pipI, pipShift, pipShiftI, pipP, pipAtomic, pipIssue]
  refine pipIssueWith_kept _ _ _ _ _ _ _ fun s c t d h => ?_
  first
    | exact coreBody_kept _ _ _ _ _ h
    | ((try simp only [jumpBody, loadBody, storeBody, atomicBody, cacheBody] at h)
       (repeat' split at h) <;> cases h <;> (refine ⟨?_, ?_, ?_⟩ <;> intros <;> simp [*]))

theorem execLdw_kept (x : Issue) (rd ra : Reg) (imm : BitVec 12) (s : State) : Res.Keeps s (execLdw x rd ra imm s) := by
  simp only [execLdw, pipR, pipRF, pipI, pipShift, pipShiftI, pipP, pipAtomic, pipIssue]
  refine pipIssueWith_kept _ _ _ _ _ _ _ fun s c t d h => ?_
  first
    | exact coreBody_kept _ _ _ _ _ h
    | ((try simp only [jumpBody, loadBody, storeBody, atomicBody, cacheBody] at h)
       (repeat' split at h) <;> cases h <;> (refine ⟨?_, ?_, ?_⟩ <;> intros <;> simp [*]))

theorem execLdh_kept (x : Issue) (rd ra : Reg) (imm : BitVec 12) (s : State) : Res.Keeps s (execLdh x rd ra imm s) := by
  simp only [execLdh, pipR, pipRF, pipI, pipShift, pipShiftI, pipP, pipAtomic, pipIssue]
  refine pipIssueWith_kept _ _ _ _ _ _ _ fun s c t d h => ?_
  first
    | exact coreBody_kept _ _ _ _ _ h
    | ((try simp only [jumpBody, loadBody, storeBody, atomicBody, cacheBody] at h)
       (repeat' split at h) <;> cases h <;> (refine ⟨?_, ?_, ?_⟩ <;> intros <;> simp [*]))

theorem execLdhu_kept (x : Issue) (rd ra : Reg) (imm : BitVec 12) (s : State) : Res.Keeps s (execLdhu x rd ra imm s) := by
  simp only [execLdhu, pipR, pipRF, pipI, pipShift, pipShiftI, pipP, pipAtomic, pipIssue]
  refine pipIssueWith_kept _ _ _ _ _ _ _ fun s c t d h => ?_
  first
    | exact coreBody_kept _ _ _ _ _ h
    | ((try simp only [jumpBody, loadBody, storeBody, atomicBody, cacheBody] at h)
       (repeat' split at h) <;> cases h <;> (refine ⟨?_, ?_, ?_⟩ <;> intros <;> simp [*]))

theorem execLdb_kept (x : Issue) (rd ra : Reg) (imm : BitVec 12) (s : State) : Res.Keeps s (execLdb x rd ra imm s) := by
  simp only [execLdb, pipR, pipRF, pipI, pipShift, pipShiftI, pipP, pipAtomic, pipIssue]
  refine pipIssueWith_kept _ _ _ _ _ _ _ fun s c t d h => ?_
  first
    | exact coreBody_kept _ _ _ _ _ h
    | ((try simp only [jumpBody, loadBody, storeBody, atomicBody, cacheBody] at h)
       (repeat' split at h) <;> cases h <;> (refine ⟨?_, ?_, ?_⟩ <;> intros <;> simp [*]))

theorem execLdbu_kept (x : Issue) (rd ra : Reg) (imm : BitVec 12) (s : State) : Res.Keeps s (execLdbu x rd ra imm s) := by
  simp only [execLdbu, pipR, pipRF, pipI, pipShift, pipShiftI, pipP, pipAtomic, pipIssue]
  refine pipIssueWith_kept _ _ _ _ _ _ _ fun s c t d h => ?_
  first
    | exact coreBody_kept _ _ _ _ _ h
    | ((try simp only [jumpBody, loadBody, storeBody, atomicBody, cacheBody] at h)
       (repeat' split at h) <;> cases h <;> (refine ⟨?_, ?_, ?_⟩ <;> intros <;> simp [*]))

theorem execStw_kept (x : Issue) (rd ra : Reg) (imm : BitVec 12) (s : State) : Res.Keeps s (execStw x rd ra imm s) := by
  simp only [execStw, pipR, pipRF, pipI, pipShift, pipShiftI, pipP, pipAtomic, pipIssue]
  refine pipIssueWith_kept _ _ _ _ _ _ _ fun s c t d h => ?_
  first
    | exact coreBody_kept _ _ _ _ _ h
    | ((try simp only [jumpBody, loadBody, storeBody, atomicBody, cacheBody] at h)
       (repeat' split at h) <;> cases h <;> (refine ⟨?_, ?_, ?_⟩ <;> intros <;> simp [*]))

theorem execSth_kept (x : Issue) (rd ra : Reg) (imm : BitVec 12) (s : State) : Res.Keeps s (execSth x rd ra imm s) := by
  simp only [execSth, pipR, pipRF, pipI, pipShift, pipShiftI, pipP, pipAtomic, pipIssue]
  refine pipIssueWith_kept _ _ _ _ _ _ _ fun s c t d h => ?_
  first
    | exact coreBody_kept _ _ _ _ _ h
    | ((try simp only [jumpBody, loadBody, storeBody, atomicBody, cacheBody] at h)
       (repeat' split at h) <;> cases h <;> (refine ⟨?_, ?_, ?_⟩ <;> intros <;> simp [*]))

theorem execStb_kept (x : Issue) (rd ra : Reg) (imm : BitVec 12) (s : State) : Res.Keeps s (execStb x rd ra imm s) := by
  simp only [execStb, pipR, pipRF, pipI, pipShift, pipShiftI, pipP, pipAtomic, pipIssue]
  refine pipIssueWith_kept _ _ _ _ _ _ _ fun s c t d h => ?_
  first
    | exact coreBody_kept _ _ _ _ _ h
    | ((try simp only [jumpBody, loadBody, storeBody, atomicBody, cacheBody] at h)
       (repeat' split at h) <;> cases h <;> (refine ⟨?_, ?_, ?_⟩ <;> intros <;> simp [*]))

theorem execLdx_kept (x : Issue) (rd ra rb : Reg) (scale : BitVec 2) (u : Bool) (size : BitVec 2) (s : State)
    : Res.Keeps s (execLdx x rd ra rb scale u size s) := by
  simp only [execLdx, pipR, pipRF, pipI, pipShift, pipShiftI, pipP, pipAtomic, pipIssue]
  refine pipIssueWith_kept _ _ _ _ _ _ _ fun s c t d h => ?_
  first
    | exact coreBody_kept _ _ _ _ _ h
    | ((try simp only [jumpBody, loadBody, storeBody, atomicBody, cacheBody] at h)
       (repeat' split at h) <;> cases h <;> (refine ⟨?_, ?_, ?_⟩ <;> intros <;> simp [*]))

theorem execStx_kept (x : Issue) (rd ra rb : Reg) (scale : BitVec 2) (size : BitVec 2) (s : State)
    : Res.Keeps s (execStx x rd ra rb scale size s) := by
  simp only [execStx, pipR, pipRF, pipI, pipShift, pipShiftI, pipP, pipAtomic, pipIssue]
  refine pipIssueWith_kept _ _ _ _ _ _ _ fun s c t d h => ?_
  first
    | exact coreBody_kept _ _ _ _ _ h
    | ((try simp only [jumpBody, loadBody, storeBody, atomicBody, cacheBody] at h)
       (repeat' split at h) <;> cases h <;> (refine ⟨?_, ?_, ?_⟩ <;> intros <;> simp [*]))

theorem execLda_kept (x : Issue) (rd : Reg) (unit : BitVec 2) (upd u : Bool) (size : BitVec 2) (s : State)
    : Res.Keeps s (execLda x rd unit upd u size s) := by
  simp only [execLda, pipR, pipRF, pipI, pipShift, pipShiftI, pipP, pipAtomic, pipIssue]
  refine pipIssueWith_kept _ _ _ _ _ _ _ fun s c t d h => ?_
  first
    | exact coreBody_kept _ _ _ _ _ h
    | ((try simp only [jumpBody, loadBody, storeBody, atomicBody, cacheBody] at h)
       (repeat' split at h) <;> cases h <;> (refine ⟨?_, ?_, ?_⟩ <;> intros <;> simp [*]))

theorem execSta_kept (x : Issue) (rd : Reg) (unit : BitVec 2) (upd : Bool) (size : BitVec 2) (s : State)
    : Res.Keeps s (execSta x rd unit upd size s) := by
  simp only [execSta, pipR, pipRF, pipI, pipShift, pipShiftI, pipP, pipAtomic, pipIssue]
  refine pipIssueWith_kept _ _ _ _ _ _ _ fun s c t d h => ?_
  first
    | exact coreBody_kept _ _ _ _ _ h
    | ((try simp only [jumpBody, loadBody, storeBody, atomicBody, cacheBody] at h)
       (repeat' split at h) <;> cases h <;> (refine ⟨?_, ?_, ?_⟩ <;> intros <;> simp [*]))

theorem execAstep_kept (x : Issue) (unit : BitVec 2) (s : State) : Res.Keeps s (execAstep x unit s) := by
  simp only [execAstep, pipR, pipRF, pipI, pipShift, pipShiftI, pipP, pipAtomic, pipIssue]
  refine pipIssueWith_kept _ _ _ _ _ _ _ fun s c t d h => ?_
  first
    | exact coreBody_kept _ _ _ _ _ h
    | ((try simp only [jumpBody, loadBody, storeBody, atomicBody, cacheBody] at h)
       (repeat' split at h) <;> cases h <;> (refine ⟨?_, ?_, ?_⟩ <;> intros <;> simp [*]))

theorem execAswap_kept (x : Issue) (rd ra rb : Reg) (s : State) : Res.Keeps s (execAswap x rd ra rb s) := by
  simp only [execAswap, pipAtomic, pipIssue]
  exact pipIssueWith_kept _ _ _ _ _ _ _ fun s c t d h => atomicBody_kept _ _ _ _ _ h

theorem execAadd_kept (x : Issue) (rd ra rb : Reg) (s : State) : Res.Keeps s (execAadd x rd ra rb s) := by
  simp only [execAadd, pipAtomic, pipIssue]
  exact pipIssueWith_kept _ _ _ _ _ _ _ fun s c t d h => atomicBody_kept _ _ _ _ _ h

theorem execAor_kept (x : Issue) (rd ra rb : Reg) (s : State) : Res.Keeps s (execAor x rd ra rb s) := by
  simp only [execAor, pipAtomic, pipIssue]
  exact pipIssueWith_kept _ _ _ _ _ _ _ fun s c t d h => atomicBody_kept _ _ _ _ _ h

theorem execAand_kept (x : Issue) (rd ra rb : Reg) (s : State) : Res.Keeps s (execAand x rd ra rb s) := by
  simp only [execAand, pipAtomic, pipIssue]
  exact pipIssueWith_kept _ _ _ _ _ _ _ fun s c t d h => atomicBody_kept _ _ _ _ _ h

theorem execMfs_kept (x : Issue) (rd : Reg) (sr : BitVec 12) (s : State) : Res.Keeps s (execMfs x rd sr s) := by
  simp only [execMfs, pipR, pipRF, pipI, pipShift, pipShiftI, pipP, pipAtomic, pipIssue]
  refine pipIssueWith_kept _ _ _ _ _ _ _ fun s c t d h => ?_
  first
    | exact coreBody_kept _ _ _ _ _ h
    | ((try simp only [jumpBody, loadBody, storeBody, atomicBody, cacheBody] at h)
       (repeat' split at h) <;> cases h <;> (refine ⟨?_, ?_, ?_⟩ <;> intros <;> simp [*]))

theorem execMts_kept (x : Issue) (sr : BitVec 12) (ra : Reg) (s : State) : Res.Keeps s (execMts x sr ra s) := by
  simp only [execMts, pipR, pipRF, pipI, pipShift, pipShiftI, pipP, pipAtomic, pipIssue]
  refine pipIssueWith_kept _ _ _ _ _ _ _ fun s c t d h => ?_
  first
    | exact coreBody_kept _ _ _ _ _ h
    | ((try simp only [jumpBody, loadBody, storeBody, atomicBody, cacheBody] at h)
       (repeat' split at h) <;> cases h <;> (refine ⟨?_, ?_, ?_⟩ <;> intros <;> simp [*]))

theorem execBr_kept (x : Issue) (off : BitVec 22) (s : State) : Res.Keeps s (execBr x off s) := by
  simp only [execBr, pipR, pipRF, pipI, pipShift, pipShiftI, pipP, pipAtomic, pipIssue]
  refine pipIssueWith_kept _ _ _ _ _ _ _ fun s c t d h => ?_
  first
    | exact coreBody_kept _ _ _ _ _ h
    | ((try simp only [jumpBody, loadBody, storeBody, atomicBody, cacheBody] at h)
       (repeat' split at h) <;> cases h <;> (refine ⟨?_, ?_, ?_⟩ <;> intros <;> simp [*]))

theorem execCall_kept (x : Issue) (off : BitVec 22) (s : State) : Res.Keeps s (execCall x off s) := by
  simp only [execCall, pipR, pipRF, pipI, pipShift, pipShiftI, pipP, pipAtomic, pipIssue]
  refine pipIssueWith_kept _ _ _ _ _ _ _ fun s c t d h => ?_
  first
    | exact coreBody_kept _ _ _ _ _ h
    | ((try simp only [jumpBody, loadBody, storeBody, atomicBody, cacheBody] at h)
       (repeat' split at h) <;> cases h <;> (refine ⟨?_, ?_, ?_⟩ <;> intros <;> simp [*]))

theorem execJr_kept (x : Issue) (ra : Reg) (s : State) : Res.Keeps s (execJr x ra s) := by
  simp only [execJr, pipR, pipRF, pipI, pipShift, pipShiftI, pipP, pipAtomic, pipIssue]
  refine pipIssueWith_kept _ _ _ _ _ _ _ fun s c t d h => ?_
  first
    | exact coreBody_kept _ _ _ _ _ h
    | ((try simp only [jumpBody, loadBody, storeBody, atomicBody, cacheBody] at h)
       (repeat' split at h) <;> cases h <;> (refine ⟨?_, ?_, ?_⟩ <;> intros <;> simp [*]))

theorem execJalr_kept (x : Issue) (rd ra : Reg) (s : State) : Res.Keeps s (execJalr x rd ra s) := by
  simp only [execJalr, pipR, pipRF, pipI, pipShift, pipShiftI, pipP, pipAtomic, pipIssue]
  refine pipIssueWith_kept _ _ _ _ _ _ _ fun s c t d h => ?_
  first
    | exact coreBody_kept _ _ _ _ _ h
    | ((try simp only [jumpBody, loadBody, storeBody, atomicBody, cacheBody] at h)
       (repeat' split at h) <;> cases h <;> (refine ⟨?_, ?_, ?_⟩ <;> intros <;> simp [*]))

theorem execDbnz_kept (x : Issue) (gn : Reg) (off : BitVec 17) (s : State) : Res.Keeps s (execDbnz x gn off s) := by
  simp only [execDbnz, pipR, pipRF, pipI, pipShift, pipShiftI, pipP, pipAtomic, pipIssue]
  refine pipIssueWith_kept _ _ _ _ _ _ _ fun s c t d h => ?_
  first
    | exact coreBody_kept _ _ _ _ _ h
    | ((try simp only [jumpBody, loadBody, storeBody, atomicBody, cacheBody] at h)
       (repeat' split at h) <;> cases h <;> (refine ⟨?_, ?_, ?_⟩ <;> intros <;> simp [*]))

theorem execDblc_kept (x : Issue) (off : BitVec 22) (s : State) : Res.Keeps s (execDblc x off s) := by
  simp only [execDblc, pipR, pipRF, pipI, pipShift, pipShiftI, pipP, pipAtomic, pipIssue]
  refine pipIssueWith_kept _ _ _ _ _ _ _ fun s c t d h => ?_
  first
    | exact coreBody_kept _ _ _ _ _ h
    | ((try simp only [jumpBody, loadBody, storeBody, atomicBody, cacheBody] at h)
       (repeat' split at h) <;> cases h <;> (refine ⟨?_, ?_, ?_⟩ <;> intros <;> simp [*]))

theorem execBCc_kept (x : Issue) (cond : BitVec 4) (off : BitVec 18) (s : State) : Res.Keeps s (execBCc x cond off s) := by
  simp only [execBCc, pipR, pipRF, pipI, pipShift, pipShiftI, pipP, pipAtomic, pipIssue]
  refine pipIssueWith_kept _ _ _ _ _ _ _ fun s c t d h => ?_
  first
    | exact coreBody_kept _ _ _ _ _ h
    | ((try simp only [jumpBody, loadBody, storeBody, atomicBody, cacheBody] at h)
       (repeat' split at h) <;> cases h <;> (refine ⟨?_, ?_, ?_⟩ <;> intros <;> simp [*]))

theorem execRep_kept (x : Issue) (form : BitVec 2) (n : Reg) (imm : BitVec 8) (succ : Word) (s : State)
    : Res.Keeps s (execRep x form n imm succ s) := by
  simp only [execRep, pipR, pipRF, pipI, pipShift, pipShiftI, pipP, pipAtomic, pipIssue]
  refine pipIssueWith_kept _ _ _ _ _ _ _ fun s c t d h => ?_
  first
    | exact coreBody_kept _ _ _ _ _ h
    | ((try simp only [jumpBody, loadBody, storeBody, atomicBody, cacheBody] at h)
       (repeat' split at h) <;> cases h <;> (refine ⟨?_, ?_, ?_⟩ <;> intros <;> simp [*]))

theorem execNop_kept (x : Issue) (s : State) : Res.Keeps s (execNop x s) := by
  simp only [execNop, pipR, pipRF, pipI, pipShift, pipShiftI, pipP, pipAtomic, pipIssue]
  refine pipIssueWith_kept _ _ _ _ _ _ _ fun s c t d h => ?_
  first
    | exact coreBody_kept _ _ _ _ _ h
    | ((try simp only [jumpBody, loadBody, storeBody, atomicBody, cacheBody] at h)
       (repeat' split at h) <;> cases h <;> (refine ⟨?_, ?_, ?_⟩ <;> intros <;> simp [*]))

theorem execBreak_kept (x : Issue) (s : State) : Res.Keeps s (execBreak x s) := by
  simp only [execBreak, pipR, pipRF, pipI, pipShift, pipShiftI, pipP, pipAtomic, pipIssue]
  refine pipIssueWith_kept _ _ _ _ _ _ _ fun s c t d h => ?_
  first
    | exact coreBody_kept _ _ _ _ _ h
    | ((try simp only [jumpBody, loadBody, storeBody, atomicBody, cacheBody] at h)
       (repeat' split at h) <;> cases h <;> (refine ⟨?_, ?_, ?_⟩ <;> intros <;> simp [*]))

theorem execSyscall_kept (x : Issue) (s : State) : Res.Keeps s (execSyscall x s) := by
  simp only [execSyscall, pipR, pipRF, pipI, pipShift, pipShiftI, pipP, pipAtomic, pipIssue]
  refine pipIssueWith_kept _ _ _ _ _ _ _ fun s c t d h => ?_
  first
    | exact coreBody_kept _ _ _ _ _ h
    | ((try simp only [jumpBody, loadBody, storeBody, atomicBody, cacheBody] at h)
       (repeat' split at h) <;> cases h <;> (refine ⟨?_, ?_, ?_⟩ <;> intros <;> simp [*]))

theorem execRti_kept (x : Issue) (s : State) : Res.Keeps s (execRti x s) := by
  simp only [execRti, pipR, pipRF, pipI, pipShift, pipShiftI, pipP, pipAtomic, pipIssue]
  refine pipIssueWith_kept _ _ _ _ _ _ _ fun s c t d h => ?_
  first
    | exact coreBody_kept _ _ _ _ _ h
    | ((try simp only [jumpBody, loadBody, storeBody, atomicBody, cacheBody] at h)
       (repeat' split at h) <;> cases h <;> (refine ⟨?_, ?_, ?_⟩ <;> intros <;> simp [*]))

theorem execWait_kept (x : Issue) (s : State) : Res.Keeps s (execWait x s) := by
  simp only [execWait, pipR, pipRF, pipI, pipShift, pipShiftI, pipP, pipAtomic, pipIssue]
  refine pipIssueWith_kept _ _ _ _ _ _ _ fun s c t d h => ?_
  first
    | exact coreBody_kept _ _ _ _ _ h
    | ((try simp only [jumpBody, loadBody, storeBody, atomicBody, cacheBody] at h)
       (repeat' split at h) <;> cases h <;> (refine ⟨?_, ?_, ?_⟩ <;> intros <;> simp [*]))

theorem execWaitWake_kept (core : Nat) (s : State) : Res.Keeps s (execWaitWake core s) := by
  unfold execWaitWake
  try dsimp only
  (repeat' split)
  all_goals (refine Res.keeps_next ?_; refine ⟨?_, ?_, ?_⟩ <;> intros <;> simp [*])

theorem execIsync_kept (x : Issue) (s : State) : Res.Keeps s (execIsync x s) := by
  simp only [execIsync, pipR, pipRF, pipI, pipShift, pipShiftI, pipP, pipAtomic, pipIssue]
  refine pipIssueWith_kept _ _ _ _ _ _ _ fun s c t d h => ?_
  first
    | exact coreBody_kept _ _ _ _ _ h
    | ((try simp only [jumpBody, loadBody, storeBody, atomicBody, cacheBody] at h)
       (repeat' split at h) <;> cases h <;> (refine ⟨?_, ?_, ?_⟩ <;> intros <;> simp [*]))

theorem execFenceW_kept (x : Issue) (s : State) : Res.Keeps s (execFenceW x s) := by
  simp only [execFenceW, pipR, pipRF, pipI, pipShift, pipShiftI, pipP, pipAtomic, pipIssue]
  refine pipIssueWith_kept _ _ _ _ _ _ _ fun s c t d h => ?_
  first
    | exact coreBody_kept _ _ _ _ _ h
    | ((try simp only [jumpBody, loadBody, storeBody, atomicBody, cacheBody] at h)
       (repeat' split at h) <;> cases h <;> (refine ⟨?_, ?_, ?_⟩ <;> intros <;> simp [*]))

theorem execFenceWDrainEnd_kept (core : Nat) (s : State) : Res.Keeps s (execFenceWDrainEnd core s) := by
  unfold execFenceWDrainEnd
  try dsimp only
  (repeat' split)
  all_goals (refine Res.keeps_next ?_; refine ⟨?_, ?_, ?_⟩ <;> intros <;> simp [*])

theorem execCln_kept (x : Issue) (ra : Reg) (s : State) : Res.Keeps s (execCln x ra s) := by
  simp only [execCln, pipR, pipRF, pipI, pipShift, pipShiftI, pipP, pipAtomic, pipIssue]
  refine pipIssueWith_kept _ _ _ _ _ _ _ fun s c t d h => ?_
  first
    | exact coreBody_kept _ _ _ _ _ h
    | ((try simp only [jumpBody, loadBody, storeBody, atomicBody, cacheBody] at h)
       (repeat' split at h) <;> cases h <;> (refine ⟨?_, ?_, ?_⟩ <;> intros <;> simp [*]))

theorem execClinv_kept (x : Issue) (ra : Reg) (s : State) : Res.Keeps s (execClinv x ra s) := by
  simp only [execClinv, pipR, pipRF, pipI, pipShift, pipShiftI, pipP, pipAtomic, pipIssue]
  refine pipIssueWith_kept _ _ _ _ _ _ _ fun s c t d h => ?_
  first
    | exact coreBody_kept _ _ _ _ _ h
    | ((try simp only [jumpBody, loadBody, storeBody, atomicBody, cacheBody] at h)
       (repeat' split at h) <;> cases h <;> (refine ⟨?_, ?_, ?_⟩ <;> intros <;> simp [*]))

theorem execInv_kept (x : Issue) (ra : Reg) (s : State) : Res.Keeps s (execInv x ra s) := by
  simp only [execInv, pipR, pipRF, pipI, pipShift, pipShiftI, pipP, pipAtomic, pipIssue]
  refine pipIssueWith_kept _ _ _ _ _ _ _ fun s c t d h => ?_
  first
    | exact coreBody_kept _ _ _ _ _ h
    | ((try simp only [jumpBody, loadBody, storeBody, atomicBody, cacheBody] at h)
       (repeat' split at h) <;> cases h <;> (refine ⟨?_, ?_, ?_⟩ <;> intros <;> simp [*]))

theorem execIinv_kept (x : Issue) (ra : Reg) (s : State) : Res.Keeps s (execIinv x ra s) := by
  simp only [execIinv, pipR, pipRF, pipI, pipShift, pipShiftI, pipP, pipAtomic, pipIssue]
  refine pipIssueWith_kept _ _ _ _ _ _ _ fun s c t d h => ?_
  first
    | exact coreBody_kept _ _ _ _ _ h
    | ((try simp only [jumpBody, loadBody, storeBody, atomicBody, cacheBody] at h)
       (repeat' split at h) <;> cases h <;> (refine ⟨?_, ?_, ?_⟩ <;> intros <;> simp [*]))

theorem execUndefinedInstruction_kept (x : Issue) (word : Word) (s : State)
    : Res.Keeps s (execUndefinedInstruction x word s) := by
  unfold execUndefinedInstruction
  split
  · exact pipIssueWith_kept _ _ _ _ _ _ _ fun s c t d h => coreBody_kept _ _ _ _ _ h
  · exact kept_self s

theorem execPipLoadReturn_kept (core : Nat) (ue ce : Bool) (evict : Option Nat) (s : State) :
    Res.Keeps s (execPipLoadReturn core ue ce evict s) := by
  have hs : ∀ (t : State) (c : Core), Kept t (t.setCore core c) := fun t c => kept_of_same (by simp) (by simp) (by simp)
  unfold execPipLoadReturn
  dsimp only
  cases (s.core core).pend with
  | none => exact kept_self s
  | some p =>
    dsimp only
    by_cases hr : (s.core core).run ≠ .running
    · rw [if_pos hr]; exact kept_self s
    · rw [if_neg hr]
      generalize (Core.buffered _ _ _ || _ || _) = w
      cases w
      · have h0 : Kept s ((s.stalled (s.core core)).1.setCore core (s.stalled (s.core core)).2) :=
          (show Kept s (s.stalled (s.core core)).1 from kept_self s).trans (hs _ _)
        generalize (s.stalled (s.core core)).1.setCore core (s.stalled (s.core core)).2 = u at h0 ⊢
        generalize hq : State.readRanges _ _ = q
        have h1 : Kept s q.2 := by
          rw [← hq]
          exact h0.trans (Kept.trans (ite_kept _ (State.upset_kept _ _ _) (ite_kept _ (State.upset_kept _ _ _) (kept_self _)))
            (State.readRanges_kept _ _))
        obtain ⟨ws, t⟩ := q
        cases ws with
        | nil => exact Res.keeps_next (h1.trans (State.loadDone_kept _ _ _ _ _))
        | cons a r => exact Res.keeps_next (h1.trans (hs _ _))
      · exact kept_self s

theorem execWriteBufferDrain_kept (core : Nat) (ue : Bool) (s : State) : Res.Keeps s (execWriteBufferDrain core ue s) := by
  unfold execWriteBufferDrain
  try dsimp only
  (repeat' split)
  all_goals (refine Res.keeps_next ?_; refine ⟨?_, ?_, ?_⟩ <;> intros <;> simp [*])

theorem execScrubRead_kept (word : Nat) (ce ue : Bool) (s : State) : Res.Keeps s (execScrubRead word ce ue s) := by
  have hn : ∀ (t : State) (a : Nat), Kept t (t.scrubNext a) := fun t a => kept_of_same (by simp) (by simp) (by simp)
  unfold execScrubRead
  dsimp only
  split
  · exact kept_self s
  · exact Res.keeps_next (((ite_kept _ (State.upset_kept _ _ _) (ite_kept _ (State.upset_kept _ _ _) (kept_self _))).trans
      (State.readRanges_kept _ _)).trans (hn _ _))

theorem execLpxPowerDown_kept (s : State) : Res.Keeps s (execLpxPowerDown s) := by
  unfold execLpxPowerDown
  try dsimp only
  (repeat' split)
  all_goals (refine Res.keeps_next ?_; refine ⟨?_, ?_, ?_⟩ <;> intros <;> simp [*])

theorem execLpxSelfRefresh_kept (s : State) : Res.Keeps s (execLpxSelfRefresh s) := by
  unfold execLpxSelfRefresh
  try dsimp only
  (repeat' split)
  all_goals (refine Res.keeps_next ?_; refine ⟨?_, ?_, ?_⟩ <;> intros <;> simp [*])

theorem execLpxPowerExit_kept (s : State) : Res.Keeps s (execLpxPowerExit s) := by
  unfold execLpxPowerExit
  try dsimp only
  (repeat' split)
  all_goals (refine Res.keeps_next ?_; refine ⟨?_, ?_, ?_⟩ <;> intros <;> simp [*])

theorem execLineSamplePoint_kept (s : Nat) (ue : List Nat) (st : State) : Res.Keeps st (execLineSamplePoint s ue st) := by
  unfold execLineSamplePoint
  try dsimp only
  (repeat' split)
  all_goals (refine Res.keeps_next ?_; refine ⟨?_, ?_, ?_⟩ <;> intros <;> simp [*])

theorem execLayerLineComposed_kept (s l cycles : Nat) (st : State) : Res.Keeps st (execLayerLineComposed s l cycles st) := by
  unfold execLayerLineComposed
  try dsimp only
  (repeat' split)
  all_goals (refine Res.keeps_next ?_; refine ⟨?_, ?_, ?_⟩ <;> intros <;> simp [*])

theorem execSpriteLineDrawn_kept (s p : Nat) (st : State) : Res.Keeps st (execSpriteLineDrawn s p st) := by
  unfold execSpriteLineDrawn
  try dsimp only
  all_goals (refine Res.keeps_next ?_; refine ⟨?_, ?_, ?_⟩ <;> intros <;> simp [*])

theorem execSegmentBoundary_kept (s : Nat) (late : BitVec 24) (st : State) : Res.Keeps st (execSegmentBoundary s late st) := by
  unfold execSegmentBoundary
  try dsimp only
  (repeat' split)
  all_goals (refine Res.keeps_next ?_; refine ⟨?_, ?_, ?_⟩ <;> intros <;> simp [*])

theorem execLatchInstant_kept (s : Nat) (st : State) : Res.Keeps st (execLatchInstant s st) := by
  unfold execLatchInstant
  try dsimp only
  (repeat' split)
  all_goals (refine Res.keeps_next ?_; refine ⟨?_, ?_, ?_⟩ <;> intros <;> simp [*])

theorem execFrameBoundary_kept (s : Nat) (st : State) : Res.Keeps st (execFrameBoundary s st) := by
  unfold execFrameBoundary
  try dsimp only
  (repeat' split)
  all_goals (refine Res.keeps_next ?_; refine ⟨?_, ?_, ?_⟩ <;> intros <;> simp [*])

theorem execHoldEnd_kept (s : Nat) (st : State) : Res.Keeps st (execHoldEnd s st) := by
  unfold execHoldEnd
  try dsimp only
  (repeat' split)
  all_goals (refine Res.keeps_next ?_; refine ⟨?_, ?_, ?_⟩ <;> intros <;> simp [*])

theorem execTimCommit_kept (s : Nat) (st : State) : Res.Keeps st (execTimCommit s st) := by
  unfold execTimCommit
  try dsimp only
  all_goals (refine Res.keeps_next ?_; refine ⟨?_, ?_, ?_⟩ <;> intros <;> simp [*])

theorem execTimRevert_kept (s : Nat) (st : State) : Res.Keeps st (execTimRevert s st) := by
  unfold execTimRevert
  try dsimp only
  all_goals (refine Res.keeps_next ?_; refine ⟨?_, ?_, ?_⟩ <;> intros <;> simp [*])

theorem execLinkLoss_kept (p : Nat) (s : State) : Res.Keeps s (execLinkLoss p s) := by
  unfold execLinkLoss
  try dsimp only
  all_goals (refine Res.keeps_next ?_; refine ⟨?_, ?_, ?_⟩ <;> intros <;> simp [*])

theorem execLinkTrainingEnd_kept (p : Nat) (ok : Bool) (s : State) : Res.Keeps s (execLinkTrainingEnd p ok s) := by
  unfold execLinkTrainingEnd
  try dsimp only
  (repeat' split)
  all_goals (refine Res.keeps_next ?_; refine ⟨?_, ?_, ?_⟩ <;> intros <;> simp [*])

theorem execTmdsPllLock_kept (p : Nat) (s : State) : Res.Keeps s (execTmdsPllLock p s) := by
  unfold execTmdsPllLock
  try dsimp only
  all_goals (refine Res.keeps_next ?_; refine ⟨?_, ?_, ?_⟩ <;> intros <;> simp [*])

theorem execHpdChange_kept (p : Nat) (level : Bool) (s : State) : Res.Keeps s (execHpdChange p level s) := by
  unfold execHpdChange
  try dsimp only
  (repeat' split)
  all_goals (refine Res.keeps_next ?_; refine ⟨?_, ?_, ?_⟩ <;> intros <;> simp [*])

theorem execEdidRead_kept (p : Nat) (v : Word) (s : State) : Res.Keeps s (execEdidRead p v s) := by
  unfold execEdidRead
  try dsimp only
  (repeat' split)
  all_goals (refine Res.keeps_next ?_; refine ⟨?_, ?_, ?_⟩ <;> intros <;> simp [*])

theorem execEdidReadEnd_kept (p : Nat) (data : Option (List Byte)) (s : State) : Res.Keeps s (execEdidReadEnd p data s) := by
  unfold execEdidReadEnd
  try dsimp only
  (repeat' split)
  all_goals (refine Res.keeps_next ?_; refine ⟨?_, ?_, ?_⟩ <;> intros <;> simp [*])

theorem execPrismFlipArm_kept (s k : Nat) (v : Word) (st : State) : Res.Keeps st (execPrismFlipArm s k v st) := by
  unfold execPrismFlipArm
  try dsimp only
  all_goals (refine Res.keeps_next ?_; refine ⟨?_, ?_, ?_⟩ <;> intros <;> simp [*])

theorem execPrismFlipCancel_kept (s k : Nat) (v : Word) (st : State) : Res.Keeps st (execPrismFlipCancel s k v st) := by
  unfold execPrismFlipCancel
  try dsimp only
  all_goals (refine Res.keeps_next ?_; refine ⟨?_, ?_, ?_⟩ <;> intros <;> simp [*])

theorem execFence_kept (i : Initiator) (s f : Nat) (v : Word) (st : State) : Res.Keeps st (execFence i s f v st) := by
  unfold execFence
  try dsimp only
  all_goals (refine Res.keeps_next ?_; refine ⟨?_, ?_, ?_⟩ <;> intros <;> simp [*])

theorem execFenceAdd_kept (i : Initiator) (s f : Nat) (v : Word) (st : State) : Res.Keeps st (execFenceAdd i s f v st) := by
  unfold execFenceAdd
  try dsimp only
  all_goals (refine Res.keeps_next ?_; refine ⟨?_, ?_, ?_⟩ <;> intros <;> simp [*])

theorem execChordProgramStart_kept (s : Nat) (ueWord : Option Nat) (st : State)
    : Res.Keeps st (execChordProgramStart s ueWord st) := by
  unfold execChordProgramStart
  try dsimp only
  (repeat' split)
  all_goals (refine Res.keeps_next ?_; refine ⟨?_, ?_, ?_⟩ <;> intros <;> simp [*])

theorem execChordEnd_kept (s : Nat) (st : State) : Res.Keeps st (execChordEnd s st) := by
  refine chordStep_kept _ _ _ _ fun n => ?_
  try dsimp only
  all_goals (refine ⟨?_, ?_, ?_⟩ <;> intros <;> simp [*])

theorem execChordWait_kept (s : Nat) (st : State) : Res.Keeps st (execChordWait s st) := by
  refine chordStep_kept _ _ _ _ fun n => ?_
  try dsimp only
  all_goals (refine ⟨?_, ?_, ?_⟩ <;> intros <;> simp [*])

theorem execChordWaitDue_kept (s : Nat) (st : State) : Res.Keeps st (execChordWaitDue s st) := by
  unfold execChordWaitDue
  try dsimp only
  (repeat' split)
  all_goals (refine Res.keeps_next ?_; refine ⟨?_, ?_, ?_⟩ <;> intros <;> simp [*])

theorem execChordWrite_kept (s : Nat) (st : State) : Res.Keeps st (execChordWrite s st) := by
  refine chordStep_kept _ _ _ _ fun n => ?_
  try dsimp only
  all_goals (refine ⟨?_, ?_, ?_⟩ <;> intros <;> simp [*])

theorem execMaskwrite_kept (s : Nat) (st : State) : Res.Keeps st (execMaskwrite s st) := by
  refine chordStep_kept _ _ _ _ fun n => ?_
  try dsimp only
  (repeat' split)
  all_goals (refine ⟨?_, ?_, ?_⟩ <;> intros <;> simp [*])

theorem execWriteClass0_kept (s : Nat) (st : State) : Res.Keeps st (execWriteClass0 s st) := by
  refine chordStep_kept _ _ _ _ fun n => ?_
  try dsimp only
  (repeat' split)
  all_goals (refine ⟨?_, ?_, ?_⟩ <;> intros <;> simp [*])

theorem execSkipIf_kept (s : Nat) (st : State) : Res.Keeps st (execSkipIf s st) := by
  refine chordStep_kept _ _ _ _ fun n => ?_
  try dsimp only
  (repeat' split)
  all_goals (refine ⟨?_, ?_, ?_⟩ <;> intros <;> simp [*])

theorem execLoop_kept (s : Nat) (st : State) : Res.Keeps st (execLoop s st) := by
  refine chordStep_kept _ _ _ _ fun n => ?_
  try dsimp only
  all_goals (refine ⟨?_, ?_, ?_⟩ <;> intros <;> simp [*])

theorem execFenceSignal_kept (s : Nat) (st : State) : Res.Keeps st (execFenceSignal s st) := by
  refine chordStep_kept _ _ _ _ fun n => ?_
  try dsimp only
  (repeat' split)
  all_goals (refine ⟨?_, ?_, ?_⟩ <;> intros <;> simp [*])

theorem execChordIrq_kept (s : Nat) (st : State) : Res.Keeps st (execChordIrq s st) := by
  refine chordStep_kept _ _ _ _ fun n => ?_
  try dsimp only
  all_goals (refine ⟨?_, ?_, ?_⟩ <;> intros <;> simp [*])

theorem execBadOp_kept (s : Nat) (st : State) : Res.Keeps st (execBadOp s st) := by
  unfold execBadOp
  try dsimp only
  (repeat' split)
  all_goals (refine Res.keeps_next ?_; refine ⟨?_, ?_, ?_⟩ <;> intros <;> simp [*])

theorem execQiFilterAccept_kept (q : Nat) (level : Bool) (s : State) : Res.Keeps s (execQiFilterAccept q level s) := by
  unfold execQiFilterAccept
  try dsimp only
  (repeat' split)
  all_goals (refine Res.keeps_next ?_; refine ⟨?_, ?_, ?_⟩ <;> intros <;> simp [*])

theorem execReflexDelivery_kept (s : Nat) (st : State) : Res.Keeps st (execReflexDelivery s st) := by
  unfold execReflexDelivery
  split
  · split
    · refine Res.keeps_next ?_
      refine ⟨?_, ?_, fun h => ?_⟩
      · exact (foldl_keep2 _ (fun t w => State.arriveReflex_frame t s w) _ _).1.trans (by simp)
      · exact (foldl_keep2 _ (fun t w => State.arriveReflex_frame t s w) _ _).2.trans (by simp)
      · exact foldl_wf _ (fun t w h => State.arriveReflex_wf t s w h) _ _ (by simp [h])
    · exact kept_self st
  · exact kept_self st

theorem execQiCfgWrite_kept (i : Initiator) (s q : Nat) (v : Word) (st : State) : Res.Keeps st (execQiCfgWrite i s q v st) := by
  unfold execQiCfgWrite
  try dsimp only
  all_goals (refine Res.keeps_next ?_; refine ⟨?_, ?_, ?_⟩ <;> intros <;> simp [*])

theorem execSampleStrobe_kept (s : Nat) (st : State) : Res.Keeps st (execSampleStrobe s st) := by
  unfold execSampleStrobe
  try dsimp only
  (repeat' split)
  all_goals (refine Res.keeps_next ?_; refine ⟨?_, ?_, ?_⟩ <;> intros <;> simp [*])

theorem execBlockBoundary_kept (s : Nat) (late ue : List Nat) (st : State) : Res.Keeps st (execBlockBoundary s late ue st) := by
  unfold execBlockBoundary
  dsimp only
  split
  · refine Res.keeps_next ?_
    have h1 : Kept st (ue.foldl (fun (st : State) a => st.upset a 3) st) :=
      foldl_kept _ (fun t a => State.upset_kept t a 3) ue st
    exact h1.trans ⟨by simp, by simp, fun h => by simp [h]⟩
  · exact kept_self st

theorem execVoiceClassStep_kept (s v : Nat) (st : State) : Res.Keeps st (execVoiceClassStep s v st) := by
  unfold execVoiceClassStep
  try dsimp only
  all_goals (refine Res.keeps_next ?_; refine ⟨?_, ?_, ?_⟩ <;> intros <;> simp [*])

theorem execVoiceFeed_kept (i : Initiator) (s v : Nat) (n : Word) (st : State) : Res.Keeps st (execVoiceFeed i s v n st) := by
  unfold execVoiceFeed
  try dsimp only
  all_goals (refine Res.keeps_next ?_; refine ⟨?_, ?_, ?_⟩ <;> intros <;> simp [*])

theorem execChanStart_kept (i : Initiator) (c : Nat) (s : State) : Res.Keeps s (execChanStart i c s) := by
  refine Res.keeps_next (State.vineWrite_kept _ _ _ _ _ ?_)
  try dsimp only
  all_goals (refine ⟨?_, ?_, ?_⟩ <;> intros <;> simp [*])

theorem execChanAbort_kept (i : Initiator) (c : Nat) (s : State) : Res.Keeps s (execChanAbort i c s) := by
  refine Res.keeps_next (State.vineWrite_kept _ _ _ _ _ ?_)
  try dsimp only
  all_goals (refine ⟨?_, ?_, ?_⟩ <;> intros <;> simp [*])

theorem execGrpDoorbell_kept (i : Initiator) (g : Nat) (v : Word) (s : State) : Res.Keeps s (execGrpDoorbell i g v s) := by
  refine Res.keeps_next (State.vineWrite_kept _ _ _ _ _ ?_)
  try dsimp only
  (repeat' split)
  all_goals (refine ⟨?_, ?_, ?_⟩ <;> intros <;> simp [*])

theorem execGrpSync_kept (i : Initiator) (g : Nat) (v : Word) (s : State) : Res.Keeps s (execGrpSync i g v s) := by
  refine Res.keeps_next (State.vineWrite_kept _ _ _ _ _ ?_)
  try dsimp only
  all_goals (refine ⟨?_, ?_, ?_⟩ <;> intros <;> simp [*])

theorem execDescriptorComplete_kept (c : Nat) (asset : List Byte) (ue storeErr : Bool) (s : State) :
    Res.Keeps s (execDescriptorComplete c asset ue storeErr s) := by
  have hg : ∀ t : State, Kept t t.storeGo := fun t => kept_of_same (by simp) (by simp) (by simp)
  unfold execDescriptorComplete
  dsimp only
  split
  · exact kept_self s
  · split
    · exact Res.keeps_next (Kept.trans ⟨by simp, by simp, fun h => by simp [h]⟩ (hg _))
    · split
      · exact kept_self s
      · split
        · exact kept_self s
        · generalize hq : State.transfer _ _ _ _ _ = q
          have h1 : Kept s q.2.2 := by
            rw [← hq]
            refine Kept.trans (ite_kept _ (Kept.trans ?_ (State.upset_kept _ _ _)) ?_) (State.transfer_kept _ _ _ _ _) <;>
              (split <;> exact kept_self s)
          split
          · exact Res.keeps_next (h1.trans ⟨by simp, by simp, fun h => State.stopChan_wf _ _ _ _ h⟩)
          · exact Res.keeps_next (h1.trans (Kept.trans ⟨by simp, by simp, fun h => State.afterDesc_wf _ _ (State.finishDesc_wf _ _ h)⟩ (hg _)))

theorem execRootLinkUp_kept (p lbaBytes blocks pairs : Nat) (s : State)
    : Res.Keeps s (execRootLinkUp p lbaBytes blocks pairs s) := by
  unfold execRootLinkUp
  try dsimp only
  (repeat' split)
  all_goals (refine Res.keeps_next ?_; refine ⟨?_, ?_, ?_⟩ <;> intros <;> simp [*])

theorem execNvmeCommandComplete_kept (d idx : Nat) (status : BitVec 16) (s : State) :
    Res.Keeps s (execNvmeCommandComplete d idx status s) :=
  Res.keeps_next ((State.nvmeEnd_kept s d idx status).trans (State.readFailed_kept _))

theorem execLedgerScanEnd_kept (d : Nat) (highest : Option Nat) (s : State) : Res.Keeps s (execLedgerScanEnd d highest s) := by
  unfold execLedgerScanEnd
  try dsimp only
  (repeat' split)
  all_goals (refine Res.keeps_next ?_; refine ⟨?_, ?_, ?_⟩ <;> intros <;> simp [*])

theorem execLdgSubmit_kept (i : Initiator) (g : Nat) (len : Word) (s : State) : Res.Keeps s (execLdgSubmit i g len s) := by
  refine Res.keeps_next (State.vineWrite_kept _ _ _ _ _ ?_)
  try dsimp only
  all_goals (refine ⟨?_, ?_, ?_⟩ <;> intros <;> simp [*])

theorem execPressStart_kept (s : Nat) (st : State) : Res.Keeps st (execPressStart s st) := by
  unfold execPressStart
  try dsimp only
  all_goals (refine Res.keeps_next ?_; refine ⟨?_, ?_, ?_⟩ <;> intros <;> simp [*])

theorem execPressAbort_kept (s : Nat) (st : State) : Res.Keeps st (execPressAbort s st) := by
  unfold execPressAbort
  try dsimp only
  all_goals (refine Res.keeps_next ?_; refine ⟨?_, ?_, ?_⟩ <;> intros <;> simp [*])

theorem execPressRowDone_kept (s : Nat) (ue : Bool) (st : State) : Res.Keeps st (execPressRowDone s ue st) := by
  unfold execPressRowDone
  try dsimp only
  (repeat' split)
  all_goals (refine Res.keeps_next ?_; refine ⟨?_, ?_, ?_⟩ <;> intros <;> simp [*])

theorem execPressWm_kept (s : Nat) (v : Word) (st : State) : Res.Keeps st (execPressWm s v st) := by
  unfold execPressWm
  try dsimp only
  all_goals (refine Res.keeps_next ?_; refine ⟨?_, ?_, ?_⟩ <;> intros <;> simp [*])

theorem execPressComplete_kept (s : Nat) (st : State) : Res.Keeps st (execPressComplete s st) := by
  unfold execPressComplete
  try dsimp only
  (repeat' split)
  all_goals (refine Res.keeps_next ?_; refine ⟨?_, ?_, ?_⟩ <;> intros <;> simp [*])

theorem execPressBurstDeadEnd_kept (s : Nat) (st : State) : Res.Keeps st (execPressBurstDeadEnd s st) := by
  unfold execPressBurstDeadEnd
  try dsimp only
  all_goals (refine Res.keeps_next ?_; refine ⟨?_, ?_, ?_⟩ <;> intros <;> simp [*])

theorem execTcArm_kept (i : Initiator) (k : Nat) (s : State) : Res.Keeps s (execTcArm i k s) := by
  exact Res.keeps_next (State.timerWrite_kept _ _ _ _ _ ⟨by simp, by simp, by simp⟩)

theorem execTcStop_kept (i : Initiator) (k : Nat) (s : State) : Res.Keeps s (execTcStop i k s) := by
  exact Res.keeps_next (State.timerWrite_kept _ _ _ _ _ ⟨by simp, by simp, by simp⟩)

theorem execTcTick_kept (k : Nat) (s : State) : Res.Keeps s (execTcTick k s) :=
  Res.keeps_next (ite_kept _ (kept_of_same (by simp) (by simp) (by simp)) (kept_self s))

theorem execTcEnd_kept (k : Nat) (s : State) : Res.Keeps s (execTcEnd k s) :=
  Res.keeps_next (ite_kept _ (kept_of_same (by simp) (by simp) (by simp)) (kept_self s))

theorem execTcLinkEvent_kept (k : Nat) (s : State) : Res.Keeps s (execTcLinkEvent k s) := by
  unfold execTcLinkEvent
  dsimp only
  split
  · exact kept_self s
  · split <;> exact Res.keeps_next (kept_of_same (by simp) (by simp) (by simp))

theorem execTcCmpWrite_kept (i : Initiator) (k j : Nat) (v : Word) (s : State) : Res.Keeps s (execTcCmpWrite i k j v s) := by
  exact Res.keeps_next (State.timerWrite_kept _ _ _ _ _ ⟨by simp, by simp, by simp⟩)

theorem execTcCapture_kept (k : Nat) (level : Bool) (s : State) : Res.Keeps s (execTcCapture k level s) := by
  unfold execTcCapture
  try dsimp only
  all_goals (refine Res.keeps_next ?_; refine ⟨?_, ?_, ?_⟩ <;> intros <;> simp [*])

theorem execTcCapcfgWrite_kept (i : Initiator) (k : Nat) (v : Word) (s : State) : Res.Keeps s (execTcCapcfgWrite i k v s) := by
  exact Res.keeps_next (State.timerWrite_kept _ _ _ _ _ ⟨by simp, by simp, by simp⟩)

theorem execTallySet_kept (i : Initiator) (lo : Word) (s : State) : Res.Keeps s (execTallySet i lo s) := by
  unfold execTallySet
  try dsimp only
  (repeat' split)
  all_goals (refine Res.keeps_next ?_; refine ⟨?_, ?_, ?_⟩ <;> intros <;> simp [*])

theorem execTallyAlarm_kept (s : State) : Res.Keeps s (execTallyAlarm s) := by
  unfold execTallyAlarm
  try dsimp only
  all_goals (refine Res.keeps_next ?_; refine ⟨?_, ?_, ?_⟩ <;> intros <;> simp [*])

theorem execUnitFaultDetect_kept (sector kind unit detector : Nat) (s : State)
    : Res.Keeps s (execUnitFaultDetect sector kind unit detector s) := by
  unfold execUnitFaultDetect
  try dsimp only
  (repeat' split)
  all_goals (refine Res.keeps_next ?_; refine ⟨?_, ?_, ?_⟩ <;> intros <;> simp [*])

theorem execSecRepair_kept (sector : Nat) (v : Word) (s : State) : Res.Keeps s (execSecRepair sector v s) := by
  unfold execSecRepair
  try dsimp only
  (repeat' split)
  all_goals (refine Res.keeps_next ?_; refine ⟨?_, ?_, ?_⟩ <;> intros <;> simp [*])

theorem execRepairLoadComplete_kept (sector : Nat) (ue : Bool) (s : State) : Res.Keeps s (execRepairLoadComplete sector ue s) := by
  unfold execRepairLoadComplete
  dsimp only
  split
  · generalize hq : State.readShadow _ _ _ _ _ = q
    have h1 : Kept s q.2 := by
      rw [← hq]
      exact Kept.trans (kept_of_same (by simp) (by simp) (by simp)) (State.readShadow_kept _ _ _ _ _)
    split
    · exact Res.keeps_next (h1.trans ⟨by simp, by simp, fun h => by simp [h]⟩)
    · refine Res.keeps_next (h1.trans ?_)
      split <;> exact ⟨by simp, by simp, fun h => by simp [h]⟩
  · exact kept_self s

theorem execShedPerPolicy_kept (s kind lindex : Nat) (st : State) : Res.Keeps st (execShedPerPolicy s kind lindex st) := by
  unfold execShedPerPolicy
  try dsimp only
  (repeat' split)
  all_goals (refine Res.keeps_next ?_; refine ⟨?_, ?_, ?_⟩ <;> intros <;> simp [*])

theorem execMirrorBufferDrain_kept (sector : Nat) (s : State) : Res.Keeps s (execMirrorBufferDrain sector s) := by
  unfold execMirrorBufferDrain
  try dsimp only
  (repeat' split)
  all_goals (refine Res.keeps_next ?_; refine ⟨?_, ?_, ?_⟩ <;> intros <;> simp [*])

theorem execPipCkptTake_kept (core : Nat) (s : State) : Res.Keeps s (execPipCkptTake core s) := by
  unfold execPipCkptTake
  try dsimp only
  (repeat' split)
  all_goals (refine Res.keeps_next ?_; refine ⟨?_, ?_, ?_⟩ <;> intros <;> simp [*])

theorem execCheckpointComplete_kept (core : Nat) (s : State) : Res.Keeps s (execCheckpointComplete core s) := by
  unfold execCheckpointComplete
  try dsimp only
  (repeat' split)
  all_goals (refine Res.keeps_next ?_; refine ⟨?_, ?_, ?_⟩ <;> intros <;> simp [*])

theorem execKeeperHb_kept (w : Nat) (s : State) : Res.Keeps s (execKeeperHb w s) := by
  unfold execKeeperHb
  try dsimp only
  all_goals (refine Res.keeps_next ?_; refine ⟨?_, ?_, ?_⟩ <;> intros <;> simp [*])

theorem execWardenLost_kept (w : Nat) (s : State) : Res.Keeps s (execWardenLost w s) := by
  unfold execWardenLost
  try dsimp only
  (repeat' split)
  all_goals (refine Res.keeps_next ?_; refine ⟨?_, ?_, ?_⟩ <;> intros <;> simp [*])

theorem execFaultPin_kept (v : Word) (s : State) : Res.Keeps s (execFaultPin v s) := by
  unfold execFaultPin
  try dsimp only
  all_goals (refine Res.keeps_next ?_; refine ⟨?_, ?_, ?_⟩ <;> intros <;> simp [*])

theorem execEntryStepComplete_kept (s : State) : Res.Keeps s (execEntryStepComplete s) := by
  unfold execEntryStepComplete
  try dsimp only
  (repeat' split)
  all_goals (refine Res.keeps_next ?_; refine ⟨?_, ?_, ?_⟩ <;> intros <;> simp [*])

theorem execWakeEvent_kept (src detail : Nat) (s : State) : Res.Keeps s (execWakeEvent src detail s) := by
  unfold execWakeEvent
  try dsimp only
  (repeat' split)
  all_goals (refine Res.keeps_next ?_; refine ⟨?_, ?_, ?_⟩ <;> intros <;> simp [*])

theorem execWakeSequenceEnd_kept (s : State) : Res.Keeps s (execWakeSequenceEnd s) := by
  unfold execWakeSequenceEnd
  try dsimp only
  (repeat' split)
  all_goals (refine Res.keeps_next ?_; refine ⟨?_, ?_, ?_⟩ <;> intros <;> simp [*])

theorem execDeepWake_kept (lprc : Nat) (s : State) : Res.Keeps s (execDeepWake lprc s) := by
  unfold execDeepWake
  try dsimp only
  (repeat' split)
  all_goals (refine Res.keeps_next ?_; refine ⟨?_, ?_, ?_⟩ <;> intros <;> simp [*])

theorem execSpokeReply_kept (b : Nat) (frame : List Byte) (stopsValid : Bool) (s : State)
    : Res.Keeps s (execSpokeReply b frame stopsValid s) := by
  unfold execSpokeReply
  try dsimp only
  (repeat' split)
  all_goals (refine Res.keeps_next ?_; refine ⟨?_, ?_, ?_⟩ <;> intros <;> simp [*])

theorem execSpokeTimeout_kept (b : Nat) (s : State) : Res.Keeps s (execSpokeTimeout b s) := by
  unfold execSpokeTimeout
  try dsimp only
  (repeat' split)
  all_goals (refine Res.keeps_next ?_; refine ⟨?_, ?_, ?_⟩ <;> intros <;> simp [*])

theorem execSpkBcast_kept (b : Nat) (v : Word) (s : State) : Res.Keeps s (execSpkBcast b v s) := by
  unfold execSpkBcast
  try dsimp only
  all_goals (refine Res.keeps_next ?_; refine ⟨?_, ?_, ?_⟩ <;> intros <;> simp [*])

theorem execUsbPortReset_kept (p : Nat) (s : State) : Res.Keeps s (execUsbPortReset p s) := by
  unfold execUsbPortReset
  try dsimp only
  all_goals (refine Res.keeps_next ?_; refine ⟨?_, ?_, ?_⟩ <;> intros <;> simp [*])

theorem execUsbPortResume_kept (p : Nat) (s : State) : Res.Keeps s (execUsbPortResume p s) := by
  unfold execUsbPortResume
  try dsimp only
  all_goals (refine Res.keeps_next ?_; refine ⟨?_, ?_, ?_⟩ <;> intros <;> simp [*])

theorem execUsbPortEvent_kept (p : Nat) (kind : BitVec 2) (level : Bool) (s : State)
    : Res.Keeps s (execUsbPortEvent p kind level s) := by
  unfold execUsbPortEvent
  try dsimp only
  (repeat' split)
  all_goals (refine Res.keeps_next ?_; refine ⟨?_, ?_, ?_⟩ <;> intros <;> simp [*])

theorem execPipeRecordEnd_kept (p i : Nat) (code : BitVec 8) (moved : Nat) (data : List Byte) (s : State) :
    Res.Keeps s (execPipeRecordEnd p i code moved data s) := by
  have hs : ∀ (b : Bool) (t : State) (a : Nat) (l : List Byte), Kept t (if b = true then t.storeBytes a l else t) :=
    fun b t a l => ite_kept _ ⟨by simp, by simp, fun h => by simp [h]⟩ (kept_self _)
  have he : ∀ (t : State) (x : Pipe) (b : Bool) (a : Nat) (f : Word → Word),
      Kept t (if b = true then (t.setPipe p i x).modDreg a f else t.setPipe p i x) := fun t x b a f =>
    ite_kept _ (kept_of_same (by simp) (by simp) (by simp)) (kept_of_same (by simp) (by simp) (by simp))
  unfold execPipeRecordEnd
  dsimp only
  split
  · exact kept_self s
  · exact Res.keeps_next ((((State.readRanges_kept _ _).trans (hs _ _ _ _)).trans (hs _ _ _ _)).trans (he _ _ _ _ _))

theorem execPeLinkEvent_kept (p : Nat) (st : BitVec 11) (aerUnc aerCor : Word) (s : State) :
    Res.Keeps s (execPeLinkEvent p st aerUnc aerCor s) :=
  Res.keeps_next ((State.linkEvent_kept s p st aerUnc aerCor).trans (State.readFailed_kept _))

theorem execI2cStart_kept (n : Nat) (v : Word) (s : State) : Res.Keeps s (execI2cStart n v s) := by
  unfold execI2cStart
  try dsimp only
  (repeat' split)
  all_goals (refine Res.keeps_next ?_; refine ⟨?_, ?_, ?_⟩ <;> intros <;> simp [*])

theorem execI2cTransferEnd_kept (n : Nat) (nack arbLost : Bool) (data : List Byte) (s : State)
    : Res.Keeps s (execI2cTransferEnd n nack arbLost data s) := by
  unfold execI2cTransferEnd
  try dsimp only
  (repeat' split)
  all_goals (refine Res.keeps_next ?_; refine ⟨?_, ?_, ?_⟩ <;> intros <;> simp [*])

theorem execUartReceive_kept (b : Byte) (parityErr framing : Bool) (s : State)
    : Res.Keeps s (execUartReceive b parityErr framing s) := by
  unfold execUartReceive
  try dsimp only
  (repeat' split)
  all_goals (refine Res.keeps_next ?_; refine ⟨?_, ?_, ?_⟩ <;> intros <;> simp [*])

theorem execSpiStart_kept (v : Word) (s : State) : Res.Keeps s (execSpiStart v s) := by
  unfold execSpiStart
  try dsimp only
  (repeat' split)
  all_goals (refine Res.keeps_next ?_; refine ⟨?_, ?_, ?_⟩ <;> intros <;> simp [*])

theorem execSpiCommandEnd_kept (data : List Byte) (s : State) : Res.Keeps s (execSpiCommandEnd data s) := by
  unfold execSpiCommandEnd
  try dsimp only
  (repeat' split)
  all_goals (refine Res.keeps_next ?_; refine ⟨?_, ?_, ?_⟩ <;> intros <;> simp [*])

theorem execJtagServiceRequest_kept (s : State) : Res.Keeps s (execJtagServiceRequest s) := by
  unfold execJtagServiceRequest
  try dsimp only
  (repeat' split)
  all_goals (refine Res.keeps_next ?_; refine ⟨?_, ?_, ?_⟩ <;> intros <;> simp [*])

theorem execJtagDebugResponse_kept (sig : List Byte) (s : State) : Res.Keeps s (execJtagDebugResponse sig s) := by
  unfold execJtagDebugResponse
  try dsimp only
  (repeat' split)
  all_goals (refine Res.keeps_next ?_; refine ⟨?_, ?_, ?_⟩ <;> intros <;> simp [*])

/-- What is programmed stays: the other fuses are as they were. -/
theorem execFuseProgram_kept (which : BitVec 2) (v : BitVec 256) (s : State) : ∃ t, execFuseProgram which v s = .next t ∧
    t.pending = s.pending ∧ t.mem = s.mem ∧ (s.fuses.secure = true → t.fuses.secure = true) ∧
    (∀ h, s.fuses.keyHash = some h → t.fuses.keyHash = some h) ∧ ∀ h, s.fuses.imageKey = some h → t.fuses.imageKey = some h := by
  unfold execFuseProgram
  dsimp only
  (repeat' split)
  all_goals (refine ⟨_, rfl, ?_⟩; simp_all)

theorem execStageGo_kept (i : Initiator) (s : Nat) (v : Word) (st : State) : Res.Keeps st (execStageGo i s v st) := by
  unfold execStageGo
  try dsimp only
  all_goals (refine Res.keeps_next ?_; refine ⟨?_, ?_, ?_⟩ <;> intros <;> simp [*])

/-- A write of a register stops at an unassigned address, or keeps what `Kept` names. -/
theorem execRegisterWrite_kept (i : Initiator) (a : Nat) (v : Word) (s : State) :
    Res.Keeps s (execRegisterWrite i a v s) ∨ execRegisterWrite i a v s = .fault .unassignedAddress := by
  unfold execRegisterWrite
  dsimp only
  (repeat' split)
  all_goals first
    | exact .inr rfl
    | (refine .inl (Res.keeps_next ?_); refine ⟨?_, ?_, ?_⟩ <;> intros <;> simp [*])

theorem execLprcCalibration_kept (cal : Word) (s : State) : Res.Keeps s (execLprcCalibration cal s) := by
  unfold execLprcCalibration
  try dsimp only
  (repeat' split)
  all_goals (refine Res.keeps_next ?_; refine ⟨?_, ?_, ?_⟩ <;> intros <;> simp [*])

theorem execVddBatLow_kept (low : Bool) (s : State) : Res.Keeps s (execVddBatLow low s) := by
  unfold execVddBatLow
  try dsimp only
  all_goals (refine Res.keeps_next ?_; refine ⟨?_, ?_, ?_⟩ <;> intros <;> simp [*])

theorem execVddaDacReturn_kept (s : State) : Res.Keeps s (execVddaDacReturn s) := by
  unfold execVddaDacReturn
  try dsimp only
  all_goals (refine Res.keeps_next ?_; refine ⟨?_, ?_, ?_⟩ <;> intros <;> simp [*])

theorem execVddIo33Return_kept (s : State) : Res.Keeps s (execVddIo33Return s) := by
  unfold execVddIo33Return
  try dsimp only
  (repeat' split)
  all_goals (refine Res.keeps_next ?_; refine ⟨?_, ?_, ?_⟩ <;> intros <;> simp [*])

theorem execUsbBusResetEnd_kept (p : Nat) (speed : BitVec 2) (s : State) : Res.Keeps s (execUsbBusResetEnd p speed s) := by
  unfold execUsbBusResetEnd
  try dsimp only
  (repeat' split)
  all_goals (refine Res.keeps_next ?_; refine ⟨?_, ?_, ?_⟩ <;> intros <;> simp [*])

theorem execUsbResumeEnd_kept (p : Nat) (s : State) : Res.Keeps s (execUsbResumeEnd p s) := by
  unfold execUsbResumeEnd
  try dsimp only
  (repeat' split)
  all_goals (refine Res.keeps_next ?_; refine ⟨?_, ?_, ?_⟩ <;> intros <;> simp [*])

theorem execUartTxEmpty_kept (s : State) : Res.Keeps s (execUartTxEmpty s) := by
  unfold execUartTxEmpty
  try dsimp only
  all_goals (refine Res.keeps_next ?_; refine ⟨?_, ?_, ?_⟩ <;> intros <;> simp [*])

theorem execHostBar2Access_kept (p off : Nat) (wr : Option Byte) (s : State) : Res.Keeps s (execHostBar2Access p off wr s) := by
  unfold execHostBar2Access
  try dsimp only
  (repeat' split)
  all_goals (refine Res.keeps_next ?_; refine ⟨?_, ?_, ?_⟩ <;> intros <;> simp [*])

theorem execJtagBootRequest_kept (s : State) : Res.Keeps s (execJtagBootRequest s) := by
  unfold execJtagBootRequest
  try dsimp only
  (repeat' split)
  all_goals (refine Res.keeps_next ?_; refine ⟨?_, ?_, ?_⟩ <;> intros <;> simp [*])

theorem execJtagDebugChallenge_kept (nonce : BitVec 128) (s : State) : Res.Keeps s (execJtagDebugChallenge nonce s) := by
  unfold execJtagDebugChallenge
  try dsimp only
  (repeat' split)
  all_goals (refine Res.keeps_next ?_; refine ⟨?_, ?_, ?_⟩ <;> intros <;> simp [*])

theorem execJtagExtest_kept (pins : BitVec 256) (s : State) : Res.Keeps s (execJtagExtest pins s) := by
  unfold execJtagExtest
  try dsimp only
  all_goals (refine Res.keeps_next ?_; refine ⟨?_, ?_, ?_⟩ <;> intros <;> simp [*])

end Sys2Proof.Machine
end

