-- ==== Sys2Proof/Laws/Ops.lean ====
section
/-!
SUPPORT. Laws of the shared operations: fields of words, and what each part of State reads as after it is replaced.
-/

namespace Sys2Proof.Machine

/-! ### Fields of words -/

/-- A bit of a word with a field set. -/
theorem bit_setFld (w : Word) (lo n v j : Nat) :
    bit (setFld w lo n v) j = if lo ≤ j ∧ j < lo + n ∧ j < 32 then v.testBit (j - lo) else bit w j := by
  have hm : ∀ k, ((2 ^ n - 1) * 2 ^ lo).testBit k = (decide (lo ≤ k) && decide (k - lo < n)) := by
    intro k
    rw [Nat.testBit_mul_two_pow, Nat.testBit_two_pow_sub_one]
  have hv : (v * 2 ^ lo).testBit j = (decide (lo ≤ j) && v.testBit (j - lo)) := Nat.testBit_mul_two_pow ..
  by_cases h32 : j < 32
  · simp only [bit, setFld, BitVec.getLsbD_or, BitVec.getLsbD_and, BitVec.getLsbD_not, BitVec.getLsbD_ofNat, hm, hv, h32,
      decide_true, Bool.true_and, and_true]
    by_cases hlo : lo ≤ j
    · by_cases hn : j - lo < n
      · simp [hlo, hn, show j < lo + n by omega]
      · simp [hlo, hn, show ¬j < lo + n by omega]
    · simp [hlo]
  · have h1 : ∀ u : Word, bit u j = false := fun u => BitVec.getLsbD_of_ge u j (by omega)
    simp [h1, h32]

/-- A bit of a word with a bit set. -/
theorem bit_setBit (w : Word) (i : Nat) (b : Bool) (j : Nat) :
    bit (setBit w i b) j = if i = j ∧ j < 32 then b else bit w j := by
  rw [setBit, bit_setFld]
  by_cases h : i = j
  · subst h
    by_cases h32 : i < 32
    · cases b <;> simp [h32]
    · simp [h32]
  · have : ¬(i ≤ j ∧ j < i + 1 ∧ j < 32) := by omega
    rw [if_neg this, if_neg (by simp [h])]

/-! ### Parts of the state read after they are replaced -/

/-- Core `k` as it was last set. -/
theorem State.core_setCore (s : State) (k : Nat) (c : Core) (j : Nat) :
    (s.setCore k c).core j = if k = j ∧ k < 22 then c else s.core j := by
  simp [State.core, State.setCore, vget_vset]

/-- Stage `i` as it was last set. -/
theorem State.stage_setStage (s : State) (i : Nat) (x : Stage) (j : Nat) :
    (s.setStage i x).stage j = if i = j ∧ i < 4 then x else s.stage j := by
  simp [State.stage, State.setStage, vget_vset]

/-- Mailbox `m` as it was last set. -/
theorem State.mb_setMb (s : State) (m : Nat) (x : Mailbox) (j : Nat) :
    (s.setMb m x).mb j = if m = j ∧ m < 24 then x else s.mb j := by
  simp [State.mb, State.setMb, vget_vset]

/-- Timer channel `k` as it was last set. -/
theorem State.timer_setTimer (s : State) (k : Nat) (x : Timer) (j : Nat) :
    (s.setTimer k x).timer j = if k = j ∧ k < 32 then x else s.timer j := by
  simp [State.timer, State.setTimer, vget_vset]

/-- Sector `n` as it was last set. -/
theorem State.sector_setSector (s : State) (n : Nat) (x : Sector) (j : Nat) :
    (s.setSector n x).sector j = if n = j ∧ n < 4 then x else s.sector j := by
  simp [State.sector, State.setSector, vget_vset]

/-- A source of the router as it was last set. -/
theorem State.irq_setIrq (s : State) (n : Nat) (x : Irq) (j : Nat) :
    (s.setIrq n x).irq j = if j = n then x else s.irq j := sget_sset _ _ _ _ j

/-- A Vine channel as it was last set. -/
theorem State.chan_setChan (s : State) (c : Nat) (x : VChan) (j : Nat) :
    (s.setChan c x).chan j = if j = c then x else s.chan j := sget_sset _ _ _ _ j

/-- A register as it was last stored. -/
theorem State.dreg_setDreg (s : State) (a : Nat) (v : Word) (b : Nat) :
    (s.setDreg a v).dreg b = if b = a then v else s.dreg b := sget_sset _ _ _ _ b

/-- A stage-window register as it was last stored. -/
theorem Stage.reg_setReg (st : Stage) (o : Nat) (v : Word) (p : Nat) :
    (st.setReg o v).reg p = if p = o then v else st.reg p := sget_sset _ _ _ _ p

/-! ### Registers of a core -/

/-- A general register as it was last written; g0 reads 0. -/
theorem Core.g_setG (c : Core) (rd : Reg) (v : Word) (r : Reg) :
    (c.setG rd v).g r = if r = 0 then 0 else if r = rd then v else c.g r := by
  by_cases h0 : r = 0
  · simp [Core.g, h0]
  · by_cases hd : rd = 0
    · subst hd
      rw [if_neg h0, if_neg h0]
      simp [Core.setG]
    · have hlt := rd.isLt
      simp only [Core.setG, hd, Core.g, h0, if_false, vget_vset]
      by_cases hr : r = rd
      · subst hr; simp [hlt]
      · have : ¬(rd.toNat = r.toNat) := fun e => hr (BitVec.eq_of_toNat_eq e.symm)
        simp [hr, this]

end Sys2Proof.Machine
end

