-- ==== Sys2Proof/Laws/Pip.lean ====
section
/-!
SUPPORT. What an instruction of a Pip does, said once: the issue of an instruction, its retirement, and the register results.
-/

namespace Sys2Proof.Machine


/-- What the body of an instruction of `x` is given: a state in which only free values may have been drawn, and a core in which
only waits were counted and a line was fetched. -/
def Seen (x : Issue) (s u : State) (c : Core) : Prop :=
  u = { s with nonce := u.nonce } ∧ c = { s.core x.core with cycle := c.cycle, icache := c.icache, fetchBuf := c.fetchBuf }

/-- Reading ranges that hold no symbol error reads them. -/
theorem State.readRanges_clean {s : State} {rs : List (Nat × Nat)} (h : s.damaged rs = []) : s.readRanges rs = ([], s) := by
  unfold State.readRanges; rw [h]

/-- The waits of a core change its CYCLE alone. -/
theorem Core.await_eq (c : Core) (rs : List Nat) : ∃ cy, c.await rs = { c with cycle := cy } := by
  unfold Core.await
  dsimp only
  split
  · exact ⟨_, rfl⟩
  · exact ⟨c.cycle, rfl⟩

/-- A fetch that `Fetches` names is answered, and changes nothing of a core but its instruction cache and its fetch buffer. -/
theorem State.fetch_of_brings {s : State} {k : Nat} {va : Word} {ue : Bool} {c : Core} (hw : c.wbuf = (s.core k).wbuf)
    (h1 : s.fetchCheck k va = none) (h2 : c.hits va = true ∨ Brings s k va ue) :
    ∃ ic fb, s.fetch k va ue c = some (s, .ok { c with icache := ic, fetchBuf := fb }) := by
  unfold State.fetch
  rw [h1]
  dsimp only
  by_cases hh : c.hits va = true
  · rw [if_pos hh]; exact ⟨c.icache, c.fetchBuf, rfl⟩
  · rw [if_neg hh]
    rcases h2 with h2 | ⟨rfl, h2⟩
    · exact absurd h2 hh
    · cases ht : s.translate k va with
      | none => exact ⟨c.icache, c.fetchBuf, rfl⟩
      | some p =>
        obtain ⟨w, a⟩ := p
        obtain ⟨h3, h4⟩ := h2 w a ht
        dsimp only
        have h3' : c.buffered (a / 32 * 32) 32 = false := by rw [← h3]; unfold Core.buffered; rw [hw]
        rw [h3']
        have hd : s.damaged (if s.isMem a = true then [(a / 32 * 32, 32)] else []) = [] := by
          split
          · exact h4
          · simp [State.damaged]
        simp only [Bool.false_eq_true, if_false, State.readRanges_clean hd]
        unfold Core.keep
        split
        · exact ⟨_, c.fetchBuf, rfl⟩
        · exact ⟨c.icache, _, rfl⟩

/-- An instruction whose core may issue and whose word is fetched comes to its checks, with a core that `Seen` names. -/
theorem pipIssue_fetched (x : Issue) (word : Word) (undef : Core → Bool) (priv : Bool) (body : Body) (s : State) (h : Fetches x s) :
    ∃ u c, Seen x s u c ∧ pipIssue x word undef priv body s = pipRun x word undef priv body u c := by
  obtain ⟨h1, h2, h3, h4⟩ := h
  unfold pipIssue pipIssueWith
  dsimp only
  rw [if_neg (by simp [h2]; omega)]
  simp only [Bool.not_false, Bool.true_or, Bool.and_true]
  rw [show decide (20 ≤ x.core) = false by simp; omega, Bool.false_or]
  by_cases hh : (s.core x.core).hits (s.core x.core).pc = true
  · obtain ⟨ic, fb, e⟩ := State.fetch_of_brings (s := s) (k := x.core) (va := (s.core x.core).pc) (ue := x.fetchUe)
      (c := s.core x.core) rfl h3 (.inl hh)
    rw [hh]
    unfold State.fetchAll
    simp only [if_true, if_neg (show ¬ 20 ≤ x.core by omega), e, Bool.false_eq_true, if_false]
    exact ⟨_, _, ⟨rfl, rfl⟩, rfl⟩
  · have hb := h4.resolve_left hh
    obtain ⟨ic, fb, e⟩ := State.fetch_of_brings (s := (s.stalled (s.core x.core)).1) (k := x.core) (va := (s.core x.core).pc)
      (ue := x.fetchUe) (c := (s.stalled (s.core x.core)).2) rfl h3 (.inr hb)
    rw [show (s.core x.core).hits (s.core x.core).pc = false by simpa using hh]
    unfold State.fetchAll
    simp only [Bool.false_eq_true, if_false, if_neg (show ¬ 20 ≤ x.core by omega)]
    rw [show (s.stalled (s.core x.core)).2.pc = (s.core x.core).pc from rfl, e]
    exact ⟨_, _, ⟨rfl, rfl⟩, rfl⟩

/-- With a true guard, what an instruction does is what its body does on the core that has waited for its sources. -/
theorem pipIssue_runs (x : Issue) (word : Word) (undef : Core → Bool) (priv : Bool) (body : Body) (s : State) (h : Issues x s)
    (hu : ∀ u c, Seen x s u c → undef c = false) (hv : priv = true → (s.core x.core).super = true) :
    ∃ u c, Seen x s u c ∧ pipIssue x word undef priv body s =
      match body u c with
        | .error e => .next (u.setCore x.core (c.trap e))
        | .ok (t, d) => .next (t.setCore x.core d) := by
  obtain ⟨h0, h4, h5⟩ := h
  obtain ⟨u, c, hs, e⟩ := pipIssue_fetched x word undef priv body s h0
  obtain ⟨cy, ha⟩ := Core.await_eq c (sourceRegs word)
  refine ⟨u, c.await (sourceRegs word), ⟨hs.1, ?_⟩, ?_⟩
  · rw [ha, hs.2]
  · have e1 : c.guardUndef x.guard = false := by rw [hs.2]; exact h4
    have e2 : c.guardTrue x.guard = true := by rw [hs.2]; exact h5
    have e3 : c.super = (s.core x.core).super := by rw [hs.2]; rfl
    rw [e]
    unfold pipRun
    rw [e1, hu u c hs, e2]
    cases priv
    · rfl
    · rw [e3, hv rfl]; rfl

/-- A core as it was just set. -/
theorem State.core_setCore_same (s : State) (k : Nat) (c : Core) (h : k < 22) : (s.setCore k c).core k = c := by
  rw [State.core_setCore]; simp [h]

/-- Another core than the one just set. -/
theorem State.core_setCore_other (s : State) (k j : Nat) (c : Core) (h : j ≠ k) : (s.setCore k c).core j = s.core j := by
  rw [State.core_setCore]; simp [Ne.symm h]

/-- Setting a core changes that core alone. -/
theorem onlyCore_setCore {x : Issue} {s u : State} {c : Core} (h : Seen x s u c) (d : Core) : OnlyCore x.core s (u.setCore x.core d) := by
  refine ⟨?_, fun j hj => ?_⟩
  · rw [h.1]; rfl
  · rw [State.core_setCore_other _ _ _ _ hj, h.1]; rfl

/-- At most one iteration is left when REPCNT is 0 or 1. -/
theorem repcnt_le_one (r : Word) : (r.toNat ≤ 1) ↔ (r = 0 ∨ r - 1 = 0) := by
  constructor
  · intro h
    by_cases h0 : r = 0
    · exact .inl h0
    · right; apply BitVec.eq_of_toNat_eq; simp [BitVec.toNat_eq] at *; omega
  · rintro (h | h)
    · subst h; decide
    · have : r.toNat ≤ 1 := by
        have := congrArg BitVec.toNat h; simp [BitVec.toNat_sub] at this; omega
      exact this

/-- Retiring does what `Retired` says. -/
theorem retired_retire (c d : Core) (k : Nat) (h1 : d.pc = c.pc) (h2 : d.repcnt = c.repcnt) (h3 : d.retired = c.retired) :
    Retired c (d.retire k) := by
  unfold Retired Core.retire Core.advance
  rw [h3]
  refine ⟨rfl, ?_⟩
  dsimp only
  by_cases h : c.repcnt.toNat ≤ 1
  · rw [if_pos h]
    rcases (repcnt_le_one _).1 h with h' | h'
    · rw [if_pos (by rw [h2]; exact h')]; exact ⟨by rw [← h1], by rw [← h', ← h2]⟩
    · by_cases h0 : c.repcnt = 0
      · rw [if_pos (by rw [h2]; exact h0)]; exact ⟨by rw [← h1], by rw [← h0, ← h2]⟩
      · rw [if_neg (by rw [h2]; exact h0), if_pos (by rw [h2]; exact h')]; exact ⟨by rw [← h1], rfl⟩
  · rw [if_neg h]
    have := fun h' => h ((repcnt_le_one _).2 h')
    rw [if_neg (by rw [h2]; exact fun h => this (.inl h)), if_neg (by rw [h2]; exact fun h => this (.inr h))]
    exact ⟨h1, by rw [h2]⟩

/-- What retiring changes of a core. -/
theorem Core.retire_eq (c : Core) (k : Nat) : ∃ pc rc, c.retire k = { c with pc := pc, repcnt := rc, repNew := false, retired := c.retired + 1, cycle := c.cycle + BitVec.ofNat 64 k } := by
  unfold Core.retire Core.advance
  dsimp only
  split
  · exact ⟨_, c.repcnt, rfl⟩
  · split
    · exact ⟨_, _, rfl⟩
    · exact ⟨c.pc, _, rfl⟩

/-- Retiring keeps to the registers that `RegsOnly` names. -/
theorem regsOnly_retire {c d : Core} (k) (h : RegsOnly c d) : RegsOnly c (d.retire k) := by
  unfold RegsOnly at *
  obtain ⟨pc, rc, e⟩ := Core.retire_eq d k
  rw [e]; rw [h]

/-- Equal register files read the same. -/
theorem Core.g_congr (c d : Core) (h : d.gpr = c.gpr) (r) : d.g r = c.g r := by unfold Core.g; rw [h]

/-- Equal predicate files read the same. -/
theorem Core.q_congr (c d : Core) (h : d.pred = c.pred) (r) : d.q r = c.q r := by unfold Core.q; rw [h]

/-- Retiring keeps the general registers. -/
theorem Core.retire_g (c : Core) (k r) : (c.retire k).g r = c.g r := by
  obtain ⟨pc, rc, e⟩ := Core.retire_eq c k; rw [e]; rfl

/-- Retiring keeps the predicates. -/
theorem Core.retire_q (c : Core) (k r) : (c.retire k).q r = c.q r := by
  obtain ⟨pc, rc, e⟩ := Core.retire_eq c k; rw [e]; rfl

/-- Retiring keeps the predicate file. -/
theorem Core.retire_pred (c : Core) (k) : (c.retire k).pred = c.pred := by
  obtain ⟨pc, rc, e⟩ := Core.retire_eq c k; rw [e]

/-- Retiring keeps STATUS. -/
theorem Core.retire_status (c : Core) (k) : (c.retire k).status = c.status := by
  obtain ⟨pc, rc, e⟩ := Core.retire_eq c k; rw [e]

/-- Writing a general register changes the register file and the cycle at which it can be used alone. -/
theorem Core.setG_eq (c : Core) (r v) : ∃ g l, c.setG r v = { c with gpr := g, late := l } := by
  unfold Core.setG; split
  · exact ⟨c.gpr, c.late, rfl⟩
  · exact ⟨_, _, rfl⟩

/-- The body sees the general registers as they were. -/
theorem Seen.g {x s u c} (h : Seen x s u c) (r) : c.g r = (s.core x.core).g r := by rw [h.2]; rfl

/-- The body sees the predicates as they were. -/
theorem Seen.q {x s u c} (h : Seen x s u c) (r) : c.q r = (s.core x.core).q r := by rw [h.2]; rfl

/-- The body sees F-mode as it was. -/
theorem Seen.fmode {x s u c} (h : Seen x s u c) : c.fmode = (s.core x.core).fmode := by rw [h.2]; rfl

/-- The body sees STATUS as it was. -/
theorem Seen.status {x s u c} (h : Seen x s u c) : c.status = (s.core x.core).status := by rw [h.2]

/-- A body that writes `rd` and STATUS and retires gives a register result. -/
theorem regResult_of_set {x : Issue} {s u : State} {c : Core} (h : Seen x s u c) (hx : x.core < 22) (rd v k) (d : Core)
    (hd : ∃ st l, d = ({ c.setG rd v with status := st, late := l } : Core).retire k) : RegResult x s (u.setCore x.core d) rd v := by
  obtain ⟨st, l, hd⟩ := hd
  obtain ⟨g, l', hg⟩ := Core.setG_eq c rd v
  unfold RegResult
  rw [State.core_setCore_same _ _ _ hx]
  refine ⟨onlyCore_setCore h d, ?_, ?_, ?_, ?_⟩
  · rw [hd]; apply regsOnly_retire; rw [hg, h.2]; exact rfl
  · rw [hd]
    constructor
    · rw [Core.retire_g, show ({ c.setG rd v with status := st, late := l } : Core).g rd = (c.setG rd v).g rd from rfl, Core.g_setG]
      simp
    · intro r hr
      rw [Core.retire_g, show ({ c.setG rd v with status := st, late := l } : Core).g r = (c.setG rd v).g r from rfl, Core.g_setG, h.g]
      by_cases h0 : r = 0
      · subst h0; rfl
      · rw [if_neg h0, if_neg hr]
  · rw [hd, Core.retire_pred, hg, h.2]
  · rw [hd]; apply retired_retire <;> rw [hg, h.2]

/-- An ALU instruction with a true guard: its result, and STATUS in F-mode and in P-mode. -/
theorem aluBody_runs (x : Issue) (word : Word) (undef) (s : State) (h : Issues x s) (hu : ∀ u c, Seen x s u c → undef c = false)
    (cost rd f fl) (hf : ∀ u c, Seen x s u c → f c = f (s.core x.core))
    (hfl : ∀ u c r, Seen x s u c → fl c r = fl (s.core x.core) r) :
    ∃ t, pipIssue x word undef false (aluBody cost rd f fl) s = .next t ∧ RegResult x s t rd (f (s.core x.core)) ∧
      (t.core x.core).status = if (s.core x.core).fmode then fl (s.core x.core) (f (s.core x.core)) else (s.core x.core).status := by
  have hx : x.core < 22 := by have := h.1.1; omega
  obtain ⟨u, c, hs, e⟩ := pipIssue_runs x word undef false (aluBody cost rd f fl) s h hu (by simp)
  rw [e]
  unfold aluBody coreBody
  dsimp only
  rw [hf u c hs, hfl u c _ hs]
  refine ⟨_, rfl, ?_, ?_⟩
  · apply regResult_of_set hs hx _ _ cost
    split
    · exact ⟨_, _, rfl⟩
    · exact ⟨(c.setG rd (f (s.core x.core))).status, _, rfl⟩
  · rw [State.core_setCore_same _ _ _ hx, Core.retire_status, hs.fmode]
    split
    · rfl
    · obtain ⟨g, l, hg⟩ := Core.setG_eq c rd (f (s.core x.core))
      rw [hg]; exact hs.status

/-- The flags N and Z as `FlagsNZ` says them. -/
theorem flagsNZ_of_status (c d : Core) (r : Word) (h : d.status = if c.fmode then flagsNZ c.status r else c.status) : FlagsNZ c d r := by
  unfold FlagsNZ; rw [h]
  split
  · simp only [flagsNZ, bit_setBit]
    refine ⟨by simp, by simp, fun i hi => ?_⟩
    have : ¬ (i = 30) := by omega
    have : ¬ (i = 31) := by omega
    rw [if_neg (by omega), if_neg (by omega)]
  · rfl

end Sys2Proof.Machine
end

