-- ==== Sys2Proof/Machine/Ports.lean ====
section
/-!
DEFINITION. What a beam port puts on its outputs (R97-R102, R104, R106, R121), and the urgency of its fetch (R119): read
off the state, at root tick `now` where it moves within a line.
-/

namespace Sys2Proof.Machine

/-! ### Sync -/

/-- Horizontal sync is asserted at port pixel `x` (R104, R107). -/
def Timing.hsyncAt (t : Timing) (twin : Bool) (x : Nat) : Bool :=
  let w := if twin then 2 else 1
  decide (t.hss / w ≤ x) && decide (x < t.hse / w)

/-- The pixel of a line at which the vertical sync of a field changes (R104, R106). -/
def Timing.vsyncEdge (t : Timing) (twin field : Bool) : Nat :=
  t.hss / (if twin then 2 else 1) + (if t.interlace && field then t.portTotal twin / 2 else 0)

/-- Vertical sync is asserted at line `y`, port pixel `x` of a field (R104, R106); a pulse that ends with the last line of a
field ends in line 0 of the next. -/
def Timing.vsyncAt (t : Timing) (twin field : Bool) (y x : Nat) : Bool :=
  let n := t.portTotal twin
  let p := y * n + x
  let before := t.interlace && !field
  (decide (t.vss * n + t.vsyncEdge twin field ≤ p) && decide (p < t.vse * n + t.vsyncEdge twin field)) ||
    decide (p + t.lines before * n < t.vse * n + t.vsyncEdge twin before)

/-- The port's horizontal and vertical sync are asserted (R104). -/
def Stage.syncs (st : Stage) (now : Nat) : Bool × Bool :=
  let t := st.beam.inForce
  let x := st.pixelAt now
  (t.hsyncAt st.twin x, t.vsyncAt st.twin st.beam.field st.beam.line x)

/-- Levels of the HSYNC and VSYNC pins (R101, R102).
[log 145 DESIGN CHOICE] -/
def Stage.syncPins (st : Stage) (now : Nat) : Bool × Bool :=
  let t := st.beam.inForce
  let (h, v) := if st.beam.analog = .off then (false, false) else st.syncs now
  match t.sync with
  | 0 => (h == t.hpos, v == t.vpos)
  | 1 => ((h != v) == t.hpos, !t.vpos)
  | _ => (!t.hpos, !t.vpos)

/-- The green DAC stands 0.3 V below black for composite sync on green, or on Y (R100, R101). -/
def Stage.greenSync (st : Stage) (now : Nat) : Bool :=
  let (h, v) := st.syncs now
  st.beam.inForce.sync == 2 && st.beam.analog ≠ .off && h != v

/-! ### Pixels -/

/-- The 10-bit codes of the red (or Cr), green (or Y) and blue (or Cb) DAC for a pixel (R98, R100). -/
def Timing.dac (t : Timing) (c : Rgb) : Rgb :=
  if t.bpc = 8 then { c0 := c.c0 * 4, c1 := c.c1 * 4, c2 := c.c2 * 4 } else c

/-- The pixels of an output for the segment mixed last: none while it is off or trains (R100, R102). -/
def Stage.shown (st : Stage) (l : Link) : Option (List Rgb) :=
  match l with
  | .off | .training => none
  | .black => some (st.prism.out.map fun _ => blackCode st.beam.inForce)
  | .running => some st.prism.out

/-- What DisplayPort or HDMI sends of it (R98, R100, R102). -/
def Stage.digitalOut (st : Stage) : Option (List Rgb) := st.shown st.beam.digital

/-- What the DACs receive of it (R98, R100, R102). -/
def Stage.analogOut (st : Stage) : Option (List Rgb) := (st.shown st.beam.analog).map (·.map st.beam.inForce.dac)

/-! ### Signalling -/

/-- The digital output sends video (R102). -/
def Stage.sends (st : Stage) : Bool := st.beam.digital = .running || st.beam.digital = .black

/-- Limited range is signalled (R100). -/
def Timing.limited (t : Timing) : Bool := t.colour == 1

/-- The MSA of a DisplayPort output that sends video: limited range (R97, R100). -/
def Stage.msa (st : Stage) : Option Bool :=
  if st.beam.inForce.dp && st.sends then some st.beam.inForce.limited else none

/-- The AVI InfoFrame of an HDMI output that sends video: limited range, and the repetition factor (R97, R99, R100). -/
def Stage.avi (st : Stage) : Option (Bool × Nat) :=
  let t := st.beam.inForce
  if t.hdmi && st.sends then some (t.limited, t.repeatOf st.twin) else none

/-- An HDMI output is scrambled, with the clock ratio so set through SCDC (R97). -/
def Timing.scrambled (t : Timing) : Bool := t.hdmi && t.fastHdmi

/-! ### Embedded audio -/

/-- A digital output of the stage carries its embedded audio (R121). -/
def Stage.embeds (st : Stage) : Bool := st.dests.contains 6 && st.beam.carriesAudio

/-- The audio InfoFrame is sent (R97, R121). -/
def Stage.audioInfo (st : Stage) : Bool := st.beam.inForce.hdmi && st.embeds

/-- Maud / Naud for a link symbol clock in Hz: 512 sample rates over the clock (R121).
[log 146 PRESUMED] -/
def Stage.maudNaud (st : Stage) (link : Rat) : Rat := 512 * (st.sound.rate / 1000) / link

/-- The TMDS character rate of a port in Hz (R53, R99). -/
def Timing.tmds (t : Timing) (twin : Bool) : Rat :=
  (t.pixclk * t.repeatOf twin * t.bpc : Nat) / ((8 * (if twin then 2 else 1) : Nat) : Rat)

/-- N / CTS: 128 sample rates over the TMDS character rate (R121).
[log 146 PRESUMED] -/
def Stage.nCts (st : Stage) : Rat := 128 * (st.sound.rate / 1000) / st.beam.inForce.tmds st.twin

/-- The sampling frequency in the channel status, in Hz; none is "not indicated" (R121). -/
def Stage.statusRate (st : Stage) : Option Nat :=
  [32000, 44100, 48000, 88200, 96000].find? fun f => st.sound.rate == ((1000 * f : Nat) : Rat)

/-! ### Fetch urgency -/

/-- The lead of a unit with `done` pixels of the line composed in its line buffer, the beam at pixel `x` of an active line of
`w` (R119). -/
def leadOf (done x w : Nat) : Nat := min w (done - x)

/-- The stage's scan-out requests are urgent (R119): `done` gives what each unit's line buffer holds of the line being
composed. A unit that cover-stop has stopped has no lead. -/
def Stage.urgent (st : Stage) (done : Nat → Nat) (now : Nat) : Bool :=
  let t := st.beam.inForce
  t.compat && st.beam.runs &&
    match st.prism.comp with
    | none => false
    | some c => (List.range 24).any fun k => st.composes c k && !(c.stopped.any fun e => e.1 == k) &&
        decide (leadOf (done k) (st.pixelAt now) t.hactive < fld (st.latched 0x438) 0 12)

end Sys2Proof.Machine
end

