-- ==== Sys2Proof/WellFormed.lean ====
section
/-!
DEFINITION. Which commands are well formed: every index names something the spec gives the block, and every operand is one
its rule allows. A command that is not well formed names nothing; the model gives it no effect or that of its rule's
range check.
-/

namespace Sys2Proof

/-- The initiator exists (R12, R16, R18, R29, R321): cores P0-P19, stages S0-S3, channels VC0-VC63, WA and WB, the hosts
behind PE0 and PE1. -/
def Initiator.wf : Initiator → Bool
  | .pip k => decide (k < 20)
  | .chord s => decide (s < 4)
  | .reflex s => decide (s < 4)
  | .press s => decide (s < 4)
  | .vine c => decide (c < 64)
  | .warden w => decide (w < 2)
  | .host p => decide (p < 2)
  | .debug => true
  | .loader => true

/-- The command is well formed. -/
def Instr.wf : Instr → Bool
  | .powerGood => true
  | .railEnRise => true
  | .resetNRelease _ _ => true
  | .resetNAssert => true
  | .powerLoss => true
  | .brownOut => true
  | .keeperFailure => true
  | .rootPllLoss _ => true
  | .monitoredRailFault => true
  | .vddaDacFault => true
  | .vddIo33Loss => true
  | .aonSupplySwitch _ => true
  | .vddBatLoss => true
  | .pfwNAssert => true
  | .pfwNRelease => true
  | .fullLoadStart => true
  | .assetStoreWaitEnd => true
  | .hostReadyWaitEnd => true
  | .peStageReady p => decide (p < 2)
  | .loadPass1End _ => true
  | .sourceReadError => true
  | .lp5xTrained rate gib => [8533, 7500, 6400].contains rate && [8, 16, 32].contains gib
  | .lp5xZeroFillEnd => true
  | .loadPass2End _ _ => true
  | .synthLocked p => decide (p < 4)
  | .stageStart s => decide (s < 4)
  | .health w _ => decide (w < 2)
  | .loadStage w => decide (w < 2)
  | .stageStop s => decide (s < 4)
  | .unloadStage w => decide (w < 2)
  | .unloadStageEnd s => decide (s < 4)
  | .setMode w => decide (w < 2)
  | .shed w => decide (w < 2)
  | .repairStatus w => decide (w < 2)
  | .updateSlot w _ => decide (w < 2)
  | .updateSlotEnd => true
  | .ledgerStatus w => decide (w < 2)
  | .bindQuery w => decide (w < 2)
  | .badOpcode w => decide (w < 2)
  | .mbClaim m claimants => decide (m < 24) && claimants.all (· < 24)
  | .mbClaimLapse m => decide (m < 24)
  | .mbDoorbell m t _ => decide (m < 24) && decide (t < 24)
  | .mbAck m t _ => decide (m < 24) && decide (t < 24)
  | .mbRelease m t => decide (m < 24) && decide (t < 24)
  | .mbReleaseForce m i => decide (m < 24) && i.wf
  | .irqSourceEvent src => decide (src < 512)
  | .moderationRelease src => decide (src < 512)
  | .irqClaim t => decide (t < 24)
  | .irqEoi t src => decide (t < 24) && decide (src < 512)
  | .irqSwset i n _ => i.wf && decide (n < 4)
  | .irqSwclr i n _ => i.wf && decide (n < 4)
  | .pipInterruptEntry core => decide (core < 20)
  | .pipRetentionWake core => decide (core < 20)
  | .addi x _ _ _ => decide (x.core < 20)
  | .andi x _ _ _ => decide (x.core < 20)
  | .ori x _ _ _ => decide (x.core < 20)
  | .xori x _ _ _ => decide (x.core < 20)
  | .slli x _ _ _ => decide (x.core < 20)
  | .srli x _ _ _ => decide (x.core < 20)
  | .srai x _ _ _ => decide (x.core < 20)
  | .roli x _ _ _ => decide (x.core < 20)
  | .movl x _ _ => decide (x.core < 20)
  | .movh x _ _ => decide (x.core < 20)
  | .add x _ _ _ => decide (x.core < 20)
  | .sub x _ _ _ => decide (x.core < 20)
  | .and x _ _ _ => decide (x.core < 20)
  | .or x _ _ _ => decide (x.core < 20)
  | .xor x _ _ _ => decide (x.core < 20)
  | .andn x _ _ _ => decide (x.core < 20)
  | .orn x _ _ _ => decide (x.core < 20)
  | .xnor x _ _ _ => decide (x.core < 20)
  | .sll x _ _ _ => decide (x.core < 20)
  | .srl x _ _ _ => decide (x.core < 20)
  | .sra x _ _ _ => decide (x.core < 20)
  | .rol x _ _ _ => decide (x.core < 20)
  | .min x _ _ _ => decide (x.core < 20)
  | .max x _ _ _ => decide (x.core < 20)
  | .minu x _ _ _ => decide (x.core < 20)
  | .maxu x _ _ _ => decide (x.core < 20)
  | .adc x _ _ _ => decide (x.core < 20)
  | .sbc x _ _ _ => decide (x.core < 20)
  | .mul x _ _ _ => decide (x.core < 20)
  | .mulh x _ _ _ => decide (x.core < 20)
  | .mulhu x _ _ _ => decide (x.core < 20)
  | .mac x _ _ _ => decide (x.core < 20)
  | .div x _ _ _ => decide (x.core < 20)
  | .divu x _ _ _ => decide (x.core < 20)
  | .rem x _ _ _ => decide (x.core < 20)
  | .remu x _ _ _ => decide (x.core < 20)
  | .clz x _ _ => decide (x.core < 20)
  | .popc x _ _ => decide (x.core < 20)
  | .brev x _ _ => decide (x.core < 20)
  | .bswap x _ _ => decide (x.core < 20)
  | .sextB x _ _ => decide (x.core < 20)
  | .sextH x _ _ => decide (x.core < 20)
  | .cmp x _ _ _ _ _ => decide (x.core < 20)
  | .cmpi x _ _ _ _ => decide (x.core < 20)
  | .pand x _ _ _ => decide (x.core < 20)
  | .por x _ _ _ => decide (x.core < 20)
  | .pxor x _ _ _ => decide (x.core < 20)
  | .pandn x _ _ _ => decide (x.core < 20)
  | .pnot x _ _ => decide (x.core < 20)
  | .ldw x _ _ _ => decide (x.core < 20)
  | .ldh x _ _ _ => decide (x.core < 20)
  | .ldhu x _ _ _ => decide (x.core < 20)
  | .ldb x _ _ _ => decide (x.core < 20)
  | .ldbu x _ _ _ => decide (x.core < 20)
  | .stw x _ _ _ => decide (x.core < 20)
  | .sth x _ _ _ => decide (x.core < 20)
  | .stb x _ _ _ => decide (x.core < 20)
  | .ldx x _ _ _ _ _ _ => decide (x.core < 20)
  | .stx x _ _ _ _ _ => decide (x.core < 20)
  | .lda x _ _ _ _ _ => decide (x.core < 20)
  | .sta x _ _ _ _ => decide (x.core < 20)
  | .astep x _ => decide (x.core < 20)
  | .aswap x _ _ _ => decide (x.core < 20)
  | .aadd x _ _ _ => decide (x.core < 20)
  | .aor x _ _ _ => decide (x.core < 20)
  | .aand x _ _ _ => decide (x.core < 20)
  | .mfs x _ _ => decide (x.core < 20)
  | .mts x _ _ => decide (x.core < 20)
  | .br x _ => decide (x.core < 20)
  | .call x _ => decide (x.core < 20)
  | .jr x _ => decide (x.core < 20)
  | .jalr x _ _ => decide (x.core < 20)
  | .dbnz x _ _ => decide (x.core < 20)
  | .dblc x _ => decide (x.core < 20)
  | .bCc x _ _ => decide (x.core < 20)
  | .rep x _ _ _ _ => decide (x.core < 20)
  | .nop x => decide (x.core < 20)
  | .brk x => decide (x.core < 20)
  | .syscall x => decide (x.core < 20)
  | .rti x => decide (x.core < 20)
  | .wait x => decide (x.core < 20)
  | .waitWake core => decide (core < 20)
  | .isync x => decide (x.core < 20)
  | .fenceW x => decide (x.core < 20)
  | .fenceWDrainEnd core => decide (core < 20)
  | .cln x _ => decide (x.core < 20)
  | .clinv x _ => decide (x.core < 20)
  | .inv x _ => decide (x.core < 20)
  | .iinv x _ => decide (x.core < 20)
  | .undefinedInstruction x _ => decide (x.core < 20)
  | .pipLoadReturn core _ _ _ => decide (core < 20)
  | .writeBufferDrain core _ => decide (core < 20)
  | .scrubRead word _ _ => decide (word < 2 ^ 35)
  | .lpxPowerDown => true
  | .lpxSelfRefresh => true
  | .lpxPowerExit => true
  | .lineSamplePoint s _ => decide (s < 4)
  | .layerLineComposed s l _ => decide (s < 4) && decide (l < 16)
  | .spriteLineDrawn s p => decide (s < 4) && decide (p < 8)
  | .segmentBoundary s _ => decide (s < 4)
  | .latchInstant s => decide (s < 4)
  | .frameBoundary s => decide (s < 4)
  | .holdEnd s => decide (s < 4)
  | .timCommit s => decide (s < 4)
  | .timRevert s => decide (s < 4)
  | .linkLoss p => decide (p < 4)
  | .linkTrainingEnd p _ => decide (p < 4)
  | .tmdsPllLock p => decide (p < 4)
  | .hpdChange p _ => decide (p < 4)
  | .edidRead p _ => decide (p < 4)
  | .edidReadEnd p data => decide (p < 4) && (data.all fun bs => bs.length == 128)
  | .prismFlipArm s k _ => decide (s < 4) && decide (k < 24)
  | .prismFlipCancel s k _ => decide (s < 4) && decide (k < 24)
  | .fence i s f _ => i.wf && decide (s < 4) && decide (f < 256)
  | .fenceAdd i s f _ => i.wf && decide (s < 4) && decide (f < 256)
  | .chordProgramStart s _ => decide (s < 4)
  | .chordEnd s => decide (s < 4)
  | .chordWait s => decide (s < 4)
  | .chordWaitDue s => decide (s < 4)
  | .chordWrite s => decide (s < 4)
  | .maskwrite s => decide (s < 4)
  | .writeClass0 s => decide (s < 4)
  | .skipIf s => decide (s < 4)
  | .loop s => decide (s < 4)
  | .fenceSignal s => decide (s < 4)
  | .chordIrq s => decide (s < 4)
  | .badOp s => decide (s < 4)
  | .qiFilterAccept q _ => decide (q < 64)
  | .reflexDelivery s => decide (s < 4)
  | .qiCfgWrite i s q _ => i.wf && decide (s < 4) && decide (q < 64)
  | .sampleStrobe s => decide (s < 4)
  | .blockBoundary s _ _ => decide (s < 4)
  | .voiceClassStep s v => decide (s < 4) && decide (v < 1024)
  | .voiceFeed i s v _ => i.wf && decide (s < 4) && decide (v < 1024)
  | .chanStart i c => i.wf && decide (c < 64)
  | .chanAbort i c => i.wf && decide (c < 64)
  | .grpDoorbell i g _ => i.wf && decide (g < 4)
  | .grpSync i g _ => i.wf && decide (g < 4)
  | .descriptorComplete c _ _ _ => decide (c < 64)
  | .rootLinkUp p _ _ _ => decide (p < 2)
  | .nvmeCommandComplete d _ _ => decide (d < 2)
  | .ledgerScanEnd d highest => decide (d < 2) && (highest.all (· < 2 ^ 64))
  | .ldgSubmit i g _ => i.wf && decide (g < 5)
  | .pressStart s => decide (s < 4)
  | .pressAbort s => decide (s < 4)
  | .pressRowDone s _ => decide (s < 4)
  | .pressWm s _ => decide (s < 4)
  | .pressComplete s => decide (s < 4)
  | .pressBurstDeadEnd s => decide (s < 4)
  | .tcArm i k => i.wf && decide (k < 32)
  | .tcStop i k => i.wf && decide (k < 32)
  | .tcTick k => decide (k < 32)
  | .tcEnd k => decide (k < 32)
  | .tcLinkEvent k => decide (k < 32)
  | .tcCmpWrite i k j _ => i.wf && decide (k < 32) && decide (j < 4)
  | .tcCapture k _ => decide (k < 32)
  | .tcCapcfgWrite i k _ => i.wf && decide (k < 32)
  | .tallySet i _ => i.wf
  | .tallyAlarm => true
  | .unitFaultDetect sector kind unit detector => decide (sector < 4) && decide (kind < 10) && decide (unit < 32) && decide (detector < 8)
  | .secRepair sector _ => decide (sector < 4)
  | .repairLoadComplete sector _ => decide (sector < 4)
  | .shedPerPolicy s kind lindex => decide (s < 4) && decide (kind < 7) && decide (lindex < 16)
  | .mirrorBufferDrain sector => decide (sector < 4)
  | .pipCkptTake core => decide (core < 20)
  | .checkpointComplete core => decide (core < 20)
  | .keeperHb w => decide (w < 2)
  | .wardenLost w => decide (w < 2)
  | .faultPin _ => true
  | .entryStepComplete => true
  | .wakeEvent src detail => decide (1 ≤ src) && decide (src < 9) && decide (detail < 64)
  | .wakeSequenceEnd => true
  | .deepWake _ => true
  | .spokeReply b _ _ => decide (b < 2)
  | .spokeTimeout b => decide (b < 2)
  | .spkBcast b _ => decide (b < 2)
  | .usbPortReset p => decide (p < 4)
  | .usbPortResume p => decide (p < 4)
  | .usbPortEvent p _ _ => decide (p < 4)
  | .pipeRecordEnd p i _ _ _ => decide (p < 4) && decide (i < 16)
  | .peLinkEvent p _ _ _ => decide (p < 2)
  | .i2cStart n _ => decide (n < 2)
  | .i2cTransferEnd n _ _ _ => decide (n < 2)
  | .uartReceive _ _ _ => true
  | .spiStart _ => true
  | .spiCommandEnd _ => true
  | .jtagServiceRequest => true
  | .jtagDebugResponse sig => sig.length == 132
  | .fuseProgram _ _ => true
  | .stageGo i s _ => i.wf && decide (s < 4)
  | .registerWrite i a _ => i.wf && decide (a < 2 ^ 40) && a % 4 == 0
  | .lprcCalibration _ => true
  | .vddBatLow _ => true
  | .vddaDacReturn => true
  | .vddIo33Return => true
  | .usbBusResetEnd p _ => decide (p < 4)
  | .usbResumeEnd p => decide (p < 4)
  | .uartTxEmpty => true
  | .hostBar2Access p off _ => decide (p < 2) && decide (off < 2 ^ 28)
  | .jtagBootRequest => true
  | .jtagDebugChallenge _ => true
  | .jtagExtest _ => true

end Sys2Proof
end

