-- ==== Sys2Proof/Tests/Slice0.lean ====
section
/-!
SUPPORT. Tests: ill-formed commands are refused; for every statement that has hypotheses, a concrete state that meets them,
at boundary values; and single steps whose results the examples of spec/ give. The expected values are those of the rules.
-/

open Sys2Proof Sys2Proof.Machine

namespace Sys2Proof.Tests

/-! ### Helpers -/

/-- What holds of the state that the command answers. -/
def after (c : Instr) (s : State) (p : State → Bool) : Bool := match exec c s with | .next t => p t | _ => false

/-- The device at work: M3, the root clock running. -/
def run0 : State := { State.reset with mode := .run }

/-- P0 in supervisor state, its PC in its seed, changed by `f`. -/
def pipS (f : Core → Core) : State := run0.setCore 0 (f { run := .running, pc := 0xFFFF0000, status := 1 })

/-- An instruction of P0, always executed. -/
def x0 : Issue := ⟨0, 0, false, false⟩

/-- A window of 1 MiB onto the Orchard. -/
def win (base : Nat) : Window := { valid := true, r := true, w := true, x := true, base := base, mib := 1 }

/-- P0 is logical Pip 0 of stage 0, with an uncached window at Pip address 0 and a cacheable one at 0x1000_0000. -/
def pipW (f : Core → Core) : State :=
  (pipS f).setStage 0
    { phase := .running, binds := [(27, { bound := true })], segs := [{ base := 0, size := 0x400000 }]
      windows := [(0, [win 0x100000, { win 0x200000 with c := true }])] }

/-- `c` with general register `r` holding `v`. -/
def withG (r : Nat) (v : Word) (c : Core) : Core := { c with gpr := vset c.gpr r v }

/-! ### Ill-formed commands are refused -/

theorem wf_core : Instr.wf (.nop ⟨20, 0, false, false⟩) = false := by decide
theorem wf_core_waits : Instr.wf (.waitWake 20) = false := by decide
theorem wf_stage : Instr.wf (.stageStart 4) = false := by decide
theorem wf_port : Instr.wf (.synthLocked 4) = false := by decide
theorem wf_pcie_port : Instr.wf (.peStageReady 2) = false := by decide
theorem wf_warden : Instr.wf (.health 2 0) = false := by decide
theorem wf_rate : Instr.wf (.lp5xTrained 8000 8) = false := by decide
theorem wf_capacity : Instr.wf (.lp5xTrained 8533 12) = false := by decide
theorem wf_mailbox : Instr.wf (.mbClaim 24 []) = false := by decide
theorem wf_claimant : Instr.wf (.mbClaim 0 [0, 24]) = false := by decide
theorem wf_target : Instr.wf (.mbRelease 0 24) = false := by decide
theorem wf_source : Instr.wf (.irqEoi 0 512) = false := by decide
theorem wf_initiator_pip : Instr.wf (.irqSwset (.pip 20) 0 1) = false := by decide
theorem wf_initiator_stage : Instr.wf (.fence (.chord 4) 0 0 1) = false := by decide
theorem wf_initiator_reflex : Instr.wf (.fence (.reflex 4) 0 0 1) = false := by decide
theorem wf_initiator_press : Instr.wf (.fence (.press 4) 0 0 1) = false := by decide
theorem wf_initiator_vine : Instr.wf (.tcArm (.vine 64) 0) = false := by decide
theorem wf_initiator_warden : Instr.wf (.tallySet (.warden 2) 0) = false := by decide
theorem wf_initiator_host : Instr.wf (.chanStart (.host 2) 0) = false := by decide
theorem wf_word : Instr.wf (.scrubRead (2 ^ 35) false false) = false := by decide
theorem wf_layer : Instr.wf (.layerLineComposed 0 16 0) = false := by decide
theorem wf_plane : Instr.wf (.spriteLineDrawn 0 8) = false := by decide
theorem wf_edid : Instr.wf (.edidReadEnd 0 (some [0])) = false := by decide
theorem wf_flip : Instr.wf (.prismFlipArm 0 24 0) = false := by decide
theorem wf_fence : Instr.wf (.fence .debug 0 256 0) = false := by decide
theorem wf_quick_input : Instr.wf (.qiFilterAccept 64 true) = false := by decide
theorem wf_voice : Instr.wf (.voiceClassStep 0 1024) = false := by decide
theorem wf_channel : Instr.wf (.descriptorComplete 64 [] false false) = false := by decide
theorem wf_group : Instr.wf (.grpDoorbell .debug 4 0) = false := by decide
theorem wf_drive : Instr.wf (.nvmeCommandComplete 2 0 0) = false := by decide
theorem wf_sequence : Instr.wf (.ledgerScanEnd 0 (some (2 ^ 64))) = false := by decide
theorem wf_ledger_source : Instr.wf (.ldgSubmit .debug 5 1) = false := by decide
theorem wf_timer : Instr.wf (.tcTick 32) = false := by decide
theorem wf_compare : Instr.wf (.tcCmpWrite .debug 0 4 0) = false := by decide
theorem wf_sector : Instr.wf (.secRepair 4 0) = false := by decide
theorem wf_detector : Instr.wf (.unitFaultDetect 0 0 0 8) = false := by decide
theorem wf_kind : Instr.wf (.shedPerPolicy 0 7 0) = false := by decide
theorem wf_wake : Instr.wf (.wakeEvent 9 0) = false := by decide
theorem wf_no_wake : Instr.wf (.wakeEvent 0 0) = false := by decide
theorem wf_spoke : Instr.wf (.spokeTimeout 2) = false := by decide
theorem wf_pipe : Instr.wf (.pipeRecordEnd 0 16 0 0 []) = false := by decide
theorem wf_i2c : Instr.wf (.i2cStart 2 0) = false := by decide
theorem wf_signature : Instr.wf (.jtagDebugResponse []) = false := by decide
theorem wf_address : Instr.wf (.registerWrite .debug (2 ^ 40) 0) = false := by decide
theorem wf_aligned : Instr.wf (.registerWrite .debug 2 0) = false := by decide
theorem wf_bar2 : Instr.wf (.hostBar2Access 0 (2 ^ 28) none) = false := by decide
theorem wf_well_formed : Instr.wf (.registerWrite (.pip 19) (2 ^ 40 - 4) 0) = true := by decide

/-! ### Images, by the tables of R45, R48, R50, R53 and R61 -/

/-- `n` bytes of a number, least significant first. -/
def num : Nat → Nat → List Byte
  | 0, _ => []
  | n + 1, v => BitVec.ofNat 8 v :: num n (v / 256)

/-- A record of TYPE `ty` at position `seq` (R45). -/
def recordOf (ty stage seq : Nat) (p : List Byte) : List Byte :=
  let h := num 1 ty ++ [0] ++ num 1 stage ++ [0] ++ num 4 p.length ++ num 4 seq
  h ++ num 4 (crc32c (h ++ p)).toNat ++ p

/-- 640 × 480 at 60 Hz, analog output. -/
def timingRecord : List Byte :=
  num 4 0x040000 ++ [0, 8, 0, 0] ++ num 4 25175000 ++ num 2 800 ++ num 2 640 ++ num 2 656 ++ num 2 752 ++
    num 2 525 ++ num 2 480 ++ num 2 490 ++ num 2 492 ++ [0xFF, 0xFF, 0, 0] ++ num 8 0

/-- A stage image of stage 0: a Prism, a Chord and the timing. -/
def stageImage : List Byte :=
  recordOf 1 0xFF 0 (num 4 0x4C4E5950 ++ num 2 1 ++ [1, 0] ++ num 4 7 ++ num 4 4 ++ num 8 184 ++ num 8 0) ++
  recordOf 2 0 1 ([0, 2, 1, 0] ++ num 20 0 ++ [2, 0, 0xFF, 0xFF, 0, 0, 0, 0] ++ [3, 0, 0xFF, 0xFF, 0, 0, 0, 0]) ++
  recordOf 3 0 2 timingRecord ++ recordOf 15 0xFF 3 (num 4 4 ++ num 4 0)

/-- A full image: the device's POLICY and no stage. -/
def fullImage : List Byte :=
  recordOf 1 0xFF 0 (num 4 0x4C4E5950 ++ num 2 1 ++ [0, 0xFF] ++ num 4 7 ++ num 4 3 ++ num 8 124 ++ num 8 0) ++
  recordOf 7 0xFF 1 (num 36 0) ++ recordOf 15 0xFF 2 (num 4 3 ++ num 4 0)

/-! ### The block as a whole -/

/-- What OnlyUnassignedWritesStop's fault and its frame speak of. -/
theorem witness_steps :
    (∃ t, step { run0 with pending := [.faultPin 1, .railEnRise] } = .next t ∧ t.pending = [.railEnRise] ∧ Memory.wf t.mem = true) ∧
    (run0.pending = [] ∧ Quiet run0 ∧ (∀ g, g < 4 → ∀ e ∈ run0.ringsOf g, e.2.sync = false) ∧ run0.tally.lprc = false ∧
      run0.power.xtal = true ∧ run0.mode.fabRuns = true) ∧
    run0.assigned 0x10007004 = true ∧
    step { run0 with pending := [.registerWrite (.warden 0) 0x9000000 0] } = .fault .unassignedAddress :=
  ⟨⟨_, rfl, by decide⟩, by unfold Quiet; decide, by decide, rfl⟩

/-- A device in SERVICE, open to a debugger. -/
def service : State := { State.reset with mode := .service }

theorem witness_fuses : service.mode = .service ∧ service.debugOpen = true ∧ service.fuses.keyHash = none ∧ service.fuses.imageKey = none ∧
    ({ service with fuses := { keyHash := some 1, imageKey := some 0 } } : State).fuses.keyHash ≠ none := by decide

theorem test_a_fuse_stays : after (.fuseProgram 1 2) { service with fuses := { keyHash := some 1 } } (fun t => t.fuses.keyHash == some 1) = true := by
  decide

/-! ### Pip instructions -/

/-- An instruction in the seed, or of a line that the core holds, is fetched. -/
theorem fetches_of {x : Issue} {s : State} (h : x.core < 20 ∧ (s.core x.core).canIssue = true ∧
    s.fetchCheck x.core (s.core x.core).pc = none ∧ (s.core x.core).hits (s.core x.core).pc = true) : Fetches x s :=
  ⟨h.1, h.2.1, h.2.2.1, .inl h.2.2.2⟩

/-- P-mode, F-mode, user state, and the last core that can issue. -/
theorem witness_issues :
    Issues x0 (pipS id) ∧ (Issues x0 (pipS fun c => { c with status := 5 }) ∧ ((pipS fun c => { c with status := 5 }).core 0).fmode = true) ∧
    (Issues x0 (pipS fun c => { c with status := 0 }) ∧ ((pipS fun c => { c with status := 0 }).core 0).super = false) ∧
    Issues ⟨19, 0, false, false⟩ (run0.setCore 19 { run := .running, pc := 0xFFFF0000 }) :=
  ⟨⟨fetches_of (by decide), by decide⟩, ⟨⟨fetches_of (by decide), by decide⟩, by decide⟩, ⟨⟨fetches_of (by decide), by decide⟩, by decide⟩,
    ⟨fetches_of (by decide), by decide⟩⟩

/-- A fetch that misses, through the window at 0: its line can be brought. -/
theorem witness_brings : let s := pipW fun c => { c with pc := 0 }
    (s.core 0).hits 0 = false ∧ s.translate 0 0 = some (win 0x100000, 0x100000) ∧ s.fetchCheck 0 0 = none ∧
    (s.core 0).buffered 0x100000 32 = false ∧ s.damaged [(0x100000, 32)] = [] := by decide

/-- P-mode with q1 = 0: guard 2 is nullified, and assigned. -/
def xq : Issue := ⟨0, 2, false, false⟩

theorem witness_nullified : Fetches xq (pipS id) ∧ ((pipS id).core 0).guardUndef xq.guard = false ∧
    ((pipS id).core 0).guardTrue xq.guard = false ∧ ((pipS id).core 0).frames.length < 8 ∧ ((pipS id).core 0).fmode = false :=
  ⟨fetches_of (by decide), by decide⟩

theorem witness_registers :
    (1 : Word).toInt.tdiv 2 = 0 ∧ comparison 1 2 2 = some true ∧ comparison 2 1 11 = some true ∧ comparison 1 2 12 = none := by decide

/-- Loads and stores of the seed: the last word, halfword and byte of it. -/
theorem witness_seed :
    (isSeed 0xFFFFFFFC = true ∧ (0xFFFFFFFC : Word).toNat % 4 = 0) ∧ (isSeed 0xFFFFFFFE = true ∧ (0xFFFFFFFE : Word).toNat % 2 = 0) ∧
    isSeed 0xFFFF0000 = true ∧ isSeed 0xFFFEFFFF = false ∧ x0.dataUe = false := by decide

/-- Loads, stores and atomics outside the seed. -/
theorem witness_reaches :
    Issues x0 (pipW id) ∧ Reaches (pipW id) 0 0xFFFFC 4 (win 0x100000) 0x1FFFFC ∧ (win 0x100000).r = true ∧ (win 0x100000).w = true ∧
    (win 0x100000).c = false ∧ 0x1FFFFC % 4 = 0 ∧ (pipW id).isMem 0x1FFFFC = true ∧ ((pipW id).core 0).wbuf.length < 8 ∧
    ((pipW id).core 0).buffered 0x1FFFFC 4 = false ∧
    (Reaches (pipW id) 0 0x10000003 1 { win 0x200000 with c := true } 0x200003 ∧ ((pipW id).core 0).line 0x200003 = none) ∧
    (pipW id).damaged [(0x1FFFFC, 4)] = [] :=
  ⟨⟨fetches_of (by decide), by decide⟩, by unfold Reaches; decide⟩

/-- A load whose data returns, and a store that drains. -/
theorem witness_returns :
    let q : PendLoad := { pa := 0x100000, rd := 31, size := 4 }
    let s := pipW fun c => { c with pend := some q, wbuf := [{ addr := 0x100020, bytes := List.replicate 32 7, mask := 0xF }] }
    (s.core 0).pend = some q ∧ (s.core 0).run = .running ∧ q.fill = false ∧ q.rd < 32 ∧ s.isMem q.pa = true ∧
    (s.core 0).buffered q.pa q.size = false ∧ s.heldAt q.pa = false ∧ s.damaged [(q.pa, q.size)] = [] ∧
    (q.data = none ∧ q.pa % 32 + q.size ≤ 32 ∧ (s.core 0).buffered (q.pa / 32 * 32) 32 = false ∧ s.damaged [(q.pa / 32 * 32, 32)] = []) ∧
    s.damaged [(0x100020, 32)] = [] ∧
    (s.core 0).wbuf = [{ addr := 0x100020, bytes := List.replicate 32 7, mask := 0xF }] := by decide

/-- What traps: a fetch outside every window, a misaligned load, a load outside every window, an undefined encoding, a ninth frame. -/
theorem witness_traps :
    (let s := pipS fun c => { c with pc := 0x1000 }
     (s.core 0).canIssue = true ∧ isSeed (s.core 0).pc = false ∧ s.translate 0 (s.core 0).pc = none) ∧
    (0xFFFF0001 : Word).toNat % 4 ≠ 0 ∧ ((pipS id).translate 0 0x1000 = none ∧ (0x1000 : Word).toNat % 4 = 0 ∧ isSeed 0x1000 = false) ∧
    undefWord 0x06800003 false = true ∧
    ((pipS fun c => { c with frames := List.replicate 8 {} }).core 0).frames.length = 8 := by decide

/-- A `rep` whose successor is `addi g4, g4, #1` of R272's example, and one whose successor is a `rep`. -/
theorem witness_rep :
    (pipS id).fetchCheck 0 (((pipS id).core 0).pc + 4) = none ∧
    (((pipS id).core 0).hits ((pipS id).core 0).pc = true ∧ ((pipS id).core 0).hits (((pipS id).core 0).pc + 4) = true) ∧ repSuccessorBad 0x02108001 = false ∧ repSuccessorBad 0x09C80000 = true ∧
    ((0 : BitVec 2) = 0 ∧ (0 : BitVec 8) = 0) := by decide

/-- R272's example: `rep g4` with g4 = 5 counts 5. -/
theorem test_rep : after (.rep x0 0 4 0 0x02108001) (pipS (withG 4 5)) (fun t => (t.core 0).repcnt == 5 && (t.core 0).pc == 0xFFFF0004) = true := by
  decide

/-- Unit a0 of R268's example: INDEX 46, STEP 3, MODE 1, LENM1 47; and a1 in MODE 2, LOG2M1 2, STEP 1. -/
def units (i0 i1 : Word) (c : Core) : Core :=
  { c with au := vset (vset c.au 0 { base := 0x40002000, index := i0, step := 3, cfg := 0x10002F }) 1 { index := i1, step := 1, cfg := 0x220000 } }

theorem test_astep :
    after (.astep x0 0) (pipS (units 46 0)) (fun t => ((t.core 0).unit 0).index == 1) = true ∧
    after (.astep x0 1) (pipS (units 0 6)) (fun t => ((t.core 0).unit 1).index == 1) = true ∧
    after (.astep x0 1) (pipS (units 0 7)) (fun t => ((t.core 0).unit 1).index == 0) = true := by decide

/-- R263 in F-mode: 0x7FFF_FFFF + 1 sets N and V; 0 − 1 borrows; and R262's division corner. -/
theorem test_flags :
    after (.add x0 3 1 2) (pipS fun c => withG 1 0x7FFFFFFF (withG 2 1 { c with status := 5 })) (fun t => (t.core 0).status == 0x90000005) = true ∧
    after (.sub x0 3 0 2) (pipS fun c => withG 2 1 { c with status := 5 }) (fun t => (t.core 0).status == 0x80000005) = true ∧
    after (.div x0 3 1 2) (pipS fun c => withG 1 0x80000000 (withG 2 0xFFFFFFFF c)) (fun t => (t.core 0).g 3 == 0x80000000) = true ∧
    after (.add x0 0 1 2) (pipS (withG 1 7)) (fun t => (t.core 0).g 0 == 0) = true := by decide

/-- What `mfs` and `mts` name: privileged numbers in supervisor state, a frame on the stack and none. -/
theorem witness_special :
    ((pipS id).core 0).super = true ∧ ((pipS id).core 0).frames = [] ∧
    ((pipS fun c => { c with frames := [{ epc := 4 }] }).core 0).frames = [{ epc := 4 }] ∧
    (0x010 ≤ (0x01F : BitVec 12).toNat ∧ (0x01F : BitVec 12).toNat ≤ 0x01F) := by decide

/-- A dirty line of the data cache, and a line of an uncached window. -/
theorem witness_cache :
    let l : CacheLine := { bytes := List.replicate 32 1, dirty := 1 }
    let s := pipW fun c => { c with dcache := [(0x200000, l)] }
    isSeed 0x10000000 = false ∧ s.translate 0 0x10000000 = some ({ win 0x200000 with c := true }, 0x200000) ∧
    s.cached { win 0x200000 with c := true } 0x200000 = true ∧ (s.core 0).wbuf.length < 8 ∧ (s.core 0).line 0x200000 = some l ∧ l.dirty ≠ 0 ∧
    s.translate 0 0 = some (win 0x100000, 0x100000) ∧ s.cached (win 0x100000) 0x100000 = false ∧ (s.core 0).buffered 0x200000 4 = false := by
  decide

/-- The check bytes of R93: of a word whose last byte alone is 1, the generator's lower coefficients; zero at the four roots. -/
theorem test_check_bytes :
    checkBytes [1] = [0x0F, 0x36, 0x78, 0x40] ∧ isCodeword ([0x12, 0x34] ++ checkBytes [0x12, 0x34]) = true := by
  decide +kernel

/-- The words of R257's encodings: guard, major opcode, fields. -/
theorem test_decode_pip :
    decodePip 0 false false false 0x40CA6FFD 0 = .addi ⟨0, 4, false, false⟩ 5 6 0xFFD ∧
    decodePip 0 false false false 0x028234A4 0 = .cmp x0 1 3 9 2 4 ∧
    decodePip 0 false false false 0x090FFFFB 0 = .dbnz x0 7 0x1FFFB ∧
    decodePip 0 false false true 0x0960000C 0 = .bCc x0 8 0xC ∧
    decodePip 0 false false false 0x09C80000 0x02108001 = .rep x0 0 4 0 0x02108001 ∧
    decodePip 0 false false false 0x09C00410 0 = .rep x0 1 0 16 0 ∧
    decodePip 0 false false false 0 0 = .undefinedInstruction x0 0 := by decide

/-! ### Reset, supplies and loads -/

theorem witness_resets :
    (State.reset.power.inReset = false ∧ State.reset.mode ≠ .off ∧ State.reset.mode ≠ .deep ∧ State.reset.mode ≠ .sleep ∧
      State.reset.tally.lprc = false) ∧
    (let s : State := { State.reset with power := { inReset := true } }; s.power.inReset = true ∧ s.power.io18 = true ∧ s.power.railEn = true) ∧
    (let s : State := { State.reset with mode := .deep, power := { step := 6 } }; s.power.inReset = false ∧ s.mode = .deep ∧ s.power.step = 6) ∧
    (let s : State := { State.reset with mode := .off }; s.power.inReset = false ∧ s.mode = .off ∧ s.power.io18 = true) := by decide

/-- One hour in DEEP at the nominal rate of the LPRC (R374's example). -/
theorem test_deep_hour :
    after (.deepWake 117964800) { State.reset with mode := .deep, power := { step := 6 } }
      (fun t => t.mode == .boot && t.tally.count == 86400000000) = true := by decide

theorem witness_supplies :
    ({ State.reset with power := { io18 := false } } : State).power.io18 = false ∧
    ({ State.reset with power := { io33 := false } } : State).power.io33 = false ∧ State.reset.power.io18 = true ∧
    State.reset.power.bat = true ∧ ({ State.reset with power := { bat := false } } : State).power.bat = false := by decide

/-- A full load from BOOT; one that waits for the asset store, and one that waits for the host. -/
theorem witness_full_loads :
    (State.reset.mode = .boot ∧ State.reset.power.inReset = false ∧ (State.reset.core 20).run = .running ∧
      State.reset.load.busy = false ∧ State.reset.jtag.bootReq = false ∧ State.reset.straps.getLsbD 0 = false ∧
      State.reset.fuses.secure = false) ∧
    (let s : State := { State.reset with mode := .config, load := { busy := true, waitAsset := true, sources := [1] } }
     s.mode = .config ∧ s.load.waitAsset = true ∧ s.readyDrives = [] ∧ s.load.sources = [1] ∧ 1 ≤ 1 ∧
     ({ s with store := { drives := (vset (Vector.replicate 2 {}) 0 { state := 2 }) } } : State).readyDrives ≠ []) ∧
    (let s : State := { State.reset with mode := .config, load := { busy := true, waitHost := true, sources := [0] } }
     s.mode = .config ∧ s.load.waitHost = true ∧ s.load.sources = [0] ∧ s.straps.getLsbD (1 + 1) = false ∧ s.load.finalWait = false) ∧
    (let s : State := { State.reset with mode := .config, load := { busy := true, phase := 3, step := 5, reads := [(9, 1)], sources := [0] } }
     s.load.waitAsset = false ∧ s.inPass 3 = true ∧ s.load.stage = 15 ∧ s.load.reads ≠ [] ∧ s.readyDrives = [] ∧ s.load.sources = [0]) ∧
    (let s : State := { State.reset with mode := .config, load := { finalWait := true } }
     s.load.finalWait = true ∧ s.load.sources = [] ∧ s.straps.getLsbD (0 + 1) = false) := by
  decide

/-- The host's turn first: READY accepted on PE1 alone; a link up, and none; a boot over JTAG, allowed and not. -/
theorem witness_boot_orders :
    (let s : State := { State.reset with straps := 1, load := { ready := vset (Vector.replicate 2 false) 1 true } }
     s.straps.getLsbD 0 = true ∧ vget false s.load.ready 1 = true ∧ vget false s.load.ready 0 = false) ∧
    (let s : State := { State.reset with straps := 1, pe := vset State.reset.pe 0 { status := 1 } }
     s.load.ready = Vector.replicate 2 false ∧ s.hostLinked = true ∧ ({ State.reset with straps := 1 } : State).hostLinked = false) ∧
    (let s : State := { State.reset with jtag := { bootReq := true } }; s.jtag.bootReq = true ∧ s.fuses.secure = false) ∧
    (let s : State := { State.reset with jtag := { bootReq := true }, fuses := { secure := true } }
     s.jtag.bootReq = true ∧ s.fuses.secure = true ∧ s.jtag.unlocked = false) := by decide

theorem test_first_source_is_the_active_slot :
    after .fullLoadStart State.reset (fun t => t.mode == .config && t.load.source == 0 && t.load.sources == [1, 2, 3]) = true := by decide

/-- Stage 0, empty, loads from the staging area of PE0. -/
def stageLoad (f : Load → Load) : State :=
  { run0 with mode := .retune, load := f { busy := true, stage := 0, source := 3, maxLen := 184, phase := 1, step := 1 }
              pe := vset run0.pe 0 { stageLen := 184 } }

theorem witness_pass1 :
    (stageLoad id).inPass 1 = true ∧ (stageLoad id).load.stage < 4 ∧ (stageLoad id).load.step < 3 ∧
    (let bs := (stageLoad id).sourceBytes stageImage
     (stageLoad id).pass1 bs ((stageLoad id).sourceLen bs.length) (some 0) none = none) ∧
    (readImage none stageImage).assetRuns = [] ∧ (stageLoad id).pass1 [] 184 (some 0) none = some 0x30 ∧
    (stageLoad id).passRead 184 = true ∧ (stageLoad id).load.source ≠ 6 := by decide +kernel

/-- A stage image with a segment of 64 KiB that blocks 7 to 22 of the store fill; no drive is ready. -/
def storeImage : List Byte :=
  recordOf 1 0xFF 0 (num 4 0x4C4E5950 ++ num 2 1 ++ [1, 0] ++ num 4 7 ++ num 4 5 ++ num 8 232 ++ num 8 0) ++
  recordOf 2 0 1 ([0, 2, 1, 0] ++ num 20 0 ++ [2, 0, 0xFF, 0xFF, 0, 0, 0, 0] ++ [3, 0, 0xFF, 0xFF, 0, 0, 0, 0]) ++
  recordOf 3 0 2 timingRecord ++
  recordOf 5 0 3 ([0, 0, 3, 0] ++ num 4 0 ++ num 8 0x10000 ++ num 8 0x10000 ++ num 4 7 ++ num 4 0) ++ recordOf 15 0xFF 4 (num 4 5 ++ num 4 0)

theorem witness_pass1_of_the_store :
    let s := stageLoad fun l => { l with maxLen := 232, source := 5 }
    s.inPass 1 = true ∧ s.passRead 232 = true ∧ s.pass1 (s.sourceBytes storeImage) (s.sourceLen 232) (some 0) none = none ∧
    (readImage none storeImage).assetRuns = [(7, 16)] ∧ s.readyDrives = [] := by decide +kernel

/-- A full load that trains LP5X, and then fills it. -/
def fullLoad (f : Load → Load) : State :=
  { State.reset with mode := .config, load := f { busy := true, phase := 1, step := 4, image := stageImage } }

theorem witness_training :
    ((8533 : Nat) ∈ [8533, 7500, 6400] ∧ (32 : Nat) ∈ [8, 16, 32] ∧ (fullLoad id).inPass 1 = true ∧ (fullLoad id).load.step = 4 ∧
      (fullLoad id).lpx.trained = false ∧ (readImage none (fullLoad id).load.image).badRange 8 = false) ∧
    (let s : State := { fullLoad id with lpx := { trained := true } }
     s.inPass 1 = true ∧ s.load.step = 4 ∧ s.lpx.trained = true ∧ s.lpx.filled = false) := by decide +kernel

/-- Pass 1 of a full load, of other bytes and of a full image, over JTAG. -/
theorem witness_full_pass1 :
    let s := fullLoad fun l => { l with step := 3, source := 5, sources := [0] }
    s.inPass 1 = true ∧ s.load.stage = 15 ∧ s.load.step ≠ 4 ∧ s.load.sources = [0] ∧ s.load.source ≠ 6 ∧ s.lpx.filled = false ∧
    s.passRead 1 = true ∧ s.passRead 124 = true ∧ s.pass1 (s.sourceBytes [1]) (s.sourceLen 1) none none = some 0x30 ∧
    s.pass1 (s.sourceBytes fullImage) (s.sourceLen 124) none none = none := by decide +kernel

/-- Pass 2 finds other bytes; the bytes of pass 1 of a stage load; a full load that commits. -/
theorem witness_pass2 :
    (let s := fullLoad fun l => { l with phase := 3, step := 5, source := 3, sources := [1] }
     let bs := (s.sourceBytes [1]).take (totalLen s.load.image)
     s.inPass 3 = true ∧ s.rampDone = true ∧ s.load.reads = [] ∧ s.loadOut = false ∧ s.load.source ≠ 6 ∧
     s.load.stage = 15 ∧ bs ≠ s.load.image ∧ sha256 bs ≠ sha256 s.load.image ∧ s.load.sources = [1]) ∧
    (let s := stageLoad fun l => { l with phase := 3, step := 5, image := stageImage }
     s.inPass 3 = true ∧ s.rampDone = true ∧ s.load.reads = [] ∧ s.loadOut = false ∧ s.load.source ≠ 6 ∧
     (s.sourceBytes stageImage).take (totalLen s.load.image) = s.load.image ∧
     (readImage none s.load.image).assetBytes = 0 ∧ (readImage none s.load.image).stages = [s.load.stage] ∧ s.load.stage < 4 ∧ (s.sourceBytes []).take (totalLen s.load.image) ≠ s.load.image ∧
     sha256 [] ≠ sha256 s.load.image) ∧
    (let s := fullLoad fun l => { l with phase := 3, step := 5, source := 3, sources := [0] }
     let m := readImage none s.load.image
     s.inPass 3 = true ∧ (s.sourceBytes stageImage).take (totalLen s.load.image) = s.load.image ∧
     ((s.installDevice m).applyImage m true []).isSome = true) := by decide +kernel

/-! ### Stages, the Wardens, mailboxes and the router -/

/-- 640 × 480 at 60 Hz, analog output. -/
def tm0 : Timing :=
  { pixclk := 25175000, htotal := 800, hactive := 640, hss := 656, hse := 752, vtotal := 525, vactive := 480, vss := 490, vse := 492
    outputs := 4, bpc := 8 }

/-- Stage 0 at work on port 0, a Prism, a Chord, a Press, a layer and a Pip bound, changed by `f`. -/
def stg (f : Stage → Stage) : State :=
  run0.setStage 0 (f
    { phase := .running, loaded := true, beam := { inForce := tm0, primary := tm0, run := true, locked := true, nextLine := 1 }
      binds := [(0, { bound := true }), (24, { bound := true }), (25, { bound := true }), (26, { bound := true }), (27, { bound := true })]
      segs := [{ base := 0, size := 0x400000 }] })

/-- At its latch line. -/
def atLatch (b : Beam) : Beam := { b with line := 480, nextLine := 481 }

theorem witness_stages :
    (let s := stg fun x => { x with phase := .loaded, beam := { x.beam with run := false } }
     s.portStage 0 = some 0 ∧ (s.stage 0).phase = .loaded ∧ (s.stage 0).beam.run = false ∧ (s.stage 0).portA = 0) ∧
    (let s := stg fun x => { x with phase := .loaded, beam := atLatch x.beam }
     s.atLatch 0 = true ∧ (s.stage 0).phase = .loaded ∧ s.mode.stagesRun = true ∧ s.power.step = 0 ∧ s.load.busy = false) ∧
    (let s : State := { stg fun x => { x with beam := atLatch x.beam } with
       mode := .retune, load := { busy := true, stage := 0, step := 2, unload := true } }
     s.atLatch 0 = true ∧ s.mode = .retune ∧ s.load.busy = true ∧ s.load.stage = 0 ∧ s.load.step = 2) ∧
    (let s : State := { stg fun x => { x with phase := .stopped } with
       mode := .retune, load := { busy := true, stage := 0, step := 3, unload := true } }
     s.mode = .retune ∧ s.load.busy = true ∧ s.load.unload = true ∧ s.load.stage = 0 ∧ s.load.step = 3 ∧
     (s.stage 0).sound.stopRamp = none) ∧
    (let s : State := { stg fun x => { x with phase := .loaded, beam := atLatch x.beam } with
       mode := .retune, load := { busy := true, stage := 0, step := 5 } }
     s.atLatch 0 = true ∧ s.mode.stagesRun = true ∧ s.power.step = 0 ∧ s.load.step = 5 ∧ s.mode ≠ .orphan) ∧
    (let s : State := { run0 with mode := .retune, load := { busy := true, stage := 0, step := 2 } }
     (s.stage 0).phase = .empty ∧ s.load.busy = true ∧ s.load.stage = 0 ∧ s.load.step = 2) := by decide

/-- A message of `n` words from the host, or another sender, waits for Warden `w`. -/
def asked (w sender n : Nat) (msg : List Word) (s : State) : State :=
  s.setMb (20 + w) { state := .posted, sender := sender, count := n, msg := Vector.ofFn fun i => msg.getD i.val 0 }

theorem witness_status :
    (let s := asked 0 22 1 [1] run0; s.taken 0 = some 1 ∧ s.badForm 0 1 [] = false) ∧
    (let s := asked 0 22 2 [6, 3] run0; s.taken 0 = some 6 ∧ s.activeWarden = 0 ∧ s.badForm 0 2 [3] = false) ∧
    (let s := asked 0 22 1 [8] run0
     s.taken 0 = some 8 ∧ s.activeWarden = 0 ∧ s.senderOf 0 ≠ .peer ∧ s.badForm 0 1 [] = false) ∧
    (let s := asked 0 22 2 [9, 0x70600] run0
     s.taken 0 = some 9 ∧ s.activeWarden = 0 ∧ s.badForm 0 2 [0xFF0F03] = false ∧ s.senderOf 0 = .host ∧
     ((s.arg 0 1).toNat / 2 ^ 8 % 2 ^ 4 < 7)) ∧
    (let s := asked 0 22 2 [9, 0x700] run0
     s.taken 0 = some 9 ∧ s.badForm 0 2 [0xFF0F03] = false ∧ (s.arg 0 1).toNat / 2 ^ 8 % 2 ^ 4 = 7 ∧ (s.arg 0 1).toNat / 2 ^ 16 % 2 ^ 8 = 0) ∧
    (let s := asked 0 0 2 [9, 1] (stg id)
     s.taken 0 = some 9 ∧ s.badForm 0 2 [0xFF0F03] = false ∧ s.senderOf 0 = .pip (some 0) ∧ some 0 ≠ some ((s.arg 0 1).toNat % 4)) ∧
    (asked 0 22 1 [0] run0).taken 0 = some 0 ∧ (asked 0 22 1 [10] run0).taken 0 = some 10 := by decide

theorem witness_turned_away :
    (let s := asked 1 22 2 [4, 3] { run0.setCore 21 { run := .running } with keeper := { wbReleased := true } }
     s.taken 1 = some 4 ∧ s.activeWarden ≠ 1) ∧
    (let s := asked 0 0 2 [4, 3] run0; s.taken 0 = some 4 ∧ s.activeWarden = 0 ∧ s.senderOf 0 ≠ .host) ∧
    (let s := asked 0 22 1 [4, 3] run0; s.taken 0 = some 4 ∧ s.senderOf 0 = .host ∧ s.badForm 0 2 [0xF] = true) ∧
    (let s : State := { asked 0 22 2 [4, 3] run0 with power := { step := 1 } }
     s.taken 0 = some 4 ∧ s.badForm 0 2 [0xF] = false ∧ s.entering = true) := by decide

theorem witness_host_asks :
    HostAsks 0 2 5 [0xF3, 0xFFFFFFFF, 0xFF, 0xFFFFFFFF] (asked 0 22 5 [2, 0x33] run0) ∧
    HostAsks 0 3 2 [3] (asked 0 22 2 [3, 0] (stg id)) ∧ ((asked 0 22 2 [3, 0] (stg id)).stage 0).phase ≠ .empty ∧
    HostAsks 0 4 2 [0xF] (asked 0 22 2 [4, 10] run0) ∧
    HostAsks 0 5 3 [0xFFFF03, 0xFFFF] (asked 0 22 3 [5, 0x0100] (stg id)) ∧
    ((asked 0 22 3 [5, 0x0100] (stg id)).stage 0).bind 0 = { bound := true } ∧
    HostAsks 0 5 3 [0xFFFF03, 0xFFFF] (asked 0 22 3 [5, 0x0300, 2] (stg fun x => { x with binds := [(35, { bound := true, count := 4 })] })) ∧
    0 < ((stg fun x => { x with binds := [(35, { bound := true, count := 4 })] }).stage 0).voiceCount ∧
    (vget false run0.load.muted 0 = false ∧ vget false run0.keeper.lost 0 = false ∧ run0.readyDrives = [] ∧ run0.load.busy = false) ∧
    ({ run0 with lpx := { trained := true, rawGib := 8 } } : State).lpxSourceOk 0x100000000 64 = true ∧
    HostAsks 0 7 4 [0xF0, 0xFFFFFFFF, 0xFFFFFFFF] (asked 0 22 4 [7, 0x40, 0, 1] run0) := by
  unfold HostAsks; decide

theorem witness_update_ends :
    let s : State := { asked 0 22 4 [7] run0 with load := { update := some (0, 1) } }
    s.load.update = some (0, 1) ∧ vget false s.keeper.lost 0 = false ∧ vget false s.load.muted 0 = false ∧
    (s.mb 20).state = .posted := by decide

theorem test_set_mode_sleep :
    after (.setMode 0) (asked 0 22 2 [4, 9] run0) (fun t => t.power.step == 1 && t.power.target == .sleep && t.mode == .run) = true := by
  decide

/-- A claim of an IDLE mailbox, and the states of a message: claimed, posted, acknowledged. -/
theorem witness_mailboxes :
    (run0.mb 23).state = .idle ∧ run0.mbReach 21 23 = true ∧
    (let s := run0.setMb 23 { state := .claimed, sender := 21 }; (s.mb 23).state = .claimed ∧ (s.mb 23).sender = 21 ∧ s.mbReach 21 23 = true) ∧
    (let s := run0.setMb 23 { state := .posted, sender := 21 }; (s.mb 23).state = .posted ∧ s.mbReach 23 23 = true) ∧
    (let s := run0.setMb 23 { state := .done, sender := 21 }; (s.mb 23).state = .done) ∧ run0.serving 0 = false := by decide

theorem test_lowest_claimant : after (.mbClaim 23 [22, 21]) run0 (fun t => (t.mb 23).sender == 21) = true := by decide

/-- Source 100, an edge, pending for P0 at priority `pri`. -/
def pended (pri : Nat) (s : State) : State :=
  (s.setDreg (0x13000000 + 8 * 100) (BitVec.ofNat 32 (2 + 16 * pri))).setIrq 100 { pending := true }

theorem witness_presented :
    (let s := pended 3 (pipW fun c => { c with status := 3 })
     s.presented 0 = some 100 ∧ (s.core 0).canIssue = true ∧ (s.core 0).repNew = false ∧ bit (s.core 0).status 1 = true ∧
     (s.core 0).frames.length < 8 ∧ s.irqPri 100 < 8 ∧ (s.core 0).ipl < s.irqPri 100) ∧
    (let s := pended 3 (pipW fun c => { c with status := 0x303 })
     s.presented 0 = some 100 ∧ s.irqPri 100 ≤ (s.core 0).ipl) ∧
    (let s := pended 3 (pipW fun c => { c with run := .waiting })
     s.presented 0 = some 100 ∧ (s.core 0).run = .waiting ∧ (s.core 0).ipl = 0) ∧
    (let s := pended 3 (pipW fun c => { c with run := .retention }); s.presented 0 = some 100 ∧ (s.core 0).run = .retention) ∧
    (let s := pipS id; (s.core 0).super = true ∧ s.presented 0 = none) ∧ (pended 3 (pipW id)).isPending 100 = true := by decide

theorem witness_sources :
    (let s := (pended 0 run0).setIrq 100 { active := true, accTgt := 0 }; (s.irq 100).active = true ∧ (s.irq 100).accTgt = 0) ∧
    ((pended 3 run0).isPending 100 = true ∧ (pended 3 run0).isHeld 100 = false ∧ run0.isPending 100 = false) ∧
    run0.mayWrite (.chord 3) (some 3) = true ∧ run0.mayWrite (.chord 3) (some 2) = false ∧ run0.mayWrite (.warden 0) none = true := by
  decide

/-! ### Memory, beam ports, the Prism -/

/-- The registers that stage `tm0`. -/
def tm0Regs : Sparse Word :=
  [(0x410, 25175000), (0x414, 0x03200280), (0x418, 0x02F00290), (0x41C, 0x020D01E0), (0x420, 0x01EC01EA), (0x424, 0x8004), (0x428, 0xFFFF)]

/-- Scrubs of the last Orchard word and of the first LP5X word; LP5X at rest and awake. -/
theorem witness_memory :
    (let s := (run0.setSector 3 { scrub := 0xFFFFF }).setSymbols (32 * 0x3FFFFF) 3
     s.isMem (32 * 0x3FFFFF) = true ∧ 32 * 0x3FFFFF < 0x8000000 ∧ s.scrubs (32 * 0x3FFFFF) = true ∧ s.symbols (32 * 0x3FFFFF) = 3 ∧
     s.damaged [(32 * 0x3FFFFF, 32)] = [32 * 0x3FFFFF] ∧ s.scrubs 0 = true ∧ s.damaged [(0, 32)] = [] ∧ s.symbols 0 = 0 ∧ s.scrubs 32 = false) ∧
    (let s : State := { run0 with lpx := { trained := true, rawGib := 8 } }
     s.isMem (32 * 0x8000000) = true ∧ s.scrubs (32 * 0x8000000) = true ∧ s.lpx.state < 2 ∧ s.lpx.trained = true ∧ s.lpx.state = 0 ∧ s.tolerates 3000 = true ∧
     s.tolerates 100 = true) ∧
    (let s : State := { run0 with lpx := { trained := true, state := 2 } }
     s.lpx.state = 2 ∧ s.mode ≠ .sleep ∧ s.mode ≠ .doze ∧ s.power.step ≠ 4) ∧
    (let s : State := { run0 with mode := .sleep, lpx := { trained := true, state := 2 } }; s.mode = .sleep ∧ s.power.step ≠ 6) := by
  decide

theorem witness_commit :
    let x := (stg fun x => { x with regs := tm0Regs }).stage 0
    x.staged = tm0 ∧ tm0.ok53 false = true ∧ tm0.ok105 false = true ∧ x.twin = false ∧ tm0.dp = false ∧ tm0.hdmi = false ∧
    tm0.analog = true ∧ x.beam.primary.analog = true ∧ tm0.lanes ≤ x.beam.primary.lanes ∧ x.beam.inForce = x.staged ∧
    ((stg id).stage 0).staged.ok53 false = false := by decide

theorem test_commit : after (.timCommit 0) (stg fun x => { x with regs := tm0Regs })
    (fun t => (t.stage 0).beam.pending == some tm0) = true := by decide

/-- Inside the frame, at its last line, at a frame boundary with and without a new timing, and held for a relock. -/
theorem witness_raster :
    (let x := (stg id).stage 0; x.beam.run = true ∧ x.beam.hold = false ∧ x.beam.nextLine < x.beam.inForce.lines x.beam.field ∧
      x.live = true ∧ x.beam.nextLine + 1 < x.beam.inForce.vactive) ∧
    (let x := (stg fun x => { x with beam := { x.beam with nextLine := 524 } }).stage 0
     x.beam.nextLine + 1 = x.beam.inForce.lines x.beam.field ∧ 0 < (x.beam.nextTiming.getD x.beam.inForce).vactive ∧ x.beam.nextTiming = none) ∧
    (let x := (stg fun x => { x with beam := { x.beam with nextLine := 525, waiting := some { tm0 with pixclk := 25200000 } } }).stage 0
     x.beam.nextLine = x.beam.inForce.lines x.beam.field ∧ x.beam.nextTiming = some { tm0 with pixclk := 25200000 }) ∧
    ((stg fun x => { x with regs := [(0x408, 1)] }).stage 0).reg 0x408 = BitVec.ofNat 32 1 ∧
    ((stg fun x => { x with beam := { x.beam with hold := true } }).stage 0).beam.hold = true := by decide

theorem witness_latch :
    let s := stg fun x => { x with beam := { x.beam with line := 480, nextLine := 481 }, prism := { armed := 1, caps := [(0, { fence := 5, target := 1 })] } }
    let x := s.stage 0
    s.power.step = 0 ∧ s.power.target ≠ .service ∧ x.beam.run = true ∧ x.beam.hold = false ∧ x.beam.latched = false ∧
    x.beam.line = x.beam.inForce.latchAt x.beam.field ∧ x.live = true ∧ x.restart = false ∧ x.stopReq = false ∧
    x.prism.armed.getLsbD 0 = true ∧ x.srcBound 0 = true ∧ x.flipGroup 0 = none ∧ x.fenceReached 5 1 = false ∧ x.fenceReached 5 0 = true := by
  decide

/-- The last segment of a line, an active line and a blanking line, a frozen stage; a composed layer and a drawn plane. -/
theorem witness_segments :
    (let x := (stg id).stage 0
     x.beam.run = true ∧ x.beam.hold = false ∧ x.mixHeld = false ∧ x.mixTiming.segPix x.twin = 10 ∧ x.prism.mixSeg + 1 < x.segCount x.mixTiming ∧
     x.prism.mixLine < x.mixTiming.vactive) ∧
    (let x := (stg fun x => { x with prism := { mixLine := 480, mixSeg := 79, frozen := true } }).stage 0
     x.mixHeld = false ∧ x.segCount x.mixTiming ≤ x.prism.mixSeg + 1 ∧ x.mixTiming.vactive ≤ x.prism.mixLine ∧ x.prism.frozen = true) ∧
    (let c : LineCtx := { y := 1, layers := [(0, [])], sprRecs := [{ plane := 7, ovf := true }] }
     let x := (stg fun x => { x with prism := { comp := some c } }).stage 0
     x.prism.comp = some c ∧ (c.layers.any fun e => e.1 == 0) = true ∧ x.prism.mix = none ∧ c.record 7 = some { plane := 7, ovf := true }) := by
  decide

/-- 3840 × 2160 at 120 Hz, 10 Gbit/s on four lanes, which R53's example accepts, and the line budget of R144's example. -/
def tm4k : Timing :=
  { pixclk := 1188000000, htotal := 4400, hactive := 3840, hss := 4016, hse := 4104, vtotal := 2250, vactive := 2160, vss := 2168
    vse := 2178, outputs := 1, lanes := 4, rate := 4, bpc := 8 }

theorem test_r53_example : tm4k.ok53 false = true ∧ ({ tm4k with rate := 3 } : Timing).ok53 false = false ∧
    ({ tm4k with bpc := 10 } : Timing).ok53 false = true ∧ tm4k.segPix false = 64 ∧ run0.lineBudget tm4k = 4444 := by decide

theorem witness_outputs :
    (let s := stg fun x => { x with beam := { x.beam with inForce := { tm4k with pixclk := 594000000 }, digital := .training, trainStep := 1, lanesNow := 4 } }
     let b := (s.stage 0).beam
     s.portStage 0 = some 0 ∧ b.inForce.dp = true ∧ b.digital = .training ∧ b.trainStep = 1 ∧ b.inForce.fewerLanes b.lanesNow = some 2) ∧
    (let s := stg fun x => { x with beam := { x.beam with inForce := { tm4k with outputs := 2, lanes := 0 }, digital := .black, onFallback := true } }
     let b := (s.stage 0).beam
     b.inForce.hdmi = true ∧ b.trainStep = 0 ∧ b.digital = .black ∧ b.run = true ∧ b.onFallback = true ∧ s.hpd.getLsbD 0 ≠ true ∧
     (s.stage 0).twin = false ∧ b.fromLine0 = false) ∧
    (let s := stg fun x => { x with beam := { x.beam with
       inForce := { tm4k with pixclk := 594000000 }, digital := .training, trainStep := 2, lanesNow := 1, fallback := some tm0 } }
     let b := (s.stage 0).beam
     b.trainStep = 2 ∧ b.inForce.dp = true ∧ b.inForce.fewerLanes b.lanesNow = none ∧ b.fallback = some tm0 ∧ b.fbTried = false ∧
     b.onFallback = false) ∧
    (let s : State := { run0 with edidBusy := 8, hpd := 8 }; s.edidBusy.getLsbD 3 = true ∧ s.hpd.getLsbD 3 = true ∧ s.hpd.getLsbD 0 = false) ∧
    (List.replicate 128 (0 : Byte)).length = 128 := by decide +kernel

theorem witness_flips :
    let x := (stg id).stage 0
    (x.bind 24).bound = true ∧ x.held = [] ∧ x.chord.flips = [] ∧ x.chord.arrived = [] ∧ x.cyc = {} ∧ bit (0x40000000 : Word) 31 = false ∧
    (stg id).mayWrite (.pip 0) (some 0) = true ∧ (stg id).mayWrite (.pip 0) (some 1) = false := by decide

/-! ### Chord and Bramble -/

/-- Stage 0 with a Chord program that runs. -/
def chd (f : Chord → Chord) : State := stg fun x => { x with chord := f { running := true, store := [0] } }

/-- An instruction of opcode `op`, its other fields in `w`. -/
def op (o w : Nat) (c : Chord) : Chord := { c with store := [BitVec.ofNat 64 (o * 2 ^ 60 + w)] }

theorem witness_chord :
    (∀ o, o < 16 → let x := (chd (op o 0)).stage 0
      x.chord.running = true ∧ x.chord.waiting = none ∧ x.chord.faulted = false ∧ x.prism.frozen = false ∧ 25 ∉ x.held ∧
      x.chord.op = o ∧ x.chord.pc < 2047) ∧
    (let x := (chd (op 1 (479 * 2 ^ 32))).stage 0
     x.neverDue 479 0 = false ∧ x.neverDue 525 0 = true ∧ x.neverDue 0 800 = true) ∧
    (let x := (chd fun c => { c with waiting := some (0, 0) }).stage 0
     x.chord.waiting = some (0, 0) ∧ x.chord.never = false ∧ x.targetOrder 0 0 ≤ x.mixOrder + 1 ∧ x.chord.pc < 2047) ∧
    isClass0 0x10004 = true ∧ isClass0 0x408 = false := by decide

theorem witness_reload :
    let s := stg fun x => { x with latch := [(0x1A000C, 2048)], chord := { reloading := true } }
    let x := s.stage 0
    s.errs = [] ∧ (511 < 2 * ((2048 + 7) / 8)) ∧ 0 % 64 = 0 ∧ s.isMem (32 * 511) = true ∧ x.inSegs (511 / 2 * 64) 64 = true ∧
    x.chord.reloading = true ∧ x.inSegs 0 (8 * 2048) = true ∧ 4 * 511 < min ((x.latched 0x1A000C).toNat % 2 ^ 12) 2048 := by decide

/-- Quick input 63 of stage 0, whose reflex 5 fires at its rising edge; and an input no stage owns. -/
theorem witness_quick_inputs :
    let s := stg fun x => { x with qiOwn := BitVec.ofNat 64 (2 ^ 63), regs := [(0x1A0000, 2), (0x1A1140, 0x3F03)] }
    let x := s.stage 0
    s.qi.getLsbD 63 ≠ true ∧ s.power.io33 = true ∧ s.qiOwner 63 = some 0 ∧ s.qiOwner 0 = none ∧ x.chord.faulted = false ∧
    x.reflexOn = true ∧ x.cyc.edges = [] ∧ x.chord.reflex = [] ∧ (List.range 64).filter (x.rfxMatch 63 true) = [5] ∧ (List.range 64).filter (x.rfxMatch 63 false) = [] ∧
    x.qiOwn.getLsbD 63 = true ∧ x.qiOwn.getLsbD 0 = false ∧ s.mayWrite (.pip 0) (some 0) = true := by decide

theorem witness_reflex :
    let g : ReflexGroup := { entries := [(5, [{ off := 0x10004, val := 1, mask := 0xFFFFFFFF }])] }
    let x := (stg fun x => { x with chord := { reflex := [g] } }).stage 0
    x.chord.reflex = g :: [] ∧ g.due ≤ (stg id).fab ∧ isClass0 0x10004 = true ∧ x.unboundAt 0x10004 = false ∧ (stageRow 0x10004).isSome = true ∧
    x.chord.flips = [] ∧ x.chord.others = [] ∧ x.held = [] ∧ isClass0 0x408 = false := by decide

theorem witness_sound :
    (let d := ((stg fun x => { x with sound := { started := true } }).stage 0).sound
     d.started = true ∧ d.muted = false ∧ d.blocks * 16 = d.strobe) ∧
    (let x := (stg fun x => { x with sound := { started := true, blocks := 1, queue := List.replicate 16 [] } }).stage 0
     x.sound.stopRamp = none ∧ x.sound.blocks = x.sound.strobe / 16 + 1 ∧ x.sound.queue.length = 16 ∧ x.phase ≠ .empty ∧
     x.sound.muted = false ∧ x.strobeDue = true) ∧
    (let x := (stg fun x => { x with rateCode := 2, lockNum := 1, lockDen := 1, sound := { started := true, blocks := 1 } }).stage 0
     x.sound.blocks = x.sound.strobe / 16 + 1 ∧ x.strobeDue = false) ∧
    (let x := (stg fun x => { x with sound := { blocks := 1, voices := [(0, { stepAt := some 0 })] } }).stage 0
     (x.sound.voice 0).stepAt = some 0 ∧ 16 * (x.sound.blocks - 1) + 0 ≤ x.sound.strobe ∧ x.sound.stepDue 1 = false) ∧
    (let x := (stg fun x => { x with binds := [(35, { bound := true, count := 320 })] }).stage 0
     x.voiceBound 319 = true ∧ x.voiceBound 320 = false ∧ x.held = [] ∧ x.chord.flips = [] ∧ x.chord.arrived = []) := by decide

/-! ### Vine, asset store, Ledger and Press -/

/-- A fill of 8 bytes from 0x1000 on, LAST and IRQ (R323). -/
def fillDesc : List Word64 := [BitVec.ofNat 64 (2 ^ 60 + 3), 0xA5, 0x1000, 8]

/-- Stage 0 with a descriptor at 0x2000 that CHAN_DESC of channel 0 names. -/
def vine0 : State := ((stg id).setDreg (chanReg 0 8) 0x2000).setBytes 0x2000 (fillDesc.flatMap fun w => num 8 w.toNat)

theorem witness_channels :
    (vine0.mayChan (.pip 0) 0 = true ∧ (vine0.chan 0).run = false ∧ (vine0.chan 0).park = false ∧ vine0.ringMode 0 = false ∧
      vine0.isMem 0x2000 = true ∧ vine0.isMem 0x201F = true ∧ (vine0.stage 0).inSegs 0x2000 32 = true ∧
      vine0.damaged [(0x2000, 32)] = [] ∧ words64 (vine0.bytes 0x2000 32) = fillDesc ∧ vine0.descCode 0 fillDesc = 0 ∧ descOp fillDesc ≠ 3 ∧ assetSide fillDesc = none) ∧
    (stg id).descCode 0 (words64 ((stg id).bytes 0x2000 32)) ≠ 0 ∧
    (vine0.setChan 0 { run := true }).mayChan (.warden 0) 0 = true ∧ ((vine0.setChan 0 { run := true }).chan 0).run = true ∧
    vine0.mayChan (.pip 0) 14 = false ∧ vine0.mayChan (.host 1) 63 = true := by decide +kernel

theorem witness_descriptor :
    let s := vine0.setChan 0 { run := true, busy := true, desc := fillDesc }
    let v := s.chan 0
    v.run = true ∧ v.busy = true ∧ v.todo = [] ∧ s.cmdsOut 0 = [] ∧ v.ring = none ∧ dfld v.desc 0 0 5 = 3 ∧
    s.dreg (chanReg 0 0x10) = 0 ∧ s.dreg (chanReg 0 0x14) = 0 ∧ descOp v.desc ≤ 1 ∧ sideAsset v.desc 2 = false ∧ descTotal v.desc = 8 ∧ s.errs = [] ∧
    (∀ k, k < 8 → s.vineCode 0 (sideByte v.desc 2 k) = 0 ∧ windowStage (sideByte v.desc 2 k) = none) ∧
    (∀ k, k < 8 → ∀ j, j < k → sideByte v.desc 2 j ≠ sideByte v.desc 2 k) := by decide +kernel

theorem test_fill : after (.descriptorComplete 0 [] false false) (vine0.setChan 0 { run := true, busy := true, desc := fillDesc })
    (fun t => t.byte 0x1000 == 0xA5 && t.byte 0x1004 == 0xA5 && t.byte 0x1001 == 0 && t.byte 0x1008 == 0) = true := by decide +kernel

/-- Group 0 with one ring, 5, cached, of 16 entries, on channel 13 in ring mode; its table is in LP5X. -/
def rings0 : State :=
  { ((((stg fun x => { x with segs := [{ base := 0x100000000, size := 0x1000 }] }).setDreg (grpReg 0 4) 1).setDreg (grpReg 0 8) 6).setDreg
      (chanReg 13 0) 1) with
    lpx := { trained := true, rawGib := 8 }
    rings := vset run0.rings 0 [(5, { enable := true, log2 := 4, chan := 13 })] }

theorem witness_rings_quiet : Quiet rings0 := by unfold Quiet; decide +kernel

theorem witness_rings :
    let s := rings0
    let r := sget (fun _ => ({} : RingCtx)) (s.ringsOf 0) 5
    s.mayWrite (.pip 0) (some 0) = true ∧ (s.ringsOf 0).any (fun e => e.1 == 5) = true ∧ 5 < s.ctxCount 0 ∧ s.ctxInLpx 0 = true ∧
    s.ctxAdmits 0 r 16 = true ∧ s.ctxAdmits 0 r 17 = false ∧ (s.chan 13).run = false ∧ (s.stage 0).inSegs (s.ctxAddr 0 5 + 0x10) 4 = true ∧
    s.damaged [(s.ctxAddr 0 5 + 0x10, 4)] = [] ∧ (s.pending = [] ∧ s.tally.lprc = false ∧ s.power.xtal = true ∧ s.mode.fabRuns = true) ∧
    s.ctxCount 0 ≤ 6 := by decide +kernel

/-- Port 1 a root port, its link enabled, and a drive that scans the Ledger, works, or has a Ledger write out. -/
theorem witness_drives :
    (let s : State := { run0 with straps := 6 }
     let s := s.setDreg 0x1302C000 2
     s.straps.getLsbD (1 + 1) = true ∧ bit (s.dreg 0x1302C000) 1 = true) ∧
    (let s : State := { run0 with store := { drives := vset run0.store.drives 1 { state := 5 } } }; (s.drive 1).state = 5 ∧ s.store.recs = []) ∧
    (let s : State := { run0 with store := { drives := vset run0.store.drives 0 { state := 2, out := [.storeRead 3 0 1 0, .ledgerWrite 7 0] } } }
     (s.drive 0).out[1]? = some (.ledgerWrite 7 0) ∧ (s.drive 0).out[0]? = some (.storeRead 3 0 1 0) ∧ s.load.readErr = false) ∧
    (let s := ({ run0 with store := { drives := vset run0.store.drives 0 { state := 2 }, scanned := true } } : State).setDreg (qmReg 0x84) 2
     s.store.pfw = false ∧ s.store.closed = false ∧ s.store.scanned = true ∧ s.readyDrives ≠ [] ∧ (s.dreg 0x1302C084).toNat % 2 ^ 17 = 2 ∧
     s.mayWrite (.warden 0) none = true ∧ run0.store.scanned = false ∧ (s.store.recs.filter fun r => r.src == 4).length < 16) := by
  decide

/-- A fill of one row of 2 words at 0x1000 under way, and complete. -/
def fillPress : Press := { busy := true, par := [(0, 0x51), (0xC, 0x1000), (0x14, 4), (0x18, 1)] }

theorem witness_press :
    (let x := (stg id).stage 0; x.held = [] ∧ x.chord.flips = [] ∧ x.chord.arrived = [] ∧ (x.bind 26).bound = true ∧ x.press.busy = false ∧
      (stg id).errs = [] ∧ x.cyc.fences = [] ∧ x.cyc.fence0 = []) ∧
    (let p := fillPress
     p.busy = true ∧ p.finished = false ∧ p.faulted = false ∧ p.dead = false ∧ p.wmFired = false ∧ p.diry = false ∧
     p.loose = false ∧ p.op = 1 ∧ p.format = 5 ∧ p.w = 2 ∧ p.h = 1 ∧ p.dst = 0x1000 ∧ ((stg id).stage 0).inSegs 0x1000 8 = true ∧
     (∀ k, k < 8 → windowStage (0x1000 + k) = none) ∧ (stg id).pressCheck 0 p = 0) ∧
    ({ fillPress with rows := 1 } : Press).finished = true ∧ (stg id).pressCheck 0 { fillPress with par := [(0, 7)] } ≠ 0 := by decide

/-! ### Timers and Tally -/

/-- TC31, which stage 0 owns, counts PERI ticks from 0 to `top`, changed by `f`. -/
def tmr (top : Word) (f : Timer → Timer) : State :=
  (((stg fun x => { x with timers := [31] }).setDreg (timerReg 31 0) 1).setDreg (timerReg 31 0x10) top).setTimer 31 (f { run := true })

theorem witness_timers :
    let s := tmr 2 id
    s.mayWrite (.pip 0) (s.timerOwner 31) = true ∧ s.mayWrite (.pip 0) (s.timerOwner 30) = false ∧ s.srcTicks 31 = true ∧
    s.srcTicks 30 = false ∧ (s.dreg (timerReg 31 0)).toNat % 2 ^ 3 ≠ 6 ∧ s.gateOpen 31 = true ∧ (s.timer 31).run = true ∧
    (s.timer 31).fault = false ∧ (s.timer 31).cyc = { peri := s.root / 8 } ∧
    ((tmr 2 fun q => { q with fault := true }).timer 31).fault = true ∧ (tmr 2 fun q => { q with run := false }).srcTicks 31 = true ∧
    (s.timer 31).count.toNat + 1 < (s.dreg (timerReg 31 0x10)).toNat ∧
    ((tmr 1 id).timer 31).count.toNat + 1 = ((tmr 1 id).dreg (timerReg 31 0x10)).toNat ∧
    ((tmr 0 id).dreg (timerReg 31 0x10)).toNat ≤ ((tmr 0 id).timer 31).count.toNat := by decide

/-- A master's event of this PERI cycle, and of the one before for a re-arm and for a clock link. -/
theorem witness_timer_links :
    (∀ e ∈ ((tmr 9 fun q => { q with linked := [(0, 0)] }).timer 31).linked, (tmr 9 id).root / 8 ≤ e.2) ∧
    (let s : State := { (tmr 9 fun q => { q with linked := [(0, 0)] }).setDreg (timerReg 31 4) 0x200 with root := 8 }
     (∃ e ∈ (s.timer 31).linked, e.2 < s.root / 8) ∧ (s.timer 31).cyc.peri ≠ s.root / 8 ∧
     (s.dreg (timerReg 31 4)).toNat / 2 ^ 8 % 4 = 2) ∧
    (let s : State := { (tmr 9 fun q => { q with linked := [(0, 0)] }).setDreg (timerReg 31 4) 0x300 with root := 8 }
     (∃ e ∈ (s.timer 31).linked, e.2 < s.root / 8) ∧ (s.dreg (timerReg 31 4)).toNat / 2 ^ 8 % 4 = 3) := by decide

/-- What stands for a PERI cycle in which the channel has ticked, has been stopped, has had a compare written, or an edge. -/
theorem witness_timer_cycles :
    (∃ u, ((tmr 9 fun q => { q with cyc := { tick := true, undo := some {} } }).timer 31).cyc.undo = some u) ∧
    ((tmr 9 fun q => { q with cyc := { cmd := true, arm := true } }).timer 31).cyc.arm = true ∧
    ((tmr 9 fun q => { q with cyc := { writes := [(3, 1, true)] } }).timer 31).cyc = { writes := [(3, 1, true)] } ∧
    ((tmr 9 fun q => { q with cyc := { edge := true } }).timer 31).cyc = { edge := true } := by
  refine ⟨⟨_, rfl⟩, ?_⟩
  decide

/-- R367: a STOP in the PERI cycle of a tick wins over it. -/
theorem test_stop_wins :
    let s := (tmr 3000 fun q => { q with count := 299, elig := 2 }).setDreg (timerReg 31 0x24) 300
    after (.tcTick 31) s (fun t => after (.tcStop (.pip 0) 31) t (fun u => (u.timer 31).count == 299 && (u.timer 31).elig == 2 &&
      u.dreg (timerReg 31 0x48) == 0 && !(u.timer 31).run)) = true := by
  decide +kernel

/-- The compares of the PERI example of R369: CMP1 300 moves on by INTV1 600. -/
theorem test_compare_example :
    let s := (((tmr 3000 fun q => { q with count := 299, elig := 2 }).setDreg (timerReg 31 0) 0x201).setDreg (timerReg 31 0x24) 300).setDreg
      (timerReg 31 0x34) 600
    after (.tcTick 31) s (fun t => t.dreg (timerReg 31 0x24) == 900 && bit (t.dreg (timerReg 31 0x48)) 1 && (t.timer 31).elig == 2) = true := by
  decide

/-- A level that the input has held, with a CFILT of 0 and of 3, before and at the prescaler's end, and with SRC 6. -/
theorem witness_captures :
    (let s := (tmr 9 id).setDreg (timerReg 31 0x40) 0x01000200
     let cfg := s.dreg (timerReg 31 0x40)
     let q : Timer := { (s.timer 31) with level := true }
     s.qi.getLsbD 0 = false ∧ q.level ≠ false ∧ cfg.toNat / 2 ^ 16 % 2 ^ 8 = 0 ∧ bit cfg 9 = true ∧ bit cfg 8 = false ∧
     q.presc < cfg.toNat / 2 ^ 24 ∧ cfg.toNat / 2 ^ 24 ≤ ({ q with presc := 1 } : Timer).presc ∧
     (s.dreg (timerReg 31 0)).toNat % 2 ^ 3 ≠ 6) ∧
    (let s : State := { ((tmr 9 id).setDreg (timerReg 31 0x40) 0x01030300).setDreg (timerReg 31 0) 6 with qi := 1, root := 24 }
     s.qi.getLsbD 0 = true ∧ (s.timer 31).level ≠ true ∧ (s.dreg (timerReg 31 0)).toNat % 2 ^ 3 = 6 ∧
     s.root / 8 - sget (fun _ => 0) s.qiAt 0 = 3 ∧ s.srcTicks 31 = true) ∧
    run0.wardenMay (.warden 1) = true ∧ run0.wardenMay (.pip 0) = false ∧ run0.power.xtal = true ∧ run0.tally.lprc = false := by decide

/-! ### Faults, repair, the Keeper, power modes -/

theorem witness_faults :
    let s := stg id
    (s.watched 0 0 0 3 = true ∧ s.holders 0 0 0 = [(0, 0, { bound := true })] ∧ s.holders 0 3 0 = []) ∧ s.watched 3 7 7 0 = true ∧
    s.watched 0 8 0 0 = true ∧ wardenIn 0 = some 0 ∧ s.watched 3 9 0 4 = true ∧ s.watched 3 9 0 5 = true ∧ wardenIn 3 = none ∧
    s.mode ≠ .off ∧ s.mode ≠ .deep ∧ s.mode ≠ .doze ∧ s.mode ≠ .sleep ∧ s.power.step = 0 ∧ s.power.step ≠ 3 ∧ s.power.step ≠ 4 ∧
    (∀ k, k < 256 → s.openEntry 0 k = false) ∧ (bit (s.sector 0).fault 31 = false) := by
  decide +kernel

/-- Layer 0 of stage 0 moves from Facet 0.0 to Facet 1.3. -/
theorem witness_repairs :
    let s := stg id
    (s.sector 1).busy = false ∧ s.repairRefused 1 3 = false ∧ s.repairRefused 1 0x100 = true ∧
    (let s := s.setSector 1 { busy := true, cmd := 3 }
     (s.sector 1).busy = true ∧ (s.stage 0).heldWrites = [] ∧ ((s.stage 0).bind 0).sector < 4 ∧
     s.damaged [(0x1F00000 + (shadowPlace 0 0).1, (shadowPlace 0 0).2)] = []) := by decide +kernel

/-- Layer 0 has failed and no spare is left: its stage drops layer 1, drops itself, or has no step. -/
theorem witness_sheds :
    let bad : Sector := { failed := 0xFFFFFFFF }
    let s (l : List ShedStep) : State :=
      { stg fun x => { x with shedList := l, binds := [(0, { bound := true }), (1, { bound := true, unit := 1 })] } with
        sectors := Vector.replicate 4 bad }
    (s []).holds 0 = true ∧ (((s []).stage 0).bind 0).bound = true ∧ (s []).wardenUp = true ∧ (s []).healthy 0 0 0 = false ∧
    (s []).spareFor 0 0 = none ∧ (takeStep ((s []).stage 0) 0 []).2 = none ∧
    ((takeStep ((s [{ action := 1, lindex := 1 }]).stage 0) 0 [{ action := 1, lindex := 1 }]).2.map ShedStep.action) = some 1 ∧
    ((takeStep ((s [{ action := 6 }]).stage 0) 0 [{ action := 6 }]).2.any fun p => p.action == 6) = true := by decide

theorem witness_mirrors :
    (let s := (stg id).setSector 0 { mirror := [(1, 0)] }
     (s.sector 0).memFault = false ∧ (s.sector 0).mirror = [(1, 0)] ∧ (s.sector 0).stale = 0 ∧ shadowOf 1 = some (0, 0x2000) ∧
     s.slotHolder 0 1 = some (0, 0)) ∧
    ((run0.setSector 0 { memFault := true }).sector 0).memFault = true ∧
    (((pipW id).core 0).canIssue = true ∧ ((pipW id).pipOf 0).isSome = true) ∧
    (let c := (pipW fun c => { c with taking := true }).core 0; c.taking = true ∧ c.wbuf = [] ∧ c.dcache = []) := by decide

theorem witness_keeper :
    (let s : State := { run0 with keeper := { beat := vset run0.keeper.beat 0 true } }
     s.keeper.checking = true ∧ (s.core 20).run ≠ .stopped ∧ vget false s.keeper.beat 0 = true) ∧
    (vget false run0.keeper.beat 0 = false ∧ vget true run0.keeper.lost 0 = false ∧ run0.activeWarden = 0 ∧ run0.keeper.wbReleased = false ∧
      (∀ k, k < 256 → run0.openEntry 0 k = false) ∧ vget false run0.keeper.lost 1 = false ∧
      run0.mode ∈ [Mode.run, .retune, .degraded, .attract]) ∧
    (let s : State := { run0.setCore 21 { run := .running } with keeper := { wbReleased := true } }
     (s.core 21).run ≠ .stopped ∧ vget true s.keeper.lost 1 = false ∧ s.activeWarden ≠ 1 ∧ s.keeper.wbReleased = true) := by decide +kernel

/-- The device enters `m`, at step `n`. -/
def entering (m : Mode) (n : Nat) : State := { pipW id with power := { step := n, target := m } }

theorem witness_entries :
    (∀ k, k < 22 → ((entering .deep 1).core k).wbuf = []) ∧ (entering .deep 1).wakesNow = [] ∧
    (let s : State := { entering .doze 4 with pe := vset run0.pe 0 { status := 1 } }; (s.pep 0).status.getLsbD 0 = true ∧ s.power.step = 4) ∧
    (entering .doze 2).stopDone = true ∧
    (let s := (entering .sleep 2).setStage 0 { phase := .running, stopReq := true }; s.stopsLeft = true) ∧
    (entering .doze 3).saveDone = true ∧ (entering .deep 3).saveDone = true := by decide +kernel

/-- QI5 wakes from SLEEP and from DEEP; an event pending at AP0; the end of a wake from DOZE. -/
theorem witness_wakes :
    (let s : State := ({ run0 with mode := .sleep } : State).setDreg 0x10007008 0x20
     let s := s.setDreg 0x10007004 0x1FE
     s.wakes .sleep 1 5 = true ∧ ({ s with mode := .deep } : State).wakes .deep 1 5 = true) ∧
    (let s : State := { run0 with power := { step := 1, target := .sleep, wakes := [(1, 5)] } }
     s.wakesNow ≠ [] ∧ (∀ e ∈ s.wakesNow, 0 < e.1 ∧ e.1 < 64 ∧ e.2 < 64) ∧ ∀ i, i < 4 → (s.stage i).restart = false) ∧
    (let s : State := { run0 with mode := .doze, power := { step := 6 } }
     s.power.step = 6 ∧ s.faultsOpen = false ∧ ∀ i, i < 4 → (s.stage i).restart = false) := by decide

/-! ### Links, JTAG and the register map -/

/-- Bus 1 polls drop 31. -/
def polls : State := { run0 with spoke := vset run0.spoke 1 { busy := some 31, sync := 0 } }

theorem witness_spoke :
    (polls.spk 1).busy = some 31 ∧ (polls.spk 1).sync ≠ 0xFF ∧ polls.power.io33 = true ∧ spkAccept 31 [] = none ∧
    (let crc := crc16 [0x3F, 1, 7]
     spkAccept 31 [0x3F, 1, 7, crc.extractLsb' 8 8, crc.extractLsb' 0 8] = some [7]) ∧ (run0.spk 1).busy = none := by decide +kernel

/-- Port 3 in the states that its events meet; pipe 15 of it at a record at 0x1000 with a buffer of 64 bytes at 0x2000. -/
theorem witness_usb :
    (let s : State := { run0 with usb := vset run0.usb 3 { resetting := true, resuming := true, connect := true } }
     let s := s.setDreg 0x13053000 0x10
     (s.usbp 3).resetting = true ∧ (s.usbp 3).resuming = true ∧ (s.usbp 3).connect = true ∧ (s.usbp 3).oc ≠ true ∧ bit (s.dreg 0x13053000) 4 = true ∧
     ({ s with power := { linksLow := true } } : State).power.linksLow = true) ∧
    (run0.usbp 3).connect = false ∧
    (let s := (run0.setDreg 0x130532E0 0x1000).setDreg 0x130532E8 0x80010000
     let s := (s.setDreg 0x130532EC 1).setBytes 0x1000 [0, 0x28, 0, 0, 64, 0, 0, 0, 0, 0x20]
     bit (s.dreg 0x130532E8) 31 = true ∧ (s.pipe 3 15).halted = false ∧ (s.dreg 0x130532EC).toNat % 2 ^ 16 ≠ (s.pipe 3 15).head ∧
     bit (s.dreg 0x13053000) 4 = false ∧ s.power.linksLow = false ∧ s.damaged [(0x1000, 16), (0x2000, 64)] = [] ∧ s.le 0x1000 4 / 2 ^ 11 % 4 ≠ 0 ∧ s.memRange 0x1000 16 = true ∧
     s.memRange (s.le 0x1008 5) (s.le 0x1004 4 % 65536) = true ∧ s.memRange 0x9000000 64 = false) := by decide +kernel

theorem witness_links :
    (let s := ({ run0 with straps := 6 } : State).setDreg 0x1302C000 2
     s.straps.getLsbD (1 + 1) = true ∧ bit (s.dreg 0x1302C000) 1 = true ∧ (s.drive 1).state = 0 ∧ (s.pep 1).status.getLsbD 0 = false ∧
     (let s : State := { s with pe := vset s.pe 1 { status := 1 }, store := { drives := vset s.store.drives 1 { state := 2 } } }
      (s.drive 1).state ≠ 0 ∧ (s.pep 1).status.getLsbD 0 = true)) ∧
    (run0.load.readErr = false ∧ run0.damaged [(0, 1)] = [] ∧ run0.damaged [(0x7FFFFFC, 4)] = []) ∧
    (run0.straps.getLsbD (1 + 1) = false ∧ run0.isMem 0 = true ∧ isShadow 0 = false ∧ isShadow 0x1F00000 = true ∧ run0.isMem 0x1F00000 = true) ∧
    (let s : State := { run0 with i2c := vset run0.i2c 1 { busy := true } }
     (s.i2cn 1).busy = true ∧ bit (s.dreg 0x13060104) 29 = false ∧ bit ((s.setDreg 0x13060104 0x20000000).dreg 0x13060104) 29 = true) ∧
    (∀ c ∈ [0x113, 0x16C, 0x312, 0x121, 0x1DC], let s : State := ({ run0 with spiBusy := true } : State).setDreg 0x13060400 (BitVec.ofNat 32 c)
     s.spiBusy = true ∧ (s.dreg 0x13060400).toNat = c) := by decide

theorem witness_jtag :
    (State.reset.fuses.secure = false ∧ State.reset.mode = .boot ∧ State.reset.power.inReset = false) ∧
    (let s : State := { State.reset with fuses := { secure := true }, jtag := { challenge := some 5, fails := 3 } }
     ¬ (s.fuses.secure = false ∨ s.jtag.unlocked = true) ∧ s.jtag.challenge = some 5 ∧ 3 ≤ s.jtag.fails) := by decide

theorem witness_register_writes :
    run0.assigned 0x9000000 = false ∧ run0.isMem 0x7FFFFFC = true ∧ run0.debugOpen = true ∧
    ({ run0 with fuses := { secure := true } } : State).debugOpen = false ∧ run0.isMem 0x10000000 = false ∧
    ((deviceRow 0x10007004).map RegRow.pair = some .plain) ∧
    ((stg id).initStage (.pip 0) = some 0 ∧ ((stg id).stage 0).inSegs 0x400000 4 = false ∧ (stg id).isMem 0x400000 = true) := by decide

end Sys2Proof.Tests
end

namespace Sys2Proof.Machine

/-! ### What a write of a stage window or of memory can reach -/

/-- Nothing changed but what a write of a stage window or of memory reaches: memory and its symbol errors, the registers, the
stages, the cores, the Sectors, the prescalers of the quick inputs and the count of free values. -/
def OnlyBus (s t : State) : Prop :=
  t = { s with nonce := t.nonce, mem := t.mem, errs := t.errs, regs := t.regs, stages := t.stages, cores := t.cores
               sectors := t.sectors, qiPresc := t.qiPresc }

theorem OnlyBus.refl (s : State) : OnlyBus s s := rfl

theorem OnlyBus.trans {s t u : State} (h : OnlyBus s t) (g : OnlyBus t u) : OnlyBus s u := by
  unfold OnlyBus at g
  rw [h] at g
  exact g

theorem OnlyBus.chans {s t : State} (h : OnlyBus s t) : t.chans = s.chans := by
  unfold OnlyBus at h; rw [h]

/-- A branch reaches what both sides reach. -/
theorem OnlyBus.ite {s a b : State} {c : Prop} [Decidable c] (ha : OnlyBus s a) (hb : OnlyBus s b) :
    OnlyBus s (if c then a else b) := by
  split <;> assumption

/-- A fold reaches what each round reaches. -/
theorem OnlyBus.foldl {α : Type} {g : State → α → State} (h : ∀ s a, OnlyBus s (g s a)) (l : List α) (s : State) :
    OnlyBus s (l.foldl g s) := by
  induction l generalizing s with
  | nil => exact .refl s
  | cons a r ih => exact (h s a).trans (ih _)

/-- A fold that carries a state reaches what each round reaches. -/
theorem OnlyBus.foldl_snd {α β : Type} {g : β × State → α → β × State} (h : ∀ q a, OnlyBus q.2 (g q a).2) (l : List α)
    (q : β × State) : OnlyBus q.2 (l.foldl g q).2 := by
  induction l generalizing q with
  | nil => exact .refl q.2
  | cons a r ih => exact (h q a).trans (ih _)

theorem State.modStage_onlyBus (s : State) (i : Nat) (f : Stage → Stage) : OnlyBus s (s.modStage i f) := rfl

theorem State.setDreg_onlyBus (s : State) (a : Nat) (v : Word) : OnlyBus s (s.setDreg a v) := rfl

theorem State.modDreg_onlyBus (s : State) (a : Nat) (f : Word → Word) : OnlyBus s (s.modDreg a f) := rfl

theorem State.setByte_onlyBus (s : State) (a : Nat) (b : Byte) : OnlyBus s (s.setByte a b) := rfl

theorem State.setSymbols_onlyBus (s : State) (a n : Nat) : OnlyBus s (s.setSymbols a n) := rfl

theorem State.draw_onlyBus (s : State) : OnlyBus s s.draw.2 := rfl

theorem State.setBytes_onlyBus (s : State) (a : Nat) (bs : List Byte) : OnlyBus s (s.setBytes a bs) := by
  induction bs generalizing s a with
  | nil => exact .refl s
  | cons b r ih => exact (s.setByte_onlyBus a b).trans (ih _ _)

theorem State.corrected_onlyBus (s : State) (a : Nat) : OnlyBus s (s.corrected a) := rfl

theorem State.uncorrectable_onlyBus (s : State) (a : Nat) : OnlyBus s (s.uncorrectable a) :=
  (s.modDreg_onlyBus _ _).trans (.ite (.refl _) (State.setDreg_onlyBus ..))

theorem State.readWord_onlyBus (s : State) (fv a : Nat) : OnlyBus s (s.readWord fv a).2 := by
  unfold State.readWord
  extract_lets w n
  split
  · exact .refl s
  · split
    · exact (s.corrected_onlyBus w).trans (State.setSymbols_onlyBus ..)
    · split
      · exact ((s.setBytes_onlyBus _ _).trans (State.corrected_onlyBus ..)).trans (State.setSymbols_onlyBus ..)
      · exact s.uncorrectable_onlyBus w

theorem State.readWords_onlyBus (s : State) (fv : Nat) (ws : List Nat) : OnlyBus s (s.readWords fv ws).2 := by
  refine OnlyBus.foldl_snd (fun q w => ?_) ws ([], s)
  exact q.2.readWord_onlyBus fv w

theorem State.readRanges_onlyBus (s : State) (rs : List (Nat × Nat)) : OnlyBus s (s.readRanges rs).2 := by
  unfold State.readRanges
  split
  · exact .refl s
  · exact s.draw_onlyBus.trans (State.readWords_onlyBus ..)

theorem State.openRanges_onlyBus (s : State) (rs : List (Nat × Nat)) (whole : Nat → Bool) :
    OnlyBus s (s.openRanges rs whole).2 := by
  unfold State.openRanges
  split
  · exact .refl s
  · exact (s.draw_onlyBus.trans (OnlyBus.foldl (fun s w => s.setSymbols_onlyBus w 0) _ _)).trans (State.readWords_onlyBus ..)

theorem State.fetchBytes_onlyBus (s : State) (a n : Nat) : OnlyBus s (s.fetchBytes a n).2.2 := s.readRanges_onlyBus _

theorem State.putBytes_onlyBus (s : State) (ws : List Nat) (a : Nat) (bs : List Byte) : OnlyBus s (s.putBytes ws a bs) := by
  induction bs generalizing s a with
  | nil => exact .refl s
  | cons b r ih => exact (OnlyBus.ite (.refl s) (s.setByte_onlyBus a b)).trans (ih _ _)

theorem State.storeBytes_onlyBus (s : State) (a : Nat) (bs : List Byte) : OnlyBus s (s.storeBytes a bs) := by
  unfold State.storeBytes
  have h := s.openRanges_onlyBus [(a, bs.length)] (inOne [(a, bs.length)])
  split
  · next t e => rw [e] at h; exact h.trans (t.setBytes_onlyBus a bs)
  · next ws t _ e => rw [e] at h; exact h.trans (t.putBytes_onlyBus ws a bs)

theorem State.accViol_onlyBus (s : State) (i : Initiator) (a : Nat) : OnlyBus s (s.accViol i a) :=
  .ite (.refl s) ((s.modDreg_onlyBus _ _).trans (.ite (.refl _) rfl))

theorem State.groupWrite_onlyBus (s : State) (g a : Nat) (bs : List Byte) : OnlyBus s (s.groupWrite g a bs) :=
  .ite (s.modStage_onlyBus _ _) ((s.storeBytes_onlyBus a bs).trans (State.modStage_onlyBus ..))

theorem State.writeCtx_onlyBus (s : State) (g n : Nat) (r : RingCtx) (o k : Nat) : OnlyBus s (s.writeCtx g n r o k) :=
  s.groupWrite_onlyBus ..

theorem State.statusRecord_onlyBus (s : State) (c code : Nat) : OnlyBus s (s.statusRecord c code) :=
  .ite (.refl s) (s.groupWrite_onlyBus ..)

/-! ### Writes of a stage window -/

theorem State.stageRead_onlyBus (s : State) (i o : Nat) : OnlyBus s (s.stageRead i o).2 := by
  unfold State.stageRead
  dsimp only
  (repeat' split) <;> rfl

theorem State.noteUnbound_onlyBus (s : State) (as : List Nat) : OnlyBus s (s.noteUnbound as) := by
  refine OnlyBus.foldl (fun s a => ?_) as s
  split
  · exact s.stageRead_onlyBus ..
  · exact .refl s

theorem State.pressStart_onlyBus (s : State) (i : Nat) : OnlyBus s (s.pressStart i) :=
  .ite rfl (.ite rfl rfl)

theorem State.writeIdent_onlyBus (s : State) (ini : Initiator) (i o : Nat) (row : RegRow) (v mask : Word) :
    OnlyBus s (s.writeIdent ini i o row v mask) := by
  unfold State.writeIdent
  dsimp only
  (repeat' split) <;> rfl

theorem State.writeChord_onlyBus (s : State) (i q : Nat) (row : RegRow) (v mask : Word) :
    OnlyBus s (s.writeChord i q row v mask) := by
  unfold State.writeChord State.writeQiCfg
  dsimp only
  (repeat' split) <;> rfl

section
variable {abort : State → Nat → State} (ha : ∀ s i, OnlyBus s (abort s i))
include ha

theorem State.writePress_onlyBus (s : State) (i q : Nat) (row : RegRow) (v mask : Word) :
    OnlyBus s (s.writePress abort i q row v mask) :=
  .ite (.ite (ha s i) (.ite (s.pressStart_onlyBus i) (.refl s))) (.ite rfl rfl)

theorem State.writeReg_onlyBus (s : State) (ini : Initiator) (i o : Nat) (v mask : Word) :
    OnlyBus s (s.writeReg abort ini i o v mask) := by
  unfold State.writeReg
  split
  · exact .refl s
  · refine .ite (s.writeIdent_onlyBus ..) (.ite rfl (.ite rfl (.ite rfl (.ite rfl (.ite rfl ?_)))))
    exact .ite (s.writeChord_onlyBus ..) (.ite (s.writePress_onlyBus ha ..) rfl)

omit ha in
theorem State.mirror_onlyBus (s : State) (i b o : Nat) : OnlyBus s (s.mirror i b o) :=
  .ite (.refl s) (.ite rfl rfl)

theorem State.applyWrite_onlyBus (s : State) (ini : Initiator) (i o : Nat) (v mask : Word) :
    OnlyBus s (s.applyWrite abort ini i o v mask) := by
  unfold State.applyWrite
  extract_lets s1 s2 s3
  have h2 : OnlyBus s s2 := (s.modStage_onlyBus i _).trans (s1.writeReg_onlyBus ha ..)
  have h3 : OnlyBus s s3 := h2.trans (.ite (s2.modStage_onlyBus i _) (.refl s2))
  split
  · exact h3.trans (s3.mirror_onlyBus ..)
  · exact h3

theorem State.stageWriteWith_onlyBus (s : State) (ini : Initiator) (i o : Nat) (v mask : Word) :
    OnlyBus s (s.stageWriteWith abort ini i o v mask) :=
  .ite rfl (.ite rfl (.ite rfl (.ite rfl (s.applyWrite_onlyBus ha ..))))

end

theorem State.pressCut_onlyBus (s : State) (i : Nat) : OnlyBus s (s.pressCut i) := .ite rfl (.refl s)

theorem State.pressPut_onlyBus (s : State) (i : Nat) (drop : List Nat) (a sub b v : Nat) :
    OnlyBus s (s.pressPut i drop a sub b v) := by
  unfold State.pressPut
  split
  · exact s.stageWriteWith_onlyBus State.pressCut_onlyBus ..
  · exact .ite (.refl s) (.ite rfl (s.setBytes_onlyBus ..))

theorem State.pressPixels_onlyBus (s s0 : State) (i : Nat) (p : Press) (fv : Nat) (drop : List Nat) (y : Nat) (xs : List Nat) :
    OnlyBus s (s.pressPixels s0 i p fv drop y xs).1 := by
  induction xs generalizing s with
  | nil => exact .refl s
  | cons x r ih =>
    unfold State.pressPixels
    extract_lets sa d n
    split
    · exact .refl s
    · split
      · exact ih s
      · split
        · exact .refl s
        · exact ((s.pressPut_onlyBus ..).trans (.ite (.refl _) (State.modStage_onlyBus ..))).trans (ih _)

theorem State.pressPattern_onlyBus (s : State) (i : Nat) : OnlyBus s (s.pressPattern i) := by
  unfold State.pressPattern
  extract_lets p n
  split
  · exact .refl s
  · split
    · rfl
    · have h : OnlyBus s (if inWindow p.src then (([] : List Nat), s) else s.readRanges [(p.src, n)]).2 := by
        split
        · exact .refl s
        · exact s.readRanges_onlyBus _
      generalize (if inWindow p.src then (([] : List Nat), s) else s.readRanges [(p.src, n)]) = q at h ⊢
      exact h.trans (.ite rfl ((State.noteUnbound_onlyBus ..).trans rfl))

theorem State.pressSome_onlyBus (s : State) (i : Nat) (xs : List Nat) : OnlyBus s (s.pressSome i xs).1 := by
  unfold State.pressSome
  extract_lets p y
  have h1 : OnlyBus s (if p.loose then s.draw else (0, s)).2 := by split <;> rfl
  generalize (if p.loose then s.draw else (0, s)) = q1 at h1 ⊢
  obtain ⟨fv, s1⟩ := q1
  dsimp -zeta only
  extract_lets rd ys s3 ws
  have h2 : OnlyBus s1 s3 := (s1.readRanges_onlyBus _).trans (State.noteUnbound_onlyBus ..)
  have h3 := s3.openRanges_onlyBus (ws.map fun x => ((p.dstAt x y).1, pixelBytes p.bits)) fun w =>
    (List.range 32).all fun j => p.wholeByte y ws (w + j)
  generalize s3.openRanges (ws.map fun x => ((p.dstAt x y).1, pixelBytes p.bits)) (fun w =>
    (List.range 32).all fun j => p.wholeByte y ws (w + j)) = q3 at h3 ⊢
  obtain ⟨drop, s4⟩ := q3
  have h := ((h1.trans h2).trans h3).trans (s4.pressPixels_onlyBus s4 i p fv drop y ys)
  dsimp only at h ⊢
  split
  · next t e =>
    rw [e] at h
    split
    · exact h.trans rfl
    · exact h
  · next t a w e =>
    rw [e] at h
    exact h.trans rfl

theorem State.pressPart_onlyBus (s : State) (i k : Nat) : OnlyBus s (s.pressPart i k) := by
  unfold State.pressPart
  have h1 : OnlyBus s (if k = 0 then s else s.pressPattern i) := .ite (.refl s) (s.pressPattern_onlyBus i)
  extract_lets t
  have h2 : OnlyBus t (if (t.stage i).press.busy then t.pressSome i ((t.stage i).press.order.take k) else (t, false)).1 := by
    split
    · exact t.pressSome_onlyBus ..
    · exact .refl t
  exact (h1.trans h2).trans (.ite rfl (.refl _))

theorem State.pressAbort_onlyBus (s : State) (i : Nat) : OnlyBus s (s.pressAbort i) :=
  .ite (.refl s) (.ite rfl (s.draw_onlyBus.trans (State.pressPart_onlyBus ..)))

theorem State.stageWrite_onlyBus (s : State) (ini : Initiator) (i o : Nat) (v mask : Word) :
    OnlyBus s (s.stageWrite ini i o v mask) := s.stageWriteWith_onlyBus State.pressAbort_onlyBus ..

/-! ### What a descriptor can reach -/

theorem State.vineBlocked_onlyBus (s : State) (c a code : Nat) (write : Bool) : OnlyBus s (s.vineBlocked c a code write) :=
  .ite rfl (.ite (s.accViol_onlyBus ..) (.refl s))

theorem State.gather_onlyBus (s : State) (c : Nat) (d : List Word64) (n k : Nat) : OnlyBus s (s.gather c d n k).2.2.2 := by
  induction n generalizing s k with
  | zero => exact .refl s
  | succ n ih =>
    unfold State.gather
    extract_lets a code
    split
    · exact .refl s
    · split
      · exact .refl s
      · split
        · exact (s.stageRead_onlyBus ..).trans (ih _ _)
        · have h := s.readRanges_onlyBus [(a, 1)]
          generalize s.readRanges [(a, 1)] = q at h ⊢
          dsimp only
          split
          · exact h
          · exact h.trans (ih _ _)

theorem State.scatter_onlyBus (s : State) (c : Nat) (d : List Word64) (drop : List Nat) (n k : Nat) (bs : List Byte) :
    OnlyBus s (s.scatter c d drop n k bs).2.2.2 := by
  induction n generalizing s k bs with
  | zero => cases bs <;> exact .refl s
  | succ n ih =>
    cases bs with
    | nil => exact .refl s
    | cons b r =>
      unfold State.scatter
      extract_lets a code
      split
      · exact .refl s
      · split
        · split
          · exact .refl s
          · exact (s.stageWrite_onlyBus ..).trans (ih _ _ _)
        · split
          · exact ih _ _ _
          · exact ((s.setByte_onlyBus a b).trans (.ite (State.modStage_onlyBus ..) (.refl _))).trans (ih _ _ _)

theorem State.descData_onlyBus (s : State) (c : Nat) (d : List Word64) (asset : List Byte) :
    OnlyBus s (s.descData c d asset).2.2.2 := by
  unfold State.descData
  extract_lets total
  dsimp only
  split
  · exact s.draw_onlyBus
  · split
    · exact s.draw_onlyBus
    · exact s.draw_onlyBus.trans (State.gather_onlyBus ..)

theorem State.openDest_onlyBus (s : State) (c : Nat) (d : List Word64) (n : Nat) : OnlyBus s (s.openDest c d n).2 := by
  unfold State.openDest
  split
  · exact .refl s
  · exact s.openRanges_onlyBus _ _

theorem State.transfer_onlyBus (s : State) (c : Nat) (d : List Word64) (asset : List Byte) (limit : Nat) :
    OnlyBus s (s.transfer c d asset limit).2.2 := by
  unfold State.transfer
  split
  · exact .refl s
  · have h1 := s.descData_onlyBus c d asset
    generalize s.descData c d asset = q1 at h1 ⊢
    obtain ⟨bs, e1, a1, s1⟩ := q1
    dsimp only at h1 ⊢
    split
    · exact h1.trans (.ite (.refl s1) (s1.vineBlocked_onlyBus ..))
    · have h2 := s1.openDest_onlyBus c d (bs.take limit).length
      generalize s1.openDest c d (bs.take limit).length = q2 at h2 ⊢
      obtain ⟨drop, s2⟩ := q2
      dsimp only at h2 ⊢
      have h3 := s2.scatter_onlyBus c d drop limit 0 (bs.take limit)
      generalize s2.scatter c d drop limit 0 (bs.take limit) = q3 at h3 ⊢
      obtain ⟨n, e2, a2, s3⟩ := q3
      have h := (h1.trans h2).trans h3
      dsimp only at h ⊢
      split
      · exact h.trans (s3.vineBlocked_onlyBus ..)
      · split
        · exact h.trans (s3.vineBlocked_onlyBus ..)
        · exact h

end Sys2Proof.Machine

namespace Sys2Proof.Machine

/-! ### What the queue manager leaves alone -/

/-- Drive `d` as it was last changed. -/
theorem State.drive_modDrive (s : State) (d : Nat) (f : Drive → Drive) (j : Nat) :
    (s.modDrive d f).drive j = if d = j ∧ d < 2 then f (s.drive d) else s.drive j := by
  simp [State.drive, State.modDrive, vget_vset]

/-- The queue manager has gone on: only commands have moved, between the channels, the load engine and the drives. A channel keeps
all but its waiting commands, and a drive its state. -/
def QueueMoved (s t : State) : Prop :=
  t = { s with chans := t.chans, store := t.store, load := t.load } ∧
  (∀ c, t.chan c = { s.chan c with todo := (t.chan c).todo }) ∧
  ∀ d, (t.drive d).state = (s.drive d).state

theorem QueueMoved.refl (s : State) : QueueMoved s s := ⟨rfl, fun _ => rfl, fun _ => rfl⟩

theorem QueueMoved.trans {s t u : State} (h : QueueMoved s t) (g : QueueMoved t u) : QueueMoved s u := by
  obtain ⟨ht, hc, hd⟩ := h
  obtain ⟨gu, gc, gd⟩ := g
  refine ⟨?_, fun c => ?_, fun d => (gd d).trans (hd d)⟩
  · rw [ht] at gu; exact gu
  · rw [gc c, hc c]

theorem QueueMoved.pe {s t : State} (h : QueueMoved s t) : t.pe = s.pe := by rw [h.1]

theorem QueueMoved.mem {s t : State} (h : QueueMoved s t) : t.mem = s.mem := by rw [h.1]

theorem QueueMoved.dreg {s t : State} (h : QueueMoved s t) (a : Nat) : t.dreg a = s.dreg a := by rw [h.1]; rfl

/-- A branch moves commands if both sides do. -/
theorem QueueMoved.ite {s a b : State} {c : Prop} [Decidable c] (ha : QueueMoved s a) (hb : QueueMoved s b) :
    QueueMoved s (if c then a else b) := by
  split <;> assumption

/-- A fold moves commands if each round does. -/
theorem QueueMoved.foldl {α : Type} {g : State → α → State} (h : ∀ s a, QueueMoved s (g s a)) (l : List α) (s : State) :
    QueueMoved s (l.foldl g s) := by
  induction l generalizing s with
  | nil => exact .refl s
  | cons a r ih => exact (h s a).trans (ih _)

/-- What the store holds beside its drives is no matter of commands. -/
theorem queueMoved_of_drives {s t : State} (h : t = { s with store := t.store, load := t.load })
    (hd : t.store.drives = s.store.drives) : QueueMoved s t := by
  refine ⟨by rw [h], fun c => by rw [h]; rfl, fun d => ?_⟩
  simp only [State.drive, hd]

theorem State.putCmd_queueMoved (s : State) (d : Nat) (x : NvmeCmd) : QueueMoved s (s.putCmd d x) := by
  refine ⟨rfl, fun _ => rfl, fun j => ?_⟩
  rw [State.putCmd, State.drive_modDrive]
  split
  · next h => rw [h.1]
  · rfl

theorem State.setTodo_queueMoved (s : State) (c : Nat) (ps : List Piece) :
    QueueMoved s (s.setChan c { s.chan c with todo := ps }) := by
  refine ⟨rfl, fun k => ?_, fun _ => rfl⟩
  rw [State.chan_setChan]
  split
  · next h => rw [h]
  · rfl

theorem State.issueChan_queueMoved (s : State) (c n : Nat) : QueueMoved s (s.issueChan c n).2 := by
  induction n generalizing s with
  | zero => exact .refl s
  | succ n ih =>
    unfold State.issueChan
    split
    · exact .refl s
    · split
      · exact .refl s
      · split
        · exact .refl s
        · exact ((s.setTodo_queueMoved c _).trans (State.putCmd_queueMoved ..)).trans (ih _)

theorem State.issueLine_queueMoved (s : State) (shut l : List Nat) : QueueMoved s (s.issueLine shut l) := by
  induction l generalizing s shut with
  | nil => exact .refl s
  | cons c r ih => exact .ite (ih _ _) ((s.issueChan_queueMoved c _).trans (ih _ _))

theorem State.issueAll_queueMoved (s : State) : QueueMoved s s.issueAll :=
  (s.issueLine_queueMoved [] s.store.line).trans (queueMoved_of_drives rfl rfl)

theorem State.ldgKick_queueMoved (s : State) : QueueMoved s s.ldgKick :=
  .ite (.refl s) ((queueMoved_of_drives rfl rfl).trans (State.putCmd_queueMoved ..))

theorem State.loadGo_queueMoved (s : State) : QueueMoved s s.loadGo := by
  unfold State.loadGo
  split
  · exact .refl s
  · exact .ite (.refl s) ((queueMoved_of_drives rfl rfl).trans (State.putCmd_queueMoved ..))

theorem State.pfwCheck_queueMoved (s : State) : QueueMoved s s.pfwCheck :=
  .ite ((queueMoved_of_drives rfl rfl).trans (.foldl (fun s d => s.putCmd_queueMoved d _) _ _)) (.refl s)

theorem State.modeFlush_queueMoved (s : State) : QueueMoved s s.modeFlush :=
  .ite ((queueMoved_of_drives rfl rfl).trans (.foldl (fun s d => s.putCmd_queueMoved d _) _ _)) (.refl s)

theorem State.storeGo_queueMoved (s : State) : QueueMoved s s.storeGo :=
  (((s.ldgKick_queueMoved.trans (State.issueAll_queueMoved _)).trans (State.loadGo_queueMoved _)).trans
    (State.pfwCheck_queueMoved _)).trans (State.modeFlush_queueMoved _)

/-! ### How a channel stops -/

/-- What ends a ring's entry reaches besides the ring contexts is what a write of memory reaches. -/
theorem State.endEntry_onlyBus (s : State) (g n code : Nat) : ∃ rings, OnlyBus { s with rings := rings } (s.endEntry g n code) := by
  unfold State.endEntry
  extract_lets r0 r t
  have h : OnlyBus (s.setRing g n r) t := State.writeCtx_onlyBus ..
  split
  · refine ⟨(t.dropRing g n).rings, ?_⟩
    unfold OnlyBus at h
    rw [h]; rfl
  · exact ⟨(s.setRing g n r).rings, h⟩

@[simp] theorem State.chan_endEntry (s : State) (g n code k : Nat) : (s.endEntry g n code).chan k = s.chan k := by
  obtain ⟨rings, h⟩ := s.endEntry_onlyBus g n code
  simp only [State.chan, h.chans]

@[simp] theorem State.chan_statusRecord (s : State) (c code k : Nat) : (s.statusRecord c code).chan k = s.chan k := by
  simp only [State.chan, (s.statusRecord_onlyBus c code).chans]

@[simp] theorem State.chan_chanFlag (s : State) (c i k : Nat) : (s.chanFlag c i).chan k = s.chan k := rfl

theorem State.chan_dropCmds (s : State) (c k : Nat) :
    (s.dropCmds c).chan k = if k = c then { s.chan c with todo := [] } else s.chan k :=
  State.chan_setChan ..

/-- Channel `c` as a stop with `code` leaves it. -/
def VChan.stopped (v : VChan) (code written : Nat) : VChan :=
  { v with todo := [], code := code, resid := wd (if v.busy then descTotal v.desc - written else 0), run := false, busy := false
           next := none }

/-- A stop changes its own channel and no other. -/
theorem State.chan_stopChan (s : State) (c code written k : Nat) :
    (s.stopChan c code written).chan k = if k = c then (s.chan c).stopped code written else s.chan k := by
  have hv : (s.dropCmds c).chan c = { s.chan c with todo := [] } := by simp [State.chan_dropCmds]
  unfold State.stopChan
  extract_lets t v resid t1 t2
  have h1 : t1.chan k = if k = c then (s.chan c).stopped code written else s.chan k := by
    simp only [t1, State.chan_statusRecord, State.chan_setChan]
    split
    · simp only [resid, v, t, hv, VChan.stopped]
    · next hk => simp only [t, State.chan_dropCmds, if_neg hk]
  have h2 : t2.chan k = t1.chan k := by
    simp only [t2]
    split <;> simp
  split
  · rw [h2, h1]
  · rw [State.chan_chanFlag, h2, h1]

/-- A stop with a code other than OK sets ABORTED or ERR (R338). -/
theorem State.bit_stopChan (s : State) (c code written : Nat) (h : code ≠ 0) :
    bit ((s.stopChan c code written).dreg (chanReg c 0x18)) (if code = 1 then 2 else 1) = true := by
  unfold State.stopChan
  extract_lets t v resid t1 t2
  rw [if_neg h, State.chanFlag, State.modDreg, State.dreg_setDreg, if_pos rfl, bit_setBit]
  exact if_pos ⟨rfl, by split <;> decide⟩

/-- An abort of a running channel ends with its stop. -/
theorem State.abortChan_eq_stopChan (s : State) (c : Nat) (h : (s.chan c).run = true) :
    ∃ t code n, s.abortChan c = State.stopChan t c code n := by
  unfold State.abortChan State.abortLast State.cutDesc
  extract_lets v
  rw [if_neg (by simp [v, h])]
  dsimp only
  (repeat' split) <;> exact ⟨_, _, _, rfl⟩

theorem State.abortChan_of_stopped (s : State) {c : Nat} (h : (s.chan c).run = false) : s.abortChan c = s := by
  simp [State.abortChan, h]

theorem State.abortChan_of_idle (s : State) {c : Nat} (h : (s.chan c).run = true) (hb : (s.chan c).busy = false) :
    s.abortChan c = s.stopChan c 1 0 := by
  simp [State.abortChan, h, hb]

/-! ### START of a direct channel -/

/-- A descriptor never ends with code 1, which is ABORT's. -/
theorem State.descCode_ne_one (s : State) (c : Nat) (d : List Word64) : s.descCode c d ≠ 1 := by
  unfold State.descCode State.assetCode
  dsimp only
  (repeat' split) <;> decide

/-- What is put under a key is what the key's removal takes away. -/
theorem filter_sput {α : Type} {m : Sparse α} {k : Nat} (v : α) (h : ∀ e ∈ m, e.1 ≠ k) :
    (sput m k v).filter (fun e => e.1 != k) = m := by
  induction m with
  | nil => simp [sput]
  | cons e r ih =>
    have he : e.1 ≠ k := h e (by simp)
    have hr : ∀ x ∈ r, x.1 ≠ k := fun x hx => h x (by simp [hx])
    simp only [sput]
    split
    · simp [he, ih hr]
    · simpa [he] using hr

/-- Of two values set under a key the later one stands. -/
theorem sset_sset {α : Type} [DecidableEq α] (d : Nat → α) (m : Sparse α) (k : Nat) (x y : α) :
    sset d (sset d m k x) k y = sset d m k y := by
  have h : (sset d m k x).filter (fun e => e.1 != k) = m.filter (fun e => e.1 != k) := by
    unfold sset
    dsimp only
    split
    · simp [List.filter_filter]
    · exact filter_sput x fun e he => by simpa using (List.mem_filter.1 he).2
  rw [sset, h, sset]

theorem State.setChan_setChan (s : State) (c : Nat) (x y : VChan) : (s.setChan c x).setChan c y = s.setChan c y := by
  simp only [State.setChan, sset_sset]

/-- Undamaged words are read as they stand. -/
theorem State.fetchBytes_undamaged {s : State} {a n : Nat} (h : s.damaged [(a, n)] = []) :
    s.fetchBytes a n = (s.bytes a n, false, s) := by
  simp [State.fetchBytes, State.readRanges, h]

/-- A channel reads memory of its stage's segments, and that of group 4 any memory (R91, R326). -/
theorem State.groupRead_undamaged {s : State} {c a n : Nat} (hseg : c < 56 → (s.stage (c / 14)).inSegs a n = true)
    (hd : s.damaged [(a, n)] = []) : s.groupRead (chanGroup c) a n = (s.bytes a n, false, s) := by
  have hin : (decide (chanGroup c < 4) && !(s.stage (chanGroup c)).inSegs a n) = false := by
    by_cases hc : c < 56 <;> simp [chanGroup, hc, hseg]
  rw [State.groupRead, hin, if_neg (by simp), State.fetchBytes_undamaged hd]

/-- Channel `v` with the descriptor `d`, fetched at `a`, in progress. -/
def VChan.begun (v : VChan) (a : Nat) (ring : Option (Nat × Nat)) (d : List Word64) : VChan :=
  { v with cur := a, busy := true, ring := ring, next := none, desc := d }

/-- A descriptor that the channel can read is in progress, and starts or ends with the code of an invalid one (R324). -/
theorem State.beginDesc_undamaged {s : State} {c a : Nat} (ring : Option (Nat × Nat)) (h0 : s.isMem a = true)
    (h31 : s.isMem (a + 31) = true) (hseg : c < 56 → (s.stage (c / 14)).inSegs a 32 = true) (hd : s.damaged [(a, 32)] = []) :
    s.beginDesc c a ring =
      if s.descCode c (words64 (s.bytes a 32)) = 0 then
        (s.setChan c ((s.chan c).begun a ring (words64 (s.bytes a 32)))).startStore c
      else (s.setChan c ((s.chan c).begun a ring (words64 (s.bytes a 32)))).stopChan c (s.descCode c (words64 (s.bytes a 32))) 0 := by
  have hin : (decide (4 ≤ chanGroup c) || (s.stage (chanGroup c)).inSegs a 32) = true := by
    by_cases hc : c < 56 <;> simp [chanGroup, hc, hseg]
  unfold State.beginDesc
  simp only [h0, h31, Bool.and_self, if_true, State.groupRead_undamaged hseg hd, hin, Bool.not_true, Bool.false_eq_true, if_false]
  rfl

/-- A valid descriptor that moves no asset blocks and commits none waits for its bytes alone (R324, R341). -/
theorem State.startStore_plain {s : State} {c : Nat} (hop : descOp (s.chan c).desc ≠ 3) (hside : assetSide (s.chan c).desc = none) :
    s.startStore c = s := by
  simp [State.startStore, hop, hside]

/-- START of a stopped direct channel that can read the descriptor at `CHAN_DESC`: it is in progress, and starts or ends with the
code of an invalid one (R324, R338). -/
theorem State.startChan_direct {s : State} {c a : Nat} {d : List Word64}
    (ha : a = base40 (s.dreg (chanReg c 8)) (s.dreg (chanReg c 0xC))) (hd : d = words64 (s.bytes a 32))
    (hrun : (s.chan c).run = false) (hpark : (s.chan c).park = false) (hring : s.ringMode c = false) (h0 : s.isMem a = true)
    (h31 : s.isMem (a + 31) = true) (hseg : c < 56 → (s.stage (c / 14)).inSegs a 32 = true) (herr : s.damaged [(a, 32)] = []) :
    let t := s.setChan c (VChan.begun { s.chan c with run := true } a none d)
    s.startChan c = if s.descCode c d = 0 then t.startStore c else t.stopChan c (s.descCode c d) 0 := by
  subst hd ha
  have hmode (x : VChan) : (s.setChan c x).ringMode c = false := hring
  have hbegin (x : VChan) := State.beginDesc_undamaged (s := s.setChan c x) none h0 h31 hseg herr
  simp only [State.startChan, hrun, hpark, hmode, Bool.false_eq_true, if_false]
  refine (hbegin _).trans ?_
  rw [State.chan_setChan, if_pos rfl, State.setChan_setChan]
  rfl

/-- A Vine register is written by who may reach it. -/
theorem State.vineWrite_of_may (s : State) (i : Initiator) (a : Nat) (f : State → State) : s.vineWrite i true a f = f s := if_pos rfl

/-- A write of a Vine register by who may not reach it is a violation, but for the host's (R12, R321). -/
theorem State.vineWrite_refused (s : State) {i : Initiator} (a : Nat) (f : State → State) (h : ∀ p, i ≠ .host p) :
    s.vineWrite i false a f = s.accViol i a := by
  unfold State.vineWrite
  rw [if_neg (by simp)]
  split
  · next p => exact absurd rfl (h p)
  · rfl

theorem base40_eq (lo hi : Word) : base40 lo hi = lo.toNat + 2 ^ 32 * (hi.toNat % 2 ^ 8) := by
  simp [base40, fld]

/-- Settles O45: START is `beginDesc` of the descriptor at `CHAN_DESC`, and every ABORT of a running channel ends with its stop. -/
theorem channelsStartAndStop : Obligations.ChannelsStartAndStop := by
  intro ini c s hc
  have hstart : exec (.chanStart ini c) s = .next (s.vineWrite ini (s.mayChan ini c) (chanReg c 4) (·.startChan c)) := rfl
  have habort : exec (.chanAbort ini c) s =
    .next (s.vineWrite ini (s.mayChan ini c) (chanReg c 4) fun s => (s.abortChan c).storeGo) := rfl
  rw [hstart, habort]
  refine ⟨fun hmay => ?_, fun hmay hhost => ?_⟩
  · rw [hmay, State.vineWrite_of_may, State.vineWrite_of_may]
    intro v a d
    have hq := (s.abortChan c).storeGo_queueMoved
    refine ⟨fun hrun => ?_, fun hrun hpark hring h0 h31 hseg herr => ?_, fun hrun => ?_, fun hrun => ?_⟩
    · rw [State.startChan, if_pos hrun]
    · have hbegin := State.startChan_direct (a := a) (d := d) (base40_eq _ _).symm rfl hrun hpark hring h0 h31 hseg herr
      generalize hw : VChan.begun { s.chan c with run := true } a none d = w at hbegin
      have hdesc : (s.setChan c w).chan c = w := by simp [State.chan_setChan]
      refine ⟨fun hcode hop hside => ?_, fun hcode => ⟨_, rfl, ?_⟩⟩
      · rw [hbegin, if_pos hcode, State.startStore_plain (by rwa [hdesc, ← hw]) (by rwa [hdesc, ← hw]), ← hw]
        rfl
      · have hflag := (s.setChan c w).bit_stopChan c (s.descCode c d) 0 hcode
        rw [if_neg (s.descCode_ne_one c d)] at hflag
        rw [hbegin, if_neg hcode]
        simp only [State.chan_stopChan, hdesc, if_true, VChan.stopped, true_and]
        refine ⟨by rw [← hw]; rfl, hflag, fun k hk => ?_⟩
        rw [if_neg hk, State.chan_setChan, if_neg hk]
    · obtain ⟨t, code, n, ht⟩ := s.abortChan_eq_stopChan c hrun
      have hstopped : (s.abortChan c).chan c = (t.chan c).stopped code n := by rw [ht, State.chan_stopChan, if_pos rfl]
      refine ⟨_, rfl, ?_, ?_, fun hbusy => ?_⟩
      · rw [hq.2.1 c, hstopped]; rfl
      · rw [hq.2.1 c, hstopped]; rfl
      · have hbusy : (s.chan c).busy = false := hbusy
        rw [hq.2.1 c, hq.dreg, s.abortChan_of_idle hrun hbusy, State.chan_stopChan, if_pos rfl]
        exact ⟨rfl, by simp [VChan.stopped, hbusy, wd], s.bit_stopChan c 1 0 (by decide)⟩
    · rw [s.abortChan_of_stopped hrun] at hq ⊢
      exact ⟨_, rfl, hq.2.1 c, hq.mem⟩
  · rw [hmay, State.vineWrite_refused s _ _ hhost, State.vineWrite_refused s _ _ hhost]
    exact ⟨rfl, rfl⟩

end Sys2Proof.Machine

namespace Sys2Proof.Machine

/-! ### Bytes and words in memory -/

theorem leBytes_length (v n : Nat) : (leBytes v n).length = n := by
  induction n generalizing v with
  | zero => rfl
  | succ n ih => simp [leBytes, ih]

/-- Little-endian bytes spell the value, as far as they reach (R6). -/
theorem leNat_leBytes (v n : Nat) : leNat (leBytes v n) = v % 256 ^ n := by
  induction n generalizing v with
  | zero => simp [leBytes, leNat, Nat.mod_one]
  | succ n ih =>
    have h := Nat.mod_mul (x := v) (a := 256) (b := 256 ^ n)
    rw [Nat.pow_succ', h, leBytes, leNat, ih, BitVec.toNat_ofNat]

/-- Bytes stored are read back. -/
theorem State.bytes_setBytes (s : State) (a : Nat) (bs : List Byte) : (s.setBytes a bs).bytes a bs.length = bs := by
  induction bs generalizing s a with
  | nil => rfl
  | cons b r ih =>
    simp only [State.setBytes, List.length_cons, State.bytes, ih]
    rw [State.byte_setBytes_outside a (by omega), State.byte_setByte, if_pos rfl]

/-- A store of bytes changes memory alone. -/
theorem State.setBytes_eq (s : State) (a : Nat) (bs : List Byte) :
    s.setBytes a bs = { s with mem := (s.setBytes a bs).mem } := by
  induction bs generalizing s a with
  | nil => rfl
  | cons b r ih => exact ih (s.setByte a b) (a + 1)

/-- A write to undamaged words opens them as they stand. -/
theorem State.openRanges_undamaged {s : State} {rs : List (Nat × Nat)} (whole : Nat → Bool) (h : s.damaged rs = []) :
    s.openRanges rs whole = ([], s) := by
  simp [State.openRanges, h]

/-- A whole word written to undamaged memory stores its four bytes (R9, R79). -/
theorem State.memWord_undamaged {s : State} {a : Nat} (v : Word) (h : s.damaged [(a, 4)] = []) :
    s.memWord a v 0xFFFFFFFF = s.setBytes a (leBytes v.toNat 4) := by
  have hmod (n : Nat) : BitVec.ofNat 8 (n % 256) = BitVec.ofNat 8 n := BitVec.eq_of_toNat_eq (by simp)
  unfold State.memWord
  rw [State.openRanges_undamaged _ h]
  simp [List.range_succ, bit, leBytes, State.setBytes, fld, Nat.div_div_eq_div_mul, hmod, Nat.add_assoc]

/-- A bit of a merged word comes from the new word where the mask has it. -/
theorem bit_merged (mask old v : Word) (j : Nat) :
    bit (merged mask old v) j = if mask.getLsbD j then bit v j else bit old j := by
  by_cases hj : j < 32
  · simp only [bit, merged, BitVec.getLsbD_or, BitVec.getLsbD_and, BitVec.getLsbD_not, hj, decide_true, Bool.true_and]
    cases mask.getLsbD j <;> simp
  · simp [bit, merged, BitVec.getLsbD_of_ge _ _ (Nat.le_of_not_lt hj)]

/-! ### Where a register write goes -/

/-- No memory lies from 0x08000000 up to the LP5X (R36). -/
theorem State.isMem_eq_false (s : State) {a : Nat} (h0 : 0x8000000 ≤ a) (h1 : a < 0x100000000) : s.isMem a = false := by
  simp [State.isMem, isOrchard, State.isLpx, Nat.not_lt.2 h0, Nat.not_le.2 h1]

/-- A Warden's write of an aligned word: to an assigned address, or none (R36, R37). -/
theorem execRegisterWrite_warden (s : State) (w a : Nat) (v : Word) (ha : a % 4 = 0) :
    exec (.registerWrite (.warden w) a v) s =
      if s.assigned a then .next (s.busWrite (.warden w) a v 0xFFFFFFFF) else .fault .unassignedAddress := by
  have h4 : a / 4 * 4 = a := by omega
  change execRegisterWrite (.warden w) a v s = _
  simp [execRegisterWrite, h4, State.wardenMay]

/-- A write of an aligned word by a Pip (R36). -/
theorem execRegisterWrite_pip (s : State) (k a : Nat) (v : Word) (ha : a % 4 = 0) :
    exec (.registerWrite (.pip k) a v) s = .next (s.busWrite (.pip k) a v 0xFFFFFFFF) := by
  have h4 : a / 4 * 4 = a := by omega
  change execRegisterWrite (.pip k) a v s = _
  simp [execRegisterWrite, h4]

/-- A Warden's write of a register of the management block that keeps its row and has no command (R9). -/
theorem State.mgmtWrite_plain (s : State) (ini : Initiator) {a : Nat} {row : RegRow} (v mask : Word)
    (hrow : deviceRow a = some row) (hp : row.pair = .plain) (h0 : 0x10000000 ≤ a)
    (hpe : a < 0x1000A100 ∨ 0x1000B800 ≤ a) (hhb : a ≠ 0x10000104) (hfp : a ≠ 0x10006000) :
    s.mgmtWrite ini a v mask = s.setDreg a (row.write (s.dreg a) v mask) := by
  have hplain : s.plainWrite a v mask = s.setDreg a (row.write (s.dreg a) v mask) := by
    simp [State.plainWrite, hrow, hp]
  unfold State.mgmtWrite
  extract_lets o cmd
  rw [if_neg (by omega), if_neg (by omega), if_neg (by omega), if_neg (by omega), hplain]

/-! ### STAGE_GO -/

/-- The stage after a write of `STAGE_GO`: the outputs it owns take the bits written (R426). -/
def Stage.goWritten (st : Stage) (v : Word) : Stage := st.modReg 0x500 fun w => merged (0xFFFFFFFF &&& st.goOwn) w v

theorem Stage.bit_goWritten (st : Stage) (v : Word) (b : Nat) :
    bit ((st.goWritten v).reg 0x500) b = if st.goOwn.getLsbD b then bit v b else bit (st.reg 0x500) b := by
  have hall : (0xFFFFFFFF : Word) = BitVec.allOnes 32 := by decide
  rw [Stage.goWritten, Stage.modReg, Stage.reg_setReg, if_pos rfl, bit_merged, hall, BitVec.allOnes_and]

theorem State.writeReg_stageGo (s : State) (abort : State → Nat → State) (ini : Initiator) (i : Nat) (v : Word) :
    s.writeReg abort ini i 0x500 v 0xFFFFFFFF = s.modStage i (·.goWritten v) := by
  have hrow : stageRow 0x500 = some ⟨"STAGE_GO", 0x500, 1, 4, 0xFFFFFFFF, 0, 0, 0, 0, 0, .plain⟩ := by decide
  simp [State.writeReg, hrow, State.writeIdent, Stage.goWritten]

/-- A watch that fires leaves `STAGE_GO` alone (R192). -/
theorem Stage.watchReg_stageGo (st : Stage) (o : Nat) : (st.watchReg o).reg 0x500 = st.reg 0x500 := by
  unfold Stage.watchReg
  split
  · simp [Stage.fireWatch, Stage.modReg, Stage.reg_setReg, prismBase]
    rfl
  · rfl

theorem State.stage_modStage (s : State) (i : Nat) (f : Stage → Stage) (j : Nat) :
    (s.modStage i f).stage j = if i = j ∧ i < 4 then f (s.stage i) else s.stage j := s.stage_setStage ..

/-- `STAGE_GO` is a register of no unit: a write of it that meets no flip and no Chord write takes effect in its stage at once, and
nowhere else. -/
theorem State.stageWrite_stageGo (s : State) (ini : Initiator) {i : Nat} (v : Word) (hi : i < 4)
    (hflip : (s.stage i).chord.flips = []) (harr : (s.stage i).chord.arrived = []) :
    let t := s.stageWrite ini i 0x500 v 0xFFFFFFFF
    (t.stage i).reg 0x500 = ((s.stage i).goWritten v).reg 0x500 ∧ (∀ j, j ≠ i → t.stage j = s.stage j) ∧ t.mem = s.mem := by
  have hunit (st : Stage) : st.unitOf 0x500 = none := rfl
  have hbound (st : Stage) : st.unboundAt 0x500 = false := rfl
  have hnote (st : Stage) : st.noteWrite ini 0x500 = st := by simp [Stage.noteWrite, isFlipReg, isClass0, prismBase]
  have happly : s.stageWrite ini i 0x500 v 0xFFFFFFFF = s.applyWrite State.pressAbort ini i 0x500 v 0xFFFFFFFF := by
    simp [State.stageWrite, State.stageWriteWith, hbound, hunit, hflip, harr]
  intro t
  simp only [t, happly, State.applyWrite, hunit, hnote, State.writeReg_stageGo]
  split
  · simp +contextual [State.stage_modStage, hi, Stage.watchReg_stageGo, Ne.symm]
  · simp +contextual [State.stage_modStage, hi, Ne.symm]

/-- Settles O60: each write is traced to the one store its address selects, and a write of STAGE_GO to its stage. -/
theorem registerWritesFollowTheMap : Obligations.RegisterWritesFollowTheMap := by
  intro a v s ha
  refine ⟨fun w => ⟨fun hun => ?_, fun hm hd => ?_, fun row h0 h1 hrow hp hpe hhb hfp => ?_⟩, fun hdbg => ?_, fun k h0 h1 hm => ?_,
    fun k i hm hk hseg => ?_, fun ini i hi hflip harr => ⟨fun hmay => ?_, fun hmay => ?_⟩⟩
  · rw [execRegisterWrite_warden s w a v ha, hun]; rfl
  · have hbus : s.busWrite (.warden w) a v 0xFFFFFFFF = s.setBytes a (leBytes v.toNat 4) := by
      simp only [State.busWrite, hm, State.initStage, State.wardenMay, if_true, State.memWord_undamaged v hd]
    rw [execRegisterWrite_warden s w a v ha, State.assigned, hm, Bool.true_or, Bool.true_or, if_pos rfl, hbus]
    have hle := s.bytes_setBytes a (leBytes v.toNat 4)
    rw [leBytes_length] at hle
    refine ⟨_, rfl, s.setBytes_eq .., ?_, fun b hb => State.byte_setBytes_outside b (by rwa [leBytes_length])⟩
    rw [State.le, hle, leNat_leBytes]
    exact Nat.mod_eq_of_lt v.isLt
  · have hbus : s.busWrite (.warden w) a v 0xFFFFFFFF = s.setDreg a (row.write (s.dreg a) v 0xFFFFFFFF) := by
      unfold State.busWrite
      rw [s.isMem_eq_false (by omega) (by omega), if_neg (by simp), if_neg (by omega), if_pos h1]
      change (if s.wardenMay (.warden w) = true then s.mgmtWrite (.warden w) a v 0xFFFFFFFF else _) = _
      exact (if_pos rfl).trans <| s.mgmtWrite_plain _ v _ hrow hp h0 hpe hhb hfp
    have has : s.assigned a = true := by simp [State.assigned, h0, show a < 0x14000000 by omega]
    rw [execRegisterWrite_warden s w a v ha, has, if_pos rfl, hbus]
    exact ⟨_, rfl, rfl, by rw [State.dreg_setDreg, if_pos rfl], fun b hb => by rw [State.dreg_setDreg, if_neg hb]⟩
  · change execRegisterWrite .debug a v s = _
    simp [execRegisterWrite, State.wardenMay, hdbg]
  · rw [execRegisterWrite_pip s k a v ha]
    unfold State.busWrite
    rw [hm, if_neg (by simp), if_neg (by omega)]
    simp only [if_pos h1, State.wardenMay, Bool.false_eq_true, if_false, ite_self]
  · rw [execRegisterWrite_pip s k a v ha]
    simp [State.busWrite, hm, hk, hseg]
  · obtain ⟨hgo, hother, hmem⟩ := s.stageWrite_stageGo ini v hi hflip harr
    refine ⟨s.stageWrite ini i 0x500 v 0xFFFFFFFF, ?_, fun b hb => ?_, hother, hmem⟩
    · change execStageGo ini i v s = _
      rw [execStageGo, State.windowWrite, if_pos hmay]
    · rw [hgo, Stage.bit_goWritten]
  · change execStageGo ini i v s = _
    rw [execStageGo, State.windowWrite, hmay, if_neg (by simp)]
    congr 2
    omega

end Sys2Proof.Machine

namespace Sys2Proof.Machine

/-! ### What leaves the links and the drives' states alone -/

/-- PCIe port `p` as it was last set. -/
theorem State.pep_setPe (s : State) (p : Nat) (x : PePort) (q : Nat) :
    (s.setPe p x).pep q = if p = q ∧ p < 2 then x else s.pep q := by
  simp [State.pep, State.setPe, vget_vset]

/-- Every PCIe port keeps its link state, and every drive its state. -/
def LinksKept (s t : State) : Prop :=
  (∀ p, (t.pep p).status = (s.pep p).status) ∧ ∀ d, (t.drive d).state = (s.drive d).state

theorem LinksKept.refl (s : State) : LinksKept s s := ⟨fun _ => rfl, fun _ => rfl⟩

theorem LinksKept.trans {s t u : State} (h : LinksKept s t) (g : LinksKept t u) : LinksKept s u :=
  ⟨fun p => (g.1 p).trans (h.1 p), fun d => (g.2 d).trans (h.2 d)⟩

/-- Ports and store left alone keep link states and drive states. -/
theorem linksKept_of_same {s t : State} (hp : t.pe = s.pe) (hs : t.store.drives = s.store.drives) : LinksKept s t := by
  constructor <;> intro k
  · simp only [State.pep, hp]
  · simp only [State.drive, hs]

theorem OnlyBus.linksKept {s t : State} (h : OnlyBus s t) : LinksKept s t := by
  unfold OnlyBus at h
  exact linksKept_of_same (by rw [h]) (by rw [h])

theorem QueueMoved.linksKept {s t : State} (h : QueueMoved s t) : LinksKept s t :=
  ⟨fun p => by simp only [State.pep, h.pe], h.2.2⟩

/-- A branch keeps what both sides keep. -/
theorem LinksKept.ite {s a b : State} {c : Prop} [Decidable c] (ha : LinksKept s a) (hb : LinksKept s b) :
    LinksKept s (if c then a else b) := by
  split <;> assumption

/-- A fold keeps what each round keeps. -/
theorem LinksKept.foldl {α : Type} {g : State → α → State} (h : ∀ s a, LinksKept s (g s a)) (l : List α) (s : State) :
    LinksKept s (l.foldl g s) := by
  induction l generalizing s with
  | nil => exact .refl s
  | cons a r ih => exact (h s a).trans (ih _)

/-- What the drives have out is no matter of their states. -/
theorem State.modDriveOut_linksKept (s : State) (d : Nat) (f : Drive → List NvmeCmd) :
    LinksKept s (s.modDrive d fun v => { v with out := f v }) := by
  refine ⟨fun _ => rfl, fun j => ?_⟩
  rw [State.drive_modDrive]
  split
  · next h => rw [h.1]
  · rfl

/-! ### The vectors of the host targets -/

/-- Only the vectors of the PCIe ports changed: what goes out to the host of deliverable sources (R313). -/
def OnlyVectors (s t : State) : Prop :=
  t = { s with pe := t.pe } ∧ ∀ p, (t.pep p).status = (s.pep p).status ∧ (t.pep p).trained = (s.pep p).trained

theorem OnlyVectors.refl (s : State) : OnlyVectors s s := ⟨rfl, fun _ => ⟨rfl, rfl⟩⟩

theorem OnlyVectors.trans {s t u : State} (h : OnlyVectors s t) (g : OnlyVectors t u) : OnlyVectors s u := by
  obtain ⟨ht, hp⟩ := h
  obtain ⟨gu, gp⟩ := g
  refine ⟨?_, fun p => ⟨(gp p).1.trans (hp p).1, (gp p).2.trans (hp p).2⟩⟩
  rw [ht] at gu; exact gu

theorem OnlyVectors.linksKept {s t : State} (h : OnlyVectors s t) : LinksKept s t :=
  ⟨fun p => (h.2 p).1, fun d => by rw [h.1]; rfl⟩

theorem OnlyVectors.dreg {s t : State} (h : OnlyVectors s t) (a : Nat) : t.dreg a = s.dreg a := by rw [h.1]; rfl

theorem PePort.send_status (e : PePort) (p : Nat) : (e.send p).status = e.status ∧ (e.send p).trained = e.trained := by
  unfold PePort.send
  split <;> exact ⟨rfl, rfl⟩

theorem State.hostSync_onlyVectors (s : State) (h : Nat) (claimed : Option Nat) : OnlyVectors s (s.hostSync h claimed) := by
  unfold State.hostSync
  extract_lets ds
  clear_value ds
  generalize List.range 8 = l
  induction l generalizing s with
  | nil => exact .refl s
  | cons p r ih =>
    refine OnlyVectors.trans ⟨rfl, fun q => ?_⟩ (ih _)
    simp only [State.pep, vget_vset]
    split
    · next hq =>
      obtain ⟨rfl, _⟩ := hq
      split
      · exact PePort.send_status _ p
      · exact ⟨rfl, rfl⟩
    · exact ⟨rfl, rfl⟩

theorem State.hostSyncAll_onlyVectors (s : State) : OnlyVectors s s.hostSyncAll :=
  (s.hostSync_onlyVectors 0 none).trans (State.hostSync_onlyVectors ..)

theorem State.setIrq_linksKept (s : State) (n : Nat) (q : Irq) : LinksKept s (s.setIrq n q) := linksKept_of_same rfl rfl

theorem State.pulse_linksKept (s : State) (n : Nat) : LinksKept s (s.pulse n) := by
  unfold State.pulse State.hostStep
  exact (s.hostSyncAll_onlyVectors.linksKept.trans (State.setIrq_linksKept ..)).trans (State.hostSyncAll_onlyVectors _).linksKept

/-! ### A load that fails -/

theorem State.dropReads_linksKept (s : State) : LinksKept s s.dropReads := by
  refine ⟨fun _ => rfl, fun d => ?_⟩
  simp only [State.drive, State.dropReads, vget, Vector.getElem?_map]
  cases s.store.drives[d]? <;> rfl

theorem State.setLoad_linksKept (s : State) (l : Load) : LinksKept s { s with load := l } := linksKept_of_same rfl rfl

theorem State.askReads_linksKept (s : State) (runs : List (Nat × Nat)) : LinksKept s (s.askReads runs) :=
  (s.dropReads_linksKept.trans (State.setLoad_linksKept ..)).trans (State.loadGo_queueMoved _).linksKept

theorem State.takeSource_linksKept (s : State) (x : Nat) : LinksKept s (s.takeSource x) :=
  (s.setLoad_linksKept _).trans (State.askReads_linksKept ..)

theorem State.nextSource_linksKept (n : Nat) (s : State) : LinksKept s (State.nextSource n s) := by
  induction n generalizing s with
  | zero => exact .refl s
  | succ n ih =>
    have htake (t : State) (x : Nat) (h : LinksKept s t) : LinksKept s (t.takeSource x) := h.trans (t.takeSource_linksKept x)
    have hnext (t : State) (h : LinksKept s t) : LinksKept s (State.nextSource n t) := h.trans (ih t)
    have hsame := s.setLoad_linksKept
    unfold State.nextSource
    dsimp only
    split
    · exact .ite (htake _ _ (.refl s)) (.ite (htake _ _ (.refl s)) (linksKept_of_same rfl rfl))
    · split
      · exact .ite (htake _ _ (hsame _)) (.ite (hsame _) (hnext _ (hsame _)))
      · exact .ite (htake _ _ (hsame _)) (.ite (htake _ _ (hsame _)) (.ite (hsame _) (hnext _ (hsame _))))
      · exact .ite (htake _ _ (hsame _)) (hnext _ (hsame _))
      · exact .ite (hnext _ (hsame _)) (htake _ _ (hsame _))
      · exact htake _ _ (hsame _)

theorem State.failFull_linksKept (s : State) (code : Nat) : LinksKept s (s.failFull code) :=
  ((s.setLoad_linksKept _).trans (State.dropReads_linksKept _)).trans (State.nextSource_linksKept ..)

theorem State.setKeeper_linksKept (s : State) (k : Keeper) : LinksKept s { s with keeper := k } := linksKept_of_same rfl rfl

theorem State.zeroMem_linksKept (s : State) (a n : Nat) : LinksKept s (s.zeroMem a n) := linksKept_of_same rfl rfl

theorem State.journal_linksKept (s : State) (op phase kind stage lindex : Nat) (failed spare : Option (Nat × Nat))
    (step voices : Nat) : LinksKept s (s.journal op phase kind stage lindex failed spare step voices) := by
  unfold State.journal
  extract_lets w q a s1 s2 s3
  have h : OnlyBus s s3 := (s.setDreg_onlyBus ..).trans ((State.setDreg_onlyBus ..).trans
    ((State.setDreg_onlyBus ..).trans (State.setDreg_onlyBus ..)))
  exact .ite (.refl s) (h.linksKept.trans (s3.setKeeper_linksKept _))

theorem State.reply_linksKept (s : State) (w code : Nat) (words : List Word) : LinksKept s (s.reply w code words) :=
  .ite (linksKept_of_same rfl rfl) (.refl s)

theorem State.replyTo_linksKept (s : State) (asker : Option Nat) (code : Nat) (words : List Word) :
    LinksKept s (s.replyTo asker code words) := by
  unfold State.replyTo
  split
  · exact .ite (linksKept_of_same rfl rfl) (.ite (.refl s) (s.reply_linksKept ..))
  · exact .refl s

theorem State.runMode_linksKept (s : State) : LinksKept s s.runMode :=
  .ite (linksKept_of_same rfl rfl) (linksKept_of_same rfl rfl)

theorem State.endStageLoad_linksKept (s : State) (code : Nat) : LinksKept s (s.endStageLoad code) := by
  unfold State.endStageLoad
  extract_lets l t l' u
  have ht : LinksKept s t := s.journal_linksKept ..
  have hu : LinksKept t u := (t.setLoad_linksKept _).trans (State.dropReads_linksKept _)
  have hm : LinksKept u (if u.mode = .retune then u.runMode else u) := .ite u.runMode_linksKept (.refl u)
  exact (((ht.trans hu).trans hm).trans (State.replyTo_linksKept ..)).trans (State.pulse_linksKept ..)

theorem State.zeroEach_linksKept (s : State) (l : List Seg) : LinksKept s (l.foldl (fun s g => s.zeroMem g.base g.size) s) := by
  apply LinksKept.foldl
  intro s g
  exact s.zeroMem_linksKept g.base g.size

theorem State.zeroSegs_linksKept (s : State) (i : Nat) : LinksKept s (s.zeroSegs i) := s.zeroEach_linksKept _

theorem State.failStage_linksKept (s : State) (code : Nat) : LinksKept s (s.failStage code) := by
  refine .ite (s.endStageLoad_linksKept code) ?_
  refine LinksKept.trans ?_ (State.endStageLoad_linksKept ..)
  exact ((s.zeroSegs_linksKept _).trans (State.modStage_onlyBus ..).linksKept).trans (State.zeroEach_linksKept ..)

/-- A failed Read of the load engine ends a load, and moves no link and no drive (R454). -/
theorem State.readFailed_linksKept (s : State) : LinksKept s s.readFailed := by
  have hfail (t : State) : LinksKept t (t.failLoad 0x30) := .ite (t.failFull_linksKept _) (t.failStage_linksKept _)
  exact .ite (.ite ((s.setLoad_linksKept _).trans (hfail _)) (s.setLoad_linksKept _)) (.refl s)

/-! ### A drive that goes away -/

theorem State.dropCmds_linksKept (s : State) (c : Nat) : LinksKept s (s.dropCmds c) := by
  unfold State.dropCmds
  extract_lets f
  have h0 : LinksKept s (s.modDrive 0 f) := s.modDriveOut_linksKept 0 _
  have h1 : LinksKept (s.modDrive 0 f) ((s.modDrive 0 f).modDrive 1 f) := State.modDriveOut_linksKept ..
  exact (h0.trans h1).trans (linksKept_of_same rfl rfl)

theorem State.stopChan_linksKept (s : State) (c code written : Nat) : LinksKept s (s.stopChan c code written) := by
  have hend (t : State) (g n : Nat) : LinksKept t (t.endEntry g n code) := by
    obtain ⟨rings, h⟩ := t.endEntry_onlyBus g n code
    exact LinksKept.trans (linksKept_of_same rfl rfl) h.linksKept
  unfold State.stopChan
  extract_lets t v resid t1 t2
  have h0 (x : VChan) : LinksKept t (t.setChan c x) := linksKept_of_same rfl rfl
  have h1 : LinksKept t t1 := (h0 _).trans (State.statusRecord_onlyBus ..).linksKept
  have h2 : LinksKept t1 t2 := by
    simp only [t2]
    split
    · exact hend ..
    · exact .refl t1
  have h := ((s.dropCmds_linksKept c).trans h1).trans h2
  exact .ite h (h.trans (OnlyBus.linksKept (State.modDreg_onlyBus ..)))

theorem State.cutDesc_linksKept (s : State) (c code limit : Nat) : LinksKept s (s.cutDesc c code limit) :=
  (s.transfer_onlyBus ..).linksKept.trans (State.stopChan_linksKept ..)

theorem State.nvmeError_linksKept (s : State) (d : Nat) (x : NvmeCmd) : LinksKept s (s.nvmeError d x) := by
  have hcut (c k : Nat) : LinksKept s ({ s with nonce := s.nonce + 1 }.cutDesc c 7 k) :=
    s.draw_onlyBus.linksKept.trans (State.cutDesc_linksKept ..)
  have hretry : LinksKept s (s.ldgRetry d x) := LinksKept.trans (linksKept_of_same rfl rfl) (State.putCmd_queueMoved ..).linksKept
  unfold State.nvmeError
  cases x with
  | ledgerWrite seq lba => exact hretry
  | ledgerFlush seq => exact hretry
  | storeRead c b n lba => exact hcut ..
  | storeWrite c b n lba => exact hcut ..
  | storeTrim c b n lba => exact hcut ..
  | commitFlush c => exact hcut ..
  | loadRead n lba => exact linksKept_of_same rfl rfl
  | pfwFlush => exact .refl s
  | modeFlush => exact .refl s
  | stale g w => exact .refl s

theorem State.setStore_linksKept (s : State) {x : Store} (h : x.drives = s.store.drives) : LinksKept s { s with store := x } :=
  linksKept_of_same rfl h

/-- A lost drive counts as failed; no link changes by it (R340, R347). -/
theorem State.driveLost_failed (s : State) {d : Nat} (hd : d < 2) :
    (∀ p, ((s.driveLost d).pep p).status = (s.pep p).status) ∧ ((s.driveLost d).drive d).state = 3 := by
  unfold State.driveLost
  extract_lets cmds ledger loading st t u l w
  have ht : LinksKept s t := .ite ((s.setStore_linksKept (x := { st with inBlock := 0, block := [] }) rfl).trans
    (State.modDreg_onlyBus ..).linksKept) (.refl s)
  have hu : LinksKept t u := .foldl (fun s c => s.nvmeError_linksKept d (.commitFlush c)) _ _
  have hw : LinksKept u w := .ite (u.setLoad_linksKept _) (.refl u)
  have h := (ht.trans hu).trans hw
  clear_value w
  have hgo := ((w.modDrive d fun v => { v with out := [] }).driveState d 3).storeGo_queueMoved.linksKept
  refine ⟨fun p => (hgo.1 p).trans (h.1 p), (hgo.2 d).trans ?_⟩
  change (((w.modDrive d _).modDrive d fun v => { v with state := 3 }).drive d).state = 3
  rw [State.drive_modDrive, if_pos ⟨rfl, hd⟩]

end Sys2Proof.Machine

namespace Sys2Proof.Machine

/-! ### Bits of fields -/

theorem testBit_fld (w : Word) (lo n k : Nat) : (fld w lo n).testBit k = (decide (k < n) && bit w (lo + k)) := by
  simp only [fld, Nat.testBit_mod_two_pow, Nat.testBit_div_two_pow, bit, BitVec.getLsbD, Nat.add_comm]

/-- Three flags as a number. -/
theorem testBit_flags (a b c : Bool) (k : Nat) (hk : k < 3) :
    (a.toNat + 2 * b.toNat + 4 * c.toNat).testBit k = if k = 0 then a else if k = 1 then b else c := by
  have hall : ∀ k : Fin 3, (a.toNat + 2 * b.toNat + 4 * c.toNat).testBit k = if k = 0 then a else if k = 1 then b else c := by
    revert a b c; decide
  have hk' := hall ⟨k, hk⟩
  simpa [Fin.ext_iff] using hk'

/-! ### Link events of a PCIe port -/

/-- The state once PE `p` has noted a new link state and the errors reported (R431), before its drive follows. -/
def State.linkNoted (s : State) (p : Nat) (st : BitVec 11) (unc cor : Word) : State :=
  let e := s.pep p
  let st := st &&& 0x77F
  let link := (st &&& 0x37F) != (e.status &&& 0x37F)
  let perst := st.getLsbD 10 != e.status.getLsbD 10
  let aer := unc != 0 || cor != 0
  let sub := if !e.trained && st.getLsbD 0 then s.dreg (peReg p 0) else e.subsys
  let s := s.setPe p { e with status := st, trained := e.trained || st.getLsbD 0, subsys := sub }
  let s := s.modDreg (peReg p 0xC) fun w => setFld w 16 3 (fld w 16 3 ||| (link.toNat + 2 * perst.toNat + 4 * aer.toNat))
  if aer then (s.setDreg (peReg p 0x10) unc).setDreg (peReg p 0x14) cor else s

/-- The drive's part of a link event, on the state that has noted it (R340, R341, R347). -/
theorem State.linkEvent_eq (s : State) (p : Nat) (st : BitVec 11) (unc cor : Word) :
    s.linkEvent p st unc cor =
      let n := s.linkNoted p st unc cor
      let was := (s.pep p).status.getLsbD 0
      let is := (st &&& 0x77F).getLsbD 0
      (if n.straps.getLsbD (1 + p) && was && !is && (n.drive p).state != 0 then n.driveLost p
        else if decide (p < 2) && n.straps.getLsbD (1 + p) && !was && is && bit (n.dreg (qmReg 0)) p &&
          ((n.drive p).state == 0 || (n.drive p).state == 3) then n.driveState p 1
        else n).hostSyncAll := rfl

theorem State.linkNoted_eq (s : State) (p : Nat) (st : BitVec 11) (unc cor : Word) :
    s.linkNoted p st unc cor = { s with pe := (s.linkNoted p st unc cor).pe, regs := (s.linkNoted p st unc cor).regs } := by
  unfold State.linkNoted
  extract_lets e st link perst aer sub s1 s2
  split <;> rfl

theorem State.pep_linkNoted (s : State) {p : Nat} (hp : p < 2) (st : BitVec 11) (unc cor : Word) :
    ((s.linkNoted p st unc cor).pep p).status = st &&& 0x77F ∧
    ((s.linkNoted p st unc cor).pep p).trained = ((s.pep p).trained || st.getLsbD 0) := by
  have hst : (st &&& 0x77F).getLsbD 0 = st.getLsbD 0 := by simp
  unfold State.linkNoted
  extract_lets e st' link perst aer sub s1 s2
  have h1 : s2.pep p = { e with status := st', trained := e.trained || st'.getLsbD 0, subsys := sub } := by
    change s1.pep p = _
    simp [s1, State.pep_setPe, hp]
  have h2 : (if aer then (s2.setDreg (peReg p 0x10) unc).setDreg (peReg p 0x14) cor else s2).pep p = s2.pep p := by
    split <;> rfl
  rw [h2, h1]
  exact ⟨rfl, by rw [hst]⟩

/-- A register that is none of the port's status and error registers keeps its value. -/
theorem State.dreg_linkNoted_other (s : State) (p : Nat) (st : BitVec 11) (unc cor : Word) {a : Nat}
    (ha : a ≠ peReg p 0xC) (h10 : a ≠ peReg p 0x10) (h14 : a ≠ peReg p 0x14) :
    (s.linkNoted p st unc cor).dreg a = s.dreg a := by
  have hpe (x : PePort) : (s.setPe p x).dreg a = s.dreg a := rfl
  unfold State.linkNoted
  extract_lets e st link perst aer sub s1 s2
  split <;> simp [s2, s1, State.modDreg, State.dreg_setDreg, ha, h10, h14, hpe]

/-- `PE_STATUS` notes a change of the link, of PERST, and an error reported (R431). -/
theorem State.bit_linkNoted (s : State) (p : Nat) (st : BitVec 11) (unc cor : Word) (k : Nat) (hk : k < 3) :
    let n := s.linkNoted p st unc cor
    bit (n.dreg (peReg p 0xC)) (16 + k) = (bit (s.dreg (peReg p 0xC)) (16 + k) ||
      if k = 0 then (st &&& 0x77F &&& 0x37F) != ((s.pep p).status &&& 0x37F)
      else if k = 1 then (st &&& 0x77F).getLsbD 10 != (s.pep p).status.getLsbD 10 else unc != 0 || cor != 0) := by
  intro n
  have h10 : peReg p 0xC ≠ peReg p 0x10 := by simp [peReg]
  have h14 : peReg p 0xC ≠ peReg p 0x14 := by simp [peReg]
  have hpe (x : PePort) : (s.setPe p x).dreg (peReg p 0xC) = s.dreg (peReg p 0xC) := rfl
  unfold n State.linkNoted
  extract_lets e st link perst aer sub s1 s2
  have h2 : (if aer then (s2.setDreg (peReg p 0x10) unc).setDreg (peReg p 0x14) cor else s2).dreg (peReg p 0xC) =
      s2.dreg (peReg p 0xC) := by
    split <;> simp [State.dreg_setDreg, h10, h14]
  rw [h2]
  simp only [s2, State.modDreg, State.dreg_setDreg, if_true, bit_setFld, s1, hpe]
  rw [if_pos (by omega), Nat.add_sub_cancel_left, Nat.testBit_or, testBit_fld, testBit_flags _ _ _ k hk]
  simp only [hk, decide_true, Bool.true_and]
  rfl

/-- The errors reported are held in the port's two error registers (R431). -/
theorem State.dreg_linkNoted_aer (s : State) (p : Nat) (st : BitVec 11) {unc cor : Word} (h : unc ≠ 0 ∨ cor ≠ 0) :
    (s.linkNoted p st unc cor).dreg (peReg p 0x10) = unc ∧ (s.linkNoted p st unc cor).dreg (peReg p 0x14) = cor := by
  have hne : peReg p 0x10 ≠ peReg p 0x14 := by simp [peReg]
  unfold State.linkNoted
  extract_lets e st link perst aer sub s1 s2
  rw [if_pos (by simpa [aer] using h)]
  simp [State.dreg_setDreg, hne]

theorem State.readFailed_of_ok {s : State} (h : s.load.readErr = false) : s.readFailed = s := by
  simp [State.readFailed, h]

theorem State.drive_driveState (s : State) {d : Nat} (k : Nat) (hd : d < 2) : ((s.driveState d k).drive d).state = k := by
  change ((s.modDrive d fun v => { v with state := k }).drive d).state = k
  rw [State.drive_modDrive, if_pos ⟨rfl, hd⟩]

@[simp] theorem State.linkNoted_straps (s : State) (p : Nat) (st : BitVec 11) (unc cor : Word) :
    (s.linkNoted p st unc cor).straps = s.straps := by
  rw [State.linkNoted_eq]

@[simp] theorem State.linkNoted_load (s : State) (p : Nat) (st : BitVec 11) (unc cor : Word) :
    (s.linkNoted p st unc cor).load = s.load := by
  rw [State.linkNoted_eq]

@[simp] theorem State.drive_linkNoted (s : State) (p : Nat) (st : BitVec 11) (unc cor : Word) (d : Nat) :
    (s.linkNoted p st unc cor).drive d = s.drive d := by
  rw [State.linkNoted_eq]; rfl

section
variable (s : State) {p : Nat} (hp : p < 2) (st : BitVec 11) (unc cor : Word)

/-- What follows a link event in the same command moves no link and no drive (R313, R454). -/
theorem State.linksKept_of_linkEvent {t : State} (h : s.linkEvent p st unc cor = t.hostSyncAll) :
    LinksKept t (s.linkEvent p st unc cor).readFailed := by
  rw [h]
  exact t.hostSyncAll_onlyVectors.linksKept.trans (State.readFailed_linksKept _)

include hp

/-- The drive of an enabled root port starts when the link comes up (R341). -/
theorem State.linkEvent_up (hroot : s.straps.getLsbD (1 + p) = true) (hen : bit (s.dreg 0x1302C000) p = true)
    (hd : (s.drive p).state = 0 ∨ (s.drive p).state = 3) (hwas : (s.pep p).status.getLsbD 0 = false)
    (his : (st &&& 0x77F).getLsbD 0 = true) :
    s.linkEvent p st unc cor = ((s.linkNoted p st unc cor).driveState p 1).hostSyncAll := by
  have hdreg : (s.linkNoted p st unc cor).dreg (qmReg 0) = s.dreg 0x1302C000 :=
    s.dreg_linkNoted_other p st unc cor (by simp only [qmReg, peReg]; omega) (by simp only [qmReg, peReg]; omega)
      (by simp only [qmReg, peReg]; omega)
  have hd' : ((s.drive p).state == 0 || (s.drive p).state == 3) = true := by simpa using hd
  simp only [State.linkEvent_eq, State.linkNoted_straps, State.drive_linkNoted, hdreg, hroot, hen, hwas, his, hd', hp, decide_true,
    Bool.and_true, Bool.not_false, Bool.not_true, Bool.and_false, Bool.false_and, Bool.false_eq_true, if_false, if_true]

omit hp in
/-- The drive of a root port is lost when the link goes (R340, R347). -/
theorem State.linkEvent_lost (hroot : s.straps.getLsbD (1 + p) = true) (hd : (s.drive p).state ≠ 0)
    (hwas : (s.pep p).status.getLsbD 0 = true) (his : (st &&& 0x77F).getLsbD 0 = false) :
    s.linkEvent p st unc cor = ((s.linkNoted p st unc cor).driveLost p).hostSyncAll := by
  have hd' : ((s.drive p).state != 0) = true := by simpa using hd
  simp only [State.linkEvent_eq, State.linkNoted_straps, State.drive_linkNoted, hroot, hwas, his, hd', Bool.and_true, Bool.not_false,
    if_true]

omit hp in
/-- A link event of a port that is no root port, or that leaves the link as it was, is noted and no more (R431). -/
theorem State.linkEvent_noted (h : s.straps.getLsbD (1 + p) = false ∨ (s.pep p).status.getLsbD 0 = (st &&& 0x77F).getLsbD 0) :
    s.linkEvent p st unc cor = (s.linkNoted p st unc cor).hostSyncAll := by
  rw [State.linkEvent_eq]
  rcases h with h | h
  · simp [h]
  · dsimp only
    rw [h]
    cases (st &&& 0x77F).getLsbD 0 <;> simp

end

/-- Only ports and registers changed before, and only the ports' vectors after. -/
theorem OnlyVectors.after_regs {s n t : State} (hn : n = { s with pe := n.pe, regs := n.regs }) (hv : OnlyVectors n t) :
    t = { s with pe := t.pe, regs := t.regs } := by
  rw [hv.1, hn]

section
variable (s : State) {p : Nat} (hp : p < 2) (st : BitVec 11) (unc cor : Word)
include hp

theorem peLinkEvent_up (hroot : s.straps.getLsbD (1 + p) = true) (hen : bit (s.dreg 0x1302C000) p = true)
    (hd : (s.drive p).state = 0 ∨ (s.drive p).state = 3) (hwas : (s.pep p).status.getLsbD 0 = false)
    (his : (st &&& 0x77F).getLsbD 0 = true) :
    ∃ t, exec (.peLinkEvent p st unc cor) s = .next t ∧ (t.drive p).state = 1 ∧ (t.pep p).status = st &&& 0x77F := by
  obtain ⟨hpe, hdr⟩ := s.linksKept_of_linkEvent st unc cor (s.linkEvent_up hp st unc cor hroot hen hd hwas his)
  exact ⟨_, rfl, (hdr p).trans (State.drive_driveState _ 1 hp), (hpe p).trans (s.pep_linkNoted hp st unc cor).1⟩

theorem peLinkEvent_lost (hroot : s.straps.getLsbD (1 + p) = true) (hd : (s.drive p).state ≠ 0)
    (hwas : (s.pep p).status.getLsbD 0 = true) (his : (st &&& 0x77F).getLsbD 0 = false) :
    ∃ t, exec (.peLinkEvent p st unc cor) s = .next t ∧ (t.drive p).state = 3 ∧ (t.pep p).status = st &&& 0x77F := by
  obtain ⟨hpe, hdr⟩ := s.linksKept_of_linkEvent st unc cor (s.linkEvent_lost st unc cor hroot hd hwas his)
  obtain ⟨hst, hfail⟩ := (s.linkNoted p st unc cor).driveLost_failed hp
  exact ⟨_, rfl, (hdr p).trans hfail, ((hpe p).trans (hst p)).trans (s.pep_linkNoted hp st unc cor).1⟩

omit hp in
/-- Where the drive does not follow the link and no Read of the load engine has failed, the event is noted, and the vectors of the
host targets brought up to date. -/
theorem peLinkEvent_noted (h : s.straps.getLsbD (1 + p) = false ∨ (s.pep p).status.getLsbD 0 = (st &&& 0x77F).getLsbD 0)
    (hok : s.load.readErr = false) :
    exec (.peLinkEvent p st unc cor) s = .next (s.linkNoted p st unc cor).hostSyncAll := by
  have hv := (s.linkNoted p st unc cor).hostSyncAll_onlyVectors
  have hload : (s.linkNoted p st unc cor).hostSyncAll.load.readErr = false := by rw [hv.1]; simpa using hok
  change execPeLinkEvent p st unc cor s = _
  rw [execPeLinkEvent, s.linkEvent_noted st unc cor h, State.readFailed_of_ok hload]

end

/-! ### BAR2 of a PCIe port -/

/-- A byte that the host may reach through BAR2: of the Orchard or the usable LP5X, and of no shadow region (R416). -/
def State.bar2May (s : State) (p off a : Nat) : Bool :=
  decide (p < 2) && decide (off < 0x10000000) && !s.straps.getLsbD (p + 1) && s.isMem a && !isShadow a

section
variable {s : State} {p off a : Nat} (ha : a = base40 (s.dreg (peReg p 4)) (s.dreg (peReg p 8)) + off)
include ha

theorem hostBar2Access_read (h : s.damaged [(a, 1)] = []) : exec (.hostBar2Access p off none) s = .next s := by
  have hread : (s.fetchBytes a 1).2.2 = s := by rw [State.fetchBytes_undamaged h]
  change execHostBar2Access p off none s = _
  unfold execHostBar2Access
  simp only [← ha, hread, ite_self]

theorem hostBar2Access_write (v : Byte) (h : s.damaged [(a, 1)] = []) :
    exec (.hostBar2Access p off (some v)) s = .next (if s.bar2May p off a then s.setByte a v else s) := by
  have hstore : s.storeBytes a [v] = s.setByte a v := by
    rw [State.storeBytes, State.openRanges_undamaged (rs := [(a, [v].length)]) _ h]; rfl
  change execHostBar2Access p off (some v) s = _
  unfold execHostBar2Access
  simp only [← ha, hstore, State.bar2May]
  exact (apply_ite Host.Outcome.next _ _ _).symm

end

end Sys2Proof.Machine

namespace Sys2Proof.Machine

/-! ### I2C -/

theorem State.i2cn_setI2c (s : State) (n : Nat) (x : Fifo) (m : Nat) :
    (s.setI2c n x).i2cn m = if n = m ∧ n < 2 then x else s.i2cn m := by
  simp [State.i2cn, State.setI2c, vget_vset]

/-- A write of `I2C_CMD` takes its command, and starts a transfer unless one runs (R432). -/
theorem i2cStart_spec (s : State) {n : Nat} (hn : n < 2) (v : Word) :
    ∃ t, exec (.i2cStart n v) s = .next t ∧ t = { s with i2c := t.i2c, regs := t.regs } ∧
      t.dreg (i2cReg n 4) = v &&& 0x607F001F ∧ (∀ a, a ≠ i2cReg n 4 → t.dreg a = s.dreg a) ∧
      t.i2cn n = { s.i2cn n with busy := (s.i2cn n).busy || (bit v 31 && bit (s.dreg (i2cReg n 0)) 8) } := by
  have hctrl (w : Word) : (s.setDreg (i2cReg n 4) w).dreg (i2cReg n 0) = s.dreg (i2cReg n 0) := by
    rw [State.dreg_setDreg, if_neg (by simp [i2cReg])]
  have hcmd (a : Nat) : (s.setDreg (i2cReg n 4) (v &&& 0x607F001F)).dreg a = if a = i2cReg n 4 then v &&& 0x607F001F else s.dreg a :=
    State.dreg_setDreg ..
  have hx (w : Word) : (s.setDreg (i2cReg n 4) w).i2cn n = s.i2cn n := rfl
  refine ⟨_, rfl, ?_⟩
  simp only [hctrl, hx]
  split
  · next h =>
    simp only [Bool.and_eq_true, Bool.not_eq_true'] at h
    obtain ⟨⟨hv, hb⟩, hc⟩ := h
    refine ⟨rfl, (hcmd _).trans (if_pos rfl), fun a ha => (hcmd a).trans (if_neg ha), ?_⟩
    rw [State.i2cn_setI2c, if_pos ⟨rfl, hn⟩, hv, hc, hb]
    rfl
  · next h =>
    refine ⟨rfl, (hcmd _).trans (if_pos rfl), fun a ha => (hcmd a).trans (if_neg ha), ?_⟩
    have hb : ((s.i2cn n).busy || (bit v 31 && bit (s.dreg (i2cReg n 0)) 8)) = (s.i2cn n).busy := by
      cases hb : (s.i2cn n).busy <;> simp_all
    rw [hb]; rfl

/-- I2C controller `n` as the end of a transfer leaves it: the FIFO of its direction has moved on (R432). -/
def State.i2cAfter (s : State) (n took : Nat) (data : List Byte) : Fifo :=
  let x := s.i2cn n
  { x with
    busy := false
    tx := if bit (s.dreg (i2cReg n 4)) 29 then x.tx else x.tx.drop took
    rx := if bit (s.dreg (i2cReg n 4)) 29 then (x.rx ++ data.take (s.i2cLen n)).take 16 else x.rx }

/-- The end of a transfer: the controller is idle, its status bits are set, and no other register changes (R432). -/
theorem i2cTransferEnd_spec (s : State) {n : Nat} (hn : n < 2) (nack arb : Bool) (data : List Byte) (hb : (s.i2cn n).busy = true) :
    ∃ t took, exec (.i2cTransferEnd n nack arb data) s = .next t ∧ (nack = false → arb = false → took = s.i2cLen n) ∧
      t.i2cn n = s.i2cAfter n took data ∧
      t.dreg (i2cReg n 0xC) = (s.dreg (i2cReg n 0xC) ||| wd (1 + 2 * nack.toNat + 4 * arb.toNat)) ∧
      t = { s with i2c := t.i2c, regs := t.regs, nonce := t.nonce } ∧ ∀ a, a ≠ i2cReg n 0xC → t.dreg a = s.dreg a := by
  change ∃ t took, execI2cTransferEnd n nack arb data s = .next t ∧ _
  unfold execI2cTransferEnd
  simp only [hb, Bool.not_true, Bool.false_eq_true, if_false]
  refine ⟨_, _, rfl, fun h1 h2 => ?_, (State.i2cn_setI2c ..).trans (if_pos ⟨rfl, hn⟩), (State.dreg_setDreg ..).trans (if_pos rfl), rfl,
    fun a ha => (State.dreg_setDreg ..).trans (if_neg ha)⟩
  rw [h1, h2]; rfl

/-! ### UART -/

theorem bit_or (v w : Word) (k : Nat) : bit (v ||| w) k = (bit v k || bit w k) := BitVec.getLsbD_or

theorem bit_wd (n k : Nat) : bit (wd n) k = (decide (k < 32) && n.testBit k) := BitVec.getLsbD_ofNat ..

/-- The status flags of a byte received: 18 lost, 19 framing, 20 parity (R432). -/
theorem bit_uartFlags (parity framing lost : Bool) {j : Nat} (hj : j < 3) :
    bit (wd (0x100000 * parity.toNat + 0x80000 * framing.toNat + 0x40000 * lost.toNat)) (18 + j) =
      if j = 0 then lost else if j = 1 then framing else parity := by
  have h : 0x100000 * parity.toNat + 0x80000 * framing.toNat + 0x40000 * lost.toNat =
      (lost.toNat + 2 * framing.toNat + 4 * parity.toNat) * 2 ^ 18 := by omega
  rw [bit_wd, h, Nat.testBit_mul_two_pow, Nat.add_sub_cancel_left, testBit_flags _ _ _ _ hj]
  simp [show 18 + j < 32 by omega]

theorem State.dreg_uartLevels_other (s : State) {a : Nat} (h : a ≠ uartReg 8) : s.uartLevels.dreg a = s.dreg a :=
  (State.dreg_setDreg ..).trans (if_neg h)

theorem State.bit_uartLevels (s : State) (k : Nat) (hk : k < 32) :
    bit (s.uartLevels.dreg (uartReg 8)) k =
      if k = 17 then s.uart.tx.isEmpty && !s.uart.busy else if k = 16 then !s.uart.rx.isEmpty else bit (s.dreg (uartReg 8)) k := by
  rw [State.uartLevels, State.modDreg, State.dreg_setDreg, if_pos rfl, bit_setBit, bit_setBit]
  simp only [hk, and_true, eq_comm]

/-- The state once the UART has taken a byte and its status flags, before the levels follow (R429, R432). -/
def State.uartTaken (s : State) (b : Byte) (flags : Word) : State :=
  let s := { s with uart := { s.uart with rx := if s.uart.rx.length < 16 then s.uart.rx ++ [b] else s.uart.rx } }
  s.modDreg (uartReg 8) fun w => w ||| flags

/-- A byte received is kept while there is room, and flagged as lost otherwise (R432). -/
theorem execUartReceive_eq (s : State) (b : Byte) (parity framing : Bool) :
    execUartReceive b parity framing s = .next (s.uartTaken b (wd (0x100000 * (parity && bit (s.dreg (uartReg 0)) 20).toNat +
      0x80000 * framing.toNat + 0x40000 * (decide (16 ≤ s.uart.rx.length)).toNat))).uartLevels := by
  unfold execUartReceive State.uartTaken
  by_cases h : 16 ≤ s.uart.rx.length
  · simp only [h, decide_true, if_true, if_neg (Nat.not_lt.2 h)]
  · simp only [h, decide_false, if_pos (Nat.lt_of_not_le h), Bool.false_eq_true, if_false]
    rfl

section
variable (s : State) (b : Byte) (flags : Word)

/-- A byte received leaves the receive FIFO filled. -/
theorem State.rx_uartTaken_ne_nil : (s.uartTaken b flags).uart.rx.isEmpty = false := by
  change (if s.uart.rx.length < 16 then s.uart.rx ++ [b] else s.uart.rx).isEmpty = false
  split
  · simp
  · next h => cases hrx : s.uart.rx <;> simp_all

theorem State.dreg_uartTaken (a : Nat) :
    (s.uartTaken b flags).dreg a = if a = uartReg 8 then s.dreg (uartReg 8) ||| flags else s.dreg a := State.dreg_setDreg ..

/-- The status flags above the levels gather what has happened (R432). -/
theorem State.bit_uartTaken (k : Nat) (h : 17 < k) (hk : k < 32) :
    bit ((s.uartTaken b flags).uartLevels.dreg (uartReg 8)) k = (bit (s.dreg (uartReg 8)) k || bit flags k) := by
  rw [State.bit_uartLevels _ k hk, if_neg (by omega), if_neg (by omega), State.dreg_uartTaken, if_pos rfl, bit_or]

end

end Sys2Proof.Machine

namespace Sys2Proof.Machine

/-! ### Bytes of a word -/

theorem leNat_lt (bs : List Byte) : leNat bs < 256 ^ bs.length := by
  induction bs with
  | nil => simp [leNat]
  | cons b r ih =>
    have hb := b.isLt
    rw [leNat, List.length_cons, Nat.pow_succ]
    omega

/-- Byte `j` of a little-endian value is the one it was spelt with. -/
theorem leNat_div_mod (bs : List Byte) (j : Nat) : leNat bs / 256 ^ j % 256 = (bs.getD j 0).toNat := by
  induction bs generalizing j with
  | nil => simp [leNat]
  | cons b r ih =>
    have hb := b.isLt
    cases j with
    | zero => simp only [leNat, Nat.pow_zero, Nat.div_one, List.getD_cons_zero]; omega
    | succ j =>
      have hdiv : (b.toNat + 256 * leNat r) / 256 = leNat r := by omega
      rw [leNat, Nat.pow_succ', ← Nat.div_div_eq_div_mul, hdiv, ih, List.getD_cons_succ]

theorem leBytes_getD (v n j : Nat) (h : j < n) : (leBytes v n).getD j 0 = BitVec.ofNat 8 (v / 256 ^ j) := by
  induction n generalizing v j with
  | zero => omega
  | succ n ih =>
    cases j with
    | zero => simp [leBytes]
    | succ j => rw [leBytes, List.getD_cons_succ, ih _ _ (by omega), Nat.div_div_eq_div_mul, Nat.pow_succ']

/-- Byte `j` of a word, as a field of it. -/
theorem extractLsb'_byte (w : Word) (j : Nat) : w.extractLsb' (8 * j) 8 = BitVec.ofNat 8 (w.toNat / 256 ^ j) := by
  apply BitVec.eq_of_toNat_eq
  rw [BitVec.extractLsb'_toNat, BitVec.toNat_ofNat, Nat.shiftRight_eq_div_pow, Nat.pow_mul]

/-- Byte `j` of a word made of four bytes. -/
theorem extractLsb'_wd_leNat (bs : List Byte) (hb : bs.length = 4) (j : Nat) :
    (wd (leNat bs)).extractLsb' (8 * j) 8 = bs.getD j 0 := by
  have hlt := leNat_lt bs
  rw [hb] at hlt
  apply BitVec.eq_of_toNat_eq
  rw [extractLsb'_byte, BitVec.toNat_ofNat, wd, BitVec.toNat_ofNat, Nat.mod_eq_of_lt (a := leNat bs) (b := 2 ^ 32) hlt]
  exact leNat_div_mod bs j

/-- Blocks of four bytes in a row: byte `k` lies in block `k / 4`. -/
theorem getD_flatMap_four (g : Nat → List Byte) (hg : ∀ i, (g i).length = 4) (m k : Nat) (d : Byte) (hk : k < 4 * m) :
    ((List.range m).flatMap g).getD k d = (g (k / 4)).getD (k % 4) d := by
  have hlen (m : Nat) : ((List.range m).flatMap g).length = 4 * m := by
    induction m with
    | zero => rfl
    | succ m ih => rw [List.range_succ, List.flatMap_append, List.flatMap_singleton, List.length_append, ih, hg]; rfl
  induction m with
  | zero => omega
  | succ m ih =>
    rw [List.range_succ, List.flatMap_append, List.flatMap_singleton]
    rw [List.getD_eq_getElem?_getD]
    by_cases h : k < 4 * m
    · rw [List.getElem?_append_left (by rwa [hlen]), ← List.getD_eq_getElem?_getD, ih h]
    · rw [List.getElem?_append_right (by rw [hlen]; omega), ← List.getD_eq_getElem?_getD, hlen, show k / 4 = m by omega, show k - 4 * m = k % 4 by omega]

/-- Byte `k` of the registers from `a` on. -/
theorem State.regBytes_getD (s : State) (a n k : Nat) (d : Byte) (hk : k < n) :
    (s.regBytes a n).getD k d = (s.dreg (a + 4 * (k / 4))).extractLsb' (8 * (k % 4)) 8 := by
  have hblock := getD_flatMap_four (fun i => leBytes (s.dreg (a + 4 * i)).toNat 4) (fun i => leBytes_length _ 4) (ceilDiv n 4) k d
    (by unfold ceilDiv; omega)
  have htake (l : List Byte) : (l.take n).getD k d = l.getD k d := by
    simp [List.getD_eq_getElem?_getD, hk]
  rw [State.regBytes, htake, hblock, extractLsb'_byte, ← leBytes_getD _ 4 _ (Nat.mod_lt _ (by decide))]
  have hlt : k % 4 < (leBytes (s.dreg (a + 4 * (k / 4))).toNat 4).length := by rw [leBytes_length]; omega
  simp only [List.getD_eq_getElem?_getD, List.getElem?_eq_getElem hlt, Option.getD_some]

/-! ### Rows of a table changed one after the other -/

section
variable {α : Type} [DecidableEq α] (d : Nat → α) {key : Nat → Nat} (f : Nat → α → α) (m : Sparse α) (n : Nat)

/-- The table `m` with the values under `key 0 … key (n - 1)` changed by `f`. -/
def smodEach (key : Nat → Nat) : Sparse α :=
  (List.range n).foldl (fun m k => sset d m (key k) (f k (sget d m (key k)))) m

theorem smodEach_succ : smodEach d f m (n + 1) key =
    sset d (smodEach d f m n key) (key n) (f n (sget d (smodEach d f m n key) (key n))) := by
  simp only [smodEach, List.range_succ, List.foldl_append, List.foldl_cons, List.foldl_nil]

/-- A key of none of the rows keeps its value. -/
theorem sget_smodEach_other (b : Nat) (hb : ∀ k, k < n → b ≠ key k) : sget d (smodEach d f m n key) b = sget d m b := by
  induction n with
  | zero => rfl
  | succ n ih => rw [smodEach_succ, sget_sset, if_neg (hb n (by omega)), ih fun k hk => hb k (by omega)]

/-- Each row is changed once, from its old value. -/
theorem sget_smodEach (hkey : Function.Injective key) (k : Nat) (hk : k < n) :
    sget d (smodEach d f m n key) (key k) = f k (sget d m (key k)) := by
  induction n with
  | zero => omega
  | succ n ih =>
    rw [smodEach_succ, sget_sset]
    by_cases h : k = n
    · subst h
      rw [if_pos rfl, sget_smodEach_other d f m k _ fun j hj e => absurd (hkey e) (by omega)]
    · rw [if_neg fun e => h (hkey e), ih (by omega)]

end

/-! ### The SPI flash -/

/-- Changes of the flash leave all else alone. -/
theorem State.modFlash_eq (s : State) (a n : Nat) (f : Nat → Byte → Byte) :
    s.modFlash a n f = { s with regs := (s.modFlash a n f).regs, flash := (s.modFlash a n f).flash } := rfl

/-- What the flash holds after `n` bytes of it from `a` on are changed. -/
theorem State.flash_modFlash (s : State) (a n : Nat) (f : Nat → Byte → Byte) (b : Nat) :
    sget flashDefault (s.modFlash a n f).flash b =
      if a ≤ b ∧ b < a + n then f (b - a) (sget flashDefault s.flash b) else sget flashDefault s.flash b := by
  change sget flashDefault (smodEach flashDefault f s.flash n (a + ·)) b = _
  split
  · next h =>
    have hk := sget_smodEach flashDefault f s.flash n (key := (a + ·)) (fun _ _ => Nat.add_left_cancel) (b - a) (by omega)
    simp only [Nat.add_sub_cancel' h.1] at hk
    exact hk
  · next h => exact sget_smodEach_other _ _ _ _ _ fun k hk e => h (by omega)

/-- Register `k` of `SPI_BUF` (R432). -/
def spiBuf (k : Nat) : Nat := spiReg (0x100 + 4 * k)

/-- Word `k` of `SPI_BUF` over `old`, once the first `n` bytes of the buffer are `bs`. -/
def spiWord (bs : List Byte) (n k : Nat) (old : Word) : Word :=
  wd (leNat ((List.range 4).map fun j => if 4 * k + j < n then bs.getD (4 * k + j) 0xFF else (leBytes old.toNat 4).getD j 0))

/-- `SPI_BUF` filled with the first `n` of the bytes `bs` (R427). -/
def State.spiFill (s : State) (n : Nat) (bs : List Byte) : State :=
  (List.range (ceilDiv n 4)).foldl (fun s k => s.setDreg (spiBuf k) (spiWord bs n k (s.dreg (spiBuf k)))) s

theorem State.spiFill_eq (s : State) (n : Nat) (bs : List Byte) :
    s.spiFill n bs = { s with regs := smodEach deviceDefault (spiWord bs n) s.regs (ceilDiv n 4) spiBuf } := by
  unfold State.spiFill smodEach
  generalize List.range (ceilDiv n 4) = l
  induction l generalizing s with
  | nil => rfl
  | cons k r ih => rw [List.foldl_cons, ih, List.foldl_cons]; rfl

/-- Byte `k` of `SPI_BUF` (R432). -/
def State.spiByte (s : State) (k : Nat) : Byte := (s.dreg (spiBuf (k / 4))).extractLsb' (8 * (k % 4)) 8

/-- The bytes filled in are read back from `SPI_BUF`. -/
theorem State.spiByte_spiFill (s : State) (n : Nat) (bs : List Byte) (k : Nat) (hk : k < n) :
    (s.spiFill n bs).spiByte k = bs.getD k 0xFF := by
  have hinj : Function.Injective spiBuf := fun i j h => by simp only [spiBuf, spiReg] at h; omega
  have hreg : (s.spiFill n bs).dreg (spiBuf (k / 4)) = spiWord bs n (k / 4) (s.dreg (spiBuf (k / 4))) := by
    rw [State.spiFill_eq]
    exact sget_smodEach _ _ _ _ hinj _ (by unfold ceilDiv; omega)
  have hj : k % 4 < 4 := Nat.mod_lt _ (by decide)
  rw [State.spiByte, hreg, spiWord, extractLsb'_wd_leNat _ (by simp), List.getD_eq_getElem?_getD]
  simp [hj, Nat.div_add_mod, hk]

theorem State.flashBytes_getD (s : State) (a n k : Nat) (d : Byte) (hk : k < n) :
    (s.flashBytes a n).getD k d = sget flashDefault s.flash (a + k) := by
  simp [State.flashBytes, List.getD_eq_getElem?_getD, hk]

/-! ### The flash commands -/

section
variable (s : State) (data : List Byte)

/-- A write of `SPI_CMD` takes its command, and starts it unless one runs (R432). -/
theorem spiStart_spec (v : Word) :
    ∃ t, exec (.spiStart v) s = .next t ∧ t = { s with regs := t.regs, spiBusy := s.spiBusy || bit v 31 } ∧
      t.dreg (spiReg 0) = v &&& 0xFFFFF ∧ ∀ a, a ≠ spiReg 0 → t.dreg a = s.dreg a := by
  have hcmd (a : Nat) : (s.setDreg (spiReg 0) (v &&& 0xFFFFF)).dreg a = if a = spiReg 0 then v &&& 0xFFFFF else s.dreg a :=
    State.dreg_setDreg ..
  have hexec : exec (.spiStart v) s =
      .next { s.setDreg (spiReg 0) (v &&& 0xFFFFF) with spiBusy := s.spiBusy || bit v 31 } := by
    refine congrArg Host.Outcome.next ?_
    have hbusy : (s.setDreg (spiReg 0) (v &&& 0xFFFFF)).spiBusy = s.spiBusy := rfl
    split
    · next h => rw [(Bool.and_eq_true_iff.1 h).1, Bool.or_true]
    · next h =>
      have hstay : (s.spiBusy || bit v 31) = s.spiBusy := by rw [hbusy] at h; revert h; cases s.spiBusy <;> simp
      rw [hstay]; rfl
  exact ⟨_, hexec, rfl, (hcmd _).trans (if_pos rfl), fun a ha => (hcmd a).trans (if_neg ha)⟩

/-- A command of the SPI controller that has ended (R432). -/
def State.spiDone (s : State) : State := { s with spiBusy := false }.modDreg (spiReg 0xC) fun w => setBit w 0 true

theorem execSpiCommandEnd_eq (h : s.spiBusy = true) : execSpiCommandEnd data s = .next (s.spiRun data).spiDone := if_pos h

theorem State.spiDone_flash : s.spiDone.flash = s.flash := rfl

theorem State.spiByte_spiDone (k : Nat) : s.spiDone.spiByte k = s.spiByte k := by
  have hne : spiBuf (k / 4) ≠ spiReg 0xC := by simp only [spiBuf, spiReg]; omega
  unfold State.spiByte
  congr 1
  exact (State.dreg_setDreg ..).trans (if_neg hne)

theorem State.bit_spiDone : bit (s.spiDone.dreg (spiReg 0xC)) 0 = true := by
  rw [State.spiDone, State.modDreg, State.dreg_setDreg, if_pos rfl, bit_setBit]
  rfl

theorem State.spiRun_read (hw : bit (s.dreg (spiReg 0)) 9 = false) (hd : bit (s.dreg (spiReg 0)) 8 = true)
    (hop : fld (s.dreg (spiReg 0)) 0 8 = 0x13 ∨ fld (s.dreg (spiReg 0)) 0 8 = 0x6C) :
    s.spiRun data = s.spiFill s.spiLen (s.flashBytes (s.dreg (spiReg 4)).toNat s.spiLen) := by
  unfold State.spiRun
  extract_lets cmd op a n fill
  exact if_pos (by simpa [cmd, op, hw, hd] using hop)

theorem State.spiRun_program (hw : bit (s.dreg (spiReg 0)) 9 = true) (hd : bit (s.dreg (spiReg 0)) 8 = true)
    (hop : fld (s.dreg (spiReg 0)) 0 8 = 0x12) :
    s.spiRun data = s.modFlash (s.dreg (spiReg 4)).toNat s.spiLen
      fun k old => old &&& (s.regBytes (spiReg 0x100) s.spiLen).getD k 0xFF := by
  unfold State.spiRun
  simp [hw, hd, hop]

theorem State.spiRun_eraseSector (hd : bit (s.dreg (spiReg 0)) 8 = true) (hop : fld (s.dreg (spiReg 0)) 0 8 = 0x21) :
    s.spiRun data = s.modFlash ((s.dreg (spiReg 4)).toNat / 0x1000 * 0x1000) 0x1000 fun _ _ => 0xFF := by
  unfold State.spiRun
  simp [hd, hop]

theorem State.spiRun_eraseBlock (hd : bit (s.dreg (spiReg 0)) 8 = true) (hop : fld (s.dreg (spiReg 0)) 0 8 = 0xDC) :
    s.spiRun data = s.modFlash ((s.dreg (spiReg 4)).toNat / 0x10000 * 0x10000) 0x10000 fun _ _ => 0xFF := by
  unfold State.spiRun
  simp [hd, hop]

end

end Sys2Proof.Machine

namespace Sys2Proof.Machine

/-- Settles O58: a link event is noted and then followed by the drive; the serial controllers and the flash each by the
equation of their command. -/
theorem pciePortsAndSerialControllers : Obligations.PciePortsAndSerialControllers := by
  refine ⟨fun p s hp => ⟨fun st unc cor => ?_, fun off v => ?_⟩, fun n s hn => ?_,
    fun s => ⟨fun b parity framing => ?_, ?_, fun v => ?_⟩, fun data s hbusy => ?_⟩
  · have hC : 0x1000A10C + 0x40 * p = peReg p 0xC := by unfold peReg; omega
    have h10 : 0x1000A110 + 0x40 * p = peReg p 0x10 := by unfold peReg; omega
    have h14 : 0x1000A114 + 0x40 * p = peReg p 0x14 := by unfold peReg; omega
    rw [hC, h10, h14]
    intro e new w
    refine ⟨peLinkEvent_up s hp st unc cor, peLinkEvent_lost s hp st unc cor, fun h hok => ?_⟩
    have hv := (s.linkNoted p st unc cor).hostSyncAll_onlyVectors
    obtain ⟨hst, htr⟩ := s.pep_linkNoted hp st unc cor
    refine ⟨_, peLinkEvent_noted s st unc cor h hok, hv.after_regs (s.linkNoted_eq p st unc cor), (hv.2 p).1.trans hst,
      (hv.2 p).2.trans htr, ?_, ?_, ?_, fun haer => ?_⟩
    · rw [hv.dreg]; exact s.bit_linkNoted p st unc cor 0 (by omega)
    · rw [hv.dreg]; exact s.bit_linkNoted p st unc cor 1 (by omega)
    · rw [hv.dreg, Bool.or_assoc]; exact s.bit_linkNoted p st unc cor 2 (by omega)
    · rw [hv.dreg, hv.dreg]; exact s.dreg_linkNoted_aer p st haer
  · have h4 : 0x1000A104 + 0x40 * p = peReg p 4 := by unfold peReg; omega
    have h8 : 0x1000A108 + 0x40 * p = peReg p 8 := by unfold peReg; omega
    rw [h4, h8, ← base40_eq]
    generalize ha : base40 (s.dreg (peReg p 4)) (s.dreg (peReg p 8)) + off = a
    intro a herr
    have hwrite := hostBar2Access_write ha.symm v herr
    refine ⟨hostBar2Access_read ha.symm herr, fun hstrap hoff hmem => ⟨fun hsh => ?_, fun hsh => ?_⟩⟩
    · have hmay : s.bar2May p off a = true := by simp [State.bar2May, hp, hoff, hstrap, hmem, hsh]
      exact ⟨_, hwrite.trans (by rw [if_pos hmay]), rfl, fun b => State.byte_setByte ..⟩
    · have hmay : s.bar2May p off a = false := by simp [State.bar2May, hsh]
      exact hwrite.trans (by rw [hmay]; rfl)
  · intro x r len ended
    have hlen : s.i2cLen n = len := by simp [State.i2cLen, fld, len, i2cReg, r]
    have hend (nack arb : Bool) (data : List Byte) (hb : x.busy = true) : ∃ t took,
        exec (.i2cTransferEnd n nack arb data) s = .next t ∧ ended t (1 + 2 * nack.toNat + 4 * arb.toNat) ∧
          (nack = false → arb = false → took = len) ∧ t.i2cn n = s.i2cAfter n took data := by
      obtain ⟨t, took, hexec, htook, hx, hst, hframe, hregs⟩ := i2cTransferEnd_spec s hn nack arb data hb
      exact ⟨t, took, hexec, ⟨by rw [hx]; rfl, hst, hframe, hregs⟩, fun h1 h2 => (htook h1 h2).trans hlen, hx⟩
    refine ⟨fun v => i2cStart_spec s hn v, fun data hb => ⟨fun hrd => ?_, fun hrd => ?_, ?_, ?_⟩⟩
    · obtain ⟨t, took, hexec, hended, htook, hx⟩ := hend false false data hb
      have hrd : bit (s.dreg (i2cReg n 4)) 29 = false := hrd
      refine ⟨t, hexec, hended, ?_⟩
      rw [hx, State.i2cAfter, hrd, htook rfl rfl]
      exact ⟨rfl, rfl⟩
    · obtain ⟨t, took, hexec, hended, -, hx⟩ := hend false false data hb
      have hrd : bit (s.dreg (i2cReg n 4)) 29 = true := hrd
      refine ⟨t, hexec, hended, ?_⟩
      rw [hx, State.i2cAfter, hrd, hlen]
      exact ⟨rfl, rfl⟩
    · obtain ⟨t, _, hexec, hended, _⟩ := hend true false data hb
      exact ⟨t, hexec, hended⟩
    · obtain ⟨t, _, hexec, hended, _⟩ := hend false true data hb
      exact ⟨t, hexec, hended⟩
  · refine ⟨_, execUartReceive_eq s b parity framing, rfl, fun a ha => ?_, rfl, ?_, ?_, ?_, ?_⟩
    · exact (State.dreg_uartLevels_other _ ha).trans ((s.dreg_uartTaken ..).trans (if_neg ha))
    · exact (State.bit_uartLevels _ 16 (by decide)).trans (by simp [s.rx_uartTaken_ne_nil])
    · exact (s.bit_uartTaken _ _ 18 (by decide) (by decide)).trans (congrArg _ (bit_uartFlags (j := 0) _ _ _ (by decide)))
    · exact (s.bit_uartTaken _ _ 19 (by decide) (by decide)).trans (congrArg _ (bit_uartFlags (j := 1) _ _ _ (by decide)))
    · exact (s.bit_uartTaken _ _ 20 (by decide) (by decide)).trans (congrArg _ (bit_uartFlags (j := 2) _ _ _ (by decide)))
  · exact ⟨_, rfl, rfl, (State.bit_uartLevels _ 17 (by decide)).trans rfl, fun a ha => State.dreg_uartLevels_other _ ha⟩
  · exact spiStart_spec s v
  · intro cmd a n buf ended erased
    have hn : s.spiLen = n := by simp [State.spiLen, fld, n, spiReg]
    have hop : fld (s.dreg (spiReg 0)) 0 8 = cmd.toNat % 256 := by simp [fld, cmd, spiReg]
    have hbuf (t : State) (k : Nat) : buf t k = t.spiByte k := by
      simp only [buf, State.spiByte, spiBuf, spiReg,
        show 0x13060500 + k / 4 * 4 = 0x13060400 + (0x100 + 4 * (k / 4)) by omega]
    have hended (t : State) (h : t = { s with regs := t.regs, flash := t.flash }) : ended t.spiDone :=
      ⟨rfl, t.bit_spiDone, by rw [h]; rfl⟩
    have hexec : exec (.spiCommandEnd data) s = .next (s.spiRun data).spiDone := execSpiCommandEnd_eq s data hbusy
    rw [hexec]
    refine ⟨fun hw hd ho => ⟨_, rfl, ?_⟩, fun hw hd ho => ⟨_, rfl, ?_⟩, fun hd ho => ⟨_, rfl, ?_⟩, fun hd ho => ⟨_, rfl, ?_⟩⟩
    · rw [s.spiRun_read data hw hd (by rwa [hop])]
      have hfill := s.spiFill_eq s.spiLen (s.flashBytes (s.dreg (spiReg 4)).toNat s.spiLen)
      refine ⟨hended _ (by rw [hfill]), by rw [hfill]; rfl, fun k hk => ?_⟩
      rw [hbuf, State.spiByte_spiDone, State.spiByte_spiFill _ _ _ _ (hn ▸ hk), State.flashBytes_getD _ _ _ _ _ (hn ▸ hk)]
      rfl
    · rw [s.spiRun_program data hw hd (by rwa [hop])]
      refine ⟨hended _ (s.modFlash_eq ..), fun b => ?_⟩
      rw [State.spiDone_flash, State.flash_modFlash, hn]
      refine ite_congr rfl (fun h => ?_) fun _ => rfl
      have hk : b - a < n := by clear_value a; omega
      rw [show (s.dreg (spiReg 4)).toNat = a from rfl, State.regBytes_getD _ _ _ _ _ hk, hbuf]
      simp only [State.spiByte, spiBuf, spiReg, Nat.add_assoc]
    · rw [s.spiRun_eraseSector data hd (by rwa [hop])]
      exact ⟨hended _ (s.modFlash_eq ..), fun b => by rw [State.spiDone_flash, State.flash_modFlash]; rfl⟩
    · rw [s.spiRun_eraseBlock data hd (by rwa [hop])]
      exact ⟨hended _ (s.modFlash_eq ..), fun b => by rw [State.spiDone_flash, State.flash_modFlash]; rfl⟩

end Sys2Proof.Machine

namespace Sys2Proof.Machine

/-! ### A write of a register that acts on its stage alone -/

/-- A bit of a set after a member is put in or taken out. -/
theorem getLsbD_bset {n : Nat} (v : BitVec n) (i : Nat) (b : Bool) {j : Nat} (hj : j < n) :
    (bset v i b).getLsbD j = if j = i then b else v.getLsbD j := by
  have hbit : (BitVec.ofNat n (2 ^ i)).getLsbD j = decide (j = i) := by
    rw [BitVec.getLsbD_ofNat, Nat.testBit_two_pow, decide_eq_true hj, Bool.true_and, decide_eq_decide, eq_comm]
  cases b
  · rw [bset, if_neg Bool.false_ne_true, BitVec.getLsbD_and, BitVec.getLsbD_not, hbit, decide_eq_true hj]
    by_cases h : j = i <;> simp [h]
  · rw [bset, if_pos rfl, BitVec.getLsbD_or, hbit]
    by_cases h : j = i <;> simp [h]

/-- A mask of all bits merges to the written word. -/
theorem merged_ones (old v : Word) : merged 0xFFFFFFFF old v = v := by
  have hall : (0xFFFFFFFF : Word) = BitVec.allOnes 32 := by decide
  rw [merged, hall, BitVec.not_allOnes, BitVec.and_zero, BitVec.zero_or, BitVec.and_allOnes]

/-- A watch that fires touches no register but `CONS_STATUS` (R192). -/
theorem Stage.reg_watchReg (st : Stage) (o : Nat) {p : Nat} (hp : p ≠ prismBase + 0x60C) :
    (st.watchReg o).reg p = st.reg p := by
  unfold Stage.watchReg
  split
  · exact (Stage.reg_setReg ..).trans (if_neg hp)
  · rfl

/-- A watch that fires leaves the flip slots alone (R192). -/
theorem Stage.flips_watchReg (st : Stage) (o : Nat) :
    (st.watchReg o).prism.armed = st.prism.armed ∧ (st.watchReg o).prism.caps = st.prism.caps := by
  unfold Stage.watchReg
  split <;> exact ⟨rfl, rfl⟩

/-- The mirror of a write is kept in a Sector, not in a stage (R379). -/
theorem State.stage_mirror (s : State) (i b o j : Nat) : (s.mirror i b o).stage j = s.stage j := by
  unfold State.mirror
  extract_lets e x k
  split
  · rfl
  · split <;> rfl

/-- A write of a bound unit's register that meets no flip, no Chord write and no hold reaches its register (R23, R24, R218). -/
theorem State.stageWrite_eq_applyWrite (s : State) (ini : Initiator) {i o : Nat} (v mask : Word)
    (hbound : (s.stage i).unboundAt o = false) (hflip : (s.stage i).chord.flips = []) (harr : (s.stage i).chord.arrived = [])
    (hheld : (s.stage i).unitOf o = none ∨ (s.stage i).held = []) :
    s.stageWrite ini i o v mask = s.applyWrite State.pressAbort ini i o v mask := by
  have hpass : (((s.stage i).unitOf o).map (s.stage i).held.contains).getD false = false := by
    rcases hheld with h | h
    · rw [h]; rfl
    · rw [h]; cases (s.stage i).unitOf o <;> rfl
  simp [State.stageWrite, State.stageWriteWith, hbound, hflip, harr, hpass]

/-- A write whose register is a change `g` of the stage leaves the stage so changed, but for a watch that may fire, and the other
stages and memory as they were. -/
theorem State.applyWrite_local (s : State) {abort : State → Nat → State} {ini : Initiator} {i o : Nat} {v mask : Word}
    {g : Stage → Stage} (hi : i < 4) (hnote : (s.stage i).noteWrite ini o = s.stage i)
    (hwrite : ∀ s : State, s.writeReg abort ini i o v mask = s.modStage i g) :
    let t := s.applyWrite abort ini i o v mask
    (t.stage i = g (s.stage i) ∨ t.stage i = (g (s.stage i)).watchReg o) ∧ (∀ j, j ≠ i → t.stage j = s.stage j) ∧
      t.mem = s.mem := by
  unfold State.applyWrite
  extract_lets s1 s2 s3 t
  have h2 (j : Nat) : s2.stage j = if j = i then g (s.stage i) else s.stage j := by
    simp only [s2, s1, hwrite, State.stage_modStage, hi, hnote, and_true, if_true, eq_comm (a := i)]
    split <;> rfl
  have h3 : (s3.stage i = g (s.stage i) ∨ s3.stage i = (g (s.stage i)).watchReg o) ∧ (∀ j, j ≠ i → s3.stage j = s.stage j) ∧
      s3.mem = s.mem := by
    have hmem : s2.mem = s.mem := by simp only [s2, s1, hwrite, State.modStage_mem]
    unfold s3
    split
    · refine ⟨.inr ?_, fun j hj => ?_, hmem⟩
      · rw [State.stage_modStage, if_pos ⟨rfl, hi⟩, h2, if_pos rfl]
      · rw [State.stage_modStage, if_neg fun h => hj h.1.symm, h2, if_neg hj]
    · exact ⟨.inl ((h2 i).trans (if_pos rfl)), fun j hj => (h2 j).trans (if_neg hj), hmem⟩
  unfold t
  split
  · simpa only [State.stage_mirror, State.mirror_frame] using h3
  · exact h3

/-! ### Fences -/

/-- The first signal of a FAB cycle takes effect on its fence, whoever sends it, and on no other register (R182). -/
theorem Stage.reg_signalFence (st : Stage) (rank f : Nat) (add : Bool) (v : Word) (hcyc : st.cyc = {}) (p : Nat) :
    (st.signalFence rank f add v).reg p = if p = fenceReg f then fenceStep (st.reg (fenceReg f)) add v else st.reg p := by
  unfold Stage.signalFence
  extract_lets c first all now st'
  have hnow : now = fenceStep (st.reg (fenceReg f)) add v := by simp [now, all, first, c, hcyc]
  rw [Stage.reg_setReg, hnow]
  rfl

/-- The rows of the fence table (R182). -/
theorem stageRow_eq_fenceRows {o : Nat} (h0 : 0x1000 ≤ o) (h1 : o < 0x2000) :
    stageRow o = findRow Regs.fenceRows (o - 0x1000) :=
  (if_neg (Nat.not_lt.2 h0)).trans (if_pos h1)

theorem stageRow_fence {f : Nat} (hf : f < 256) : (stageRow (fenceReg f)).isSome = true := by
  have hoff : fenceReg f - 0x1000 = 4 * f := by unfold fenceReg; omega
  rw [stageRow_eq_fenceRows (by unfold fenceReg; omega) (by unfold fenceReg; omega), hoff, findRow, List.find?_isSome]
  exact ⟨_, List.mem_cons_self, by simp [hf]⟩

theorem stageRow_fenceAdd {f : Nat} (hf : f < 256) : (stageRow (fenceReg f + 0x400)).isSome = true := by
  have hoff : fenceReg f + 0x400 - 0x1000 = 4 * f + 0x400 := by unfold fenceReg; omega
  rw [stageRow_eq_fenceRows (by unfold fenceReg; omega) (by unfold fenceReg; omega), hoff, findRow, List.find?_isSome]
  exact ⟨_, List.mem_cons_of_mem _ List.mem_cons_self, by simp [hf]⟩

section
variable (s : State) (abort : State → Nat → State) (ini : Initiator) (i : Nat) {f : Nat} (v : Word)

theorem State.writeReg_fence (hf : f < 256) :
    s.writeReg abort ini i (fenceReg f) v 0xFFFFFFFF = s.modStage i (·.signalFence (fenceRank ini) f false v) := by
  obtain ⟨row, hrow⟩ := Option.isSome_iff_exists.1 (stageRow_fence hf)
  have hnum : (fenceReg f - 0x1000) / 4 = f := by unfold fenceReg; omega
  simp only [State.writeReg, hrow, hnum, merged_ones]
  rw [if_neg (by unfold fenceReg; omega), if_pos (by unfold fenceReg; omega)]

theorem State.writeReg_fenceAdd (hf : f < 256) :
    s.writeReg abort ini i (fenceReg f + 0x400) v 0xFFFFFFFF = s.modStage i (·.signalFence (fenceRank ini) f true v) := by
  obtain ⟨row, hrow⟩ := Option.isSome_iff_exists.1 (stageRow_fenceAdd hf)
  have hnum : (fenceReg f + 0x400 - 0x1400) / 4 = f := by unfold fenceReg; omega
  have hall : v &&& 0xFFFFFFFF = v := BitVec.and_allOnes
  simp only [State.writeReg, hrow, hnum, hall]
  rw [if_neg (by unfold fenceReg; omega), if_neg (by unfold fenceReg; omega), if_pos (by unfold fenceReg; omega)]

end

/-- A write of a register of the fence table that signals a fence: its stage takes the signal, and nothing else changes (R182). -/
theorem State.stageWrite_signal (s : State) (ini : Initiator) {i o f : Nat} {v : Word} {add : Bool} (hi : i < 4)
    (h0 : 0x1000 ≤ o) (h1 : o < 0x2000) (hflip : (s.stage i).chord.flips = []) (harr : (s.stage i).chord.arrived = [])
    (hcyc : (s.stage i).cyc = {})
    (hwrite : ∀ s : State, s.writeReg State.pressAbort ini i o v 0xFFFFFFFF =
      s.modStage i (·.signalFence (fenceRank ini) f add v)) :
    let t := s.stageWrite ini i o v 0xFFFFFFFF
    (∀ j, j ≠ i → t.stage j = s.stage j) ∧ t.mem = s.mem ∧
      ∀ g, g < 256 → (t.stage i).reg (fenceReg g) =
        if g = f then fenceStep ((s.stage i).reg (fenceReg g)) add v else (s.stage i).reg (fenceReg g) := by
  have hunit (x : Stage) : x.unitOf o = none := if_pos (by omega)
  have hbound (x : Stage) : x.unboundAt o = false := by
    simp [Stage.unboundAt, show ¬0x10000 ≤ o by omega, show ¬0x200000 ≤ o by omega, show ¬0x240000 ≤ o by omega]
  have hnote (x : Stage) : x.noteWrite ini o = x := by
    simp [Stage.noteWrite, isFlipReg, isClass0, prismBase, show ¬0x10000 ≤ o by omega, show ¬0x110000 ≤ o by omega,
      show ¬0x190000 ≤ o by omega]
  rw [s.stageWrite_eq_applyWrite ini v _ (hbound _) hflip harr (.inl (hunit _))]
  obtain ⟨hst, hother, hmem⟩ := s.applyWrite_local hi (hnote _) hwrite
  refine ⟨hother, hmem, fun g hg => ?_⟩
  have hkept (x : Stage) : (x.watchReg o).reg (fenceReg g) = x.reg (fenceReg g) :=
    x.reg_watchReg o (by unfold fenceReg prismBase; omega)
  have hreg : ((s.applyWrite State.pressAbort ini i o v 0xFFFFFFFF).stage i).reg (fenceReg g) =
      ((s.stage i).signalFence (fenceRank ini) f add v).reg (fenceReg g) := by
    rcases hst with h | h
    · rw [h]
    · rw [h, hkept]
  refine (hreg.trans (Stage.reg_signalFence _ _ f add v hcyc _)).trans ?_
  by_cases h : g = f
  · subst h
    rw [if_pos rfl, if_pos rfl]
  · rw [if_neg h, if_neg (by unfold fenceReg; omega)]

/-! ### Flip slots -/

/-- `PRISM_FLIPk_CTRL` (R183). -/
def flipCtrlReg (k : Nat) : Nat := prismBase + 0x30C + 16 * k

theorem stageRow_flipCtrl : ∀ k, k < 24 → (stageRow (flipCtrlReg k)).isSome = true := by decide

/-- A slot's control register is not of class 0, and no flip writes it (R146, R181). -/
theorem flipCtrlReg_class : ∀ k, k < 24 → isFlipReg (flipCtrlReg k) = false ∧ isClass0 (flipCtrlReg k) = false := by decide

theorem State.writeReg_flipCtrl (s : State) (abort : State → Nat → State) (ini : Initiator) (i : Nat) {k : Nat} (v : Word)
    (hk : k < 24) : s.writeReg abort ini i (flipCtrlReg k) v 0xFFFFFFFF = s.modStage i (·.flipCtrl k v) := by
  obtain ⟨row, hrow⟩ := Option.isSome_iff_exists.1 (stageRow_flipCtrl k hk)
  have ho : flipCtrlReg k = 0x190000 + (0x30C + 16 * k) := by unfold flipCtrlReg prismBase; omega
  have hprism (x : Stage) : x.writePrism ini (flipCtrlReg k - prismBase) row v 0xFFFFFFFF = x.flipCtrl k v := by
    have hq : flipCtrlReg k - prismBase = 0x30C + 16 * k := by unfold flipCtrlReg; omega
    have hcond : (decide (0x300 ≤ 0x30C + 16 * k) && decide (0x30C + 16 * k < 0x480) && (0x30C + 16 * k) % 16 == 0xC) = true := by
      simp only [Bool.and_eq_true, decide_eq_true_eq, beq_iff_eq]; omega
    have hnum : (0x30C + 16 * k - 0x300) / 16 = k := by omega
    simp only [Stage.writePrism, hq, hcond, hnum, merged_ones, if_true]
  simp only [State.writeReg, hrow, hprism]
  rw [if_neg (by omega), if_neg (by omega), if_neg (by omega), if_neg (by omega), if_neg (by omega), if_pos (by omega)]

/-- What a write of `PRISM_FLIPk_CTRL` with ARM captures (R183). -/
def Stage.flipCap (st : Stage) (k : Nat) (v : Word) : FlipCap :=
  let o := prismBase + 0x300 + 16 * k
  let unit := if k < 16 then 64 else 32
  { addr := ((st.reg o).toNat + (st.reg (o + 4)).toNat % 2 ^ 8 * 2 ^ 32) / unit * unit, target := st.reg (o + 8)
    fence := v.toNat % 2 ^ 8, nofence := bit v 8 }

/-- ARM captures the slot and arms it, CANCEL or not (R183). -/
theorem Stage.prism_flipCtrl_arm (st : Stage) (k : Nat) {v : Word} (h : bit v 31 = true) :
    (st.flipCtrl k v).prism = { st.prism with
      armed := bset st.prism.armed k true, caps := sset (fun _ => ({} : FlipCap)) st.prism.caps k (st.flipCap k v) } := by
  unfold Stage.flipCtrl
  extract_lets o st1 p cap
  have hreg (q : Nat) (hq : q < 0xC) : st1.reg (o + q) = st.reg (o + q) :=
    (Stage.reg_setReg ..).trans (if_neg (by omega))
  have hcap : cap = st.flipCap k v := by
    have h0 : st1.reg o = st.reg o := hreg 0 (by decide)
    simp only [cap, Stage.flipCap, h0, hreg 4 (by decide), hreg 8 (by decide), base40_eq]
    rw [Nat.mul_comm (2 ^ 32)]
    simp [fld, o]
  rw [if_pos h, hcap]
  rfl

/-- CANCEL without ARM disarms the slot (R183). -/
theorem Stage.prism_flipCtrl_cancel (st : Stage) (k : Nat) {v : Word} (h : bit v 31 = false) (hc : bit v 30 = true) :
    (st.flipCtrl k v).prism = { st.prism with armed := bset st.prism.armed k false } := by
  unfold Stage.flipCtrl
  extract_lets o st1 p cap
  rw [if_neg (by simp [h]), if_pos hc]
  rfl

/-- The capture depends on the fields FENCE and NOFENCE of the word written alone (R183). -/
theorem Stage.flipCap_arm (st : Stage) (k : Nat) (v : Word) : st.flipCap k (v ||| 0x80000000) = st.flipCap k v := by
  have hfence : (v ||| 0x80000000).toNat % 2 ^ 8 = v.toNat % 2 ^ 8 := by
    rw [BitVec.toNat_or, Nat.or_mod_two_pow]; simp
  have hbit : bit (v ||| 0x80000000) 8 = bit v 8 := by rw [bit_or]; simp [bit]
  simp only [Stage.flipCap, hfence, hbit]

/-- A write of `PRISM_FLIPk_CTRL` of a bound Prism: the slots of its stage are as the write leaves them, and the other stages and
memory as they were (R183). -/
theorem State.stageWrite_flipCtrl (s : State) (ini : Initiator) {i k : Nat} (v : Word) (hi : i < 4) (hk : k < 24)
    (hbind : ((s.stage i).bind 24).bound = true) (hheld : (s.stage i).held = []) (hflip : (s.stage i).chord.flips = [])
    (harr : (s.stage i).chord.arrived = []) :
    let t := s.stageWrite ini i (flipCtrlReg k) v 0xFFFFFFFF
    (∀ j, j ≠ i → t.stage j = s.stage j) ∧ t.mem = s.mem ∧
      (t.stage i).prism.armed = ((s.stage i).flipCtrl k v).prism.armed ∧
      (t.stage i).prism.caps = ((s.stage i).flipCtrl k v).prism.caps := by
  have ho : flipCtrlReg k = 0x19030C + 16 * k := rfl
  have hunit : (s.stage i).unitOf (flipCtrlReg k) = some 24 := by
    unfold Stage.unitOf
    rw [if_neg (by omega), if_neg (by omega), if_neg (by omega), if_pos (by omega)]
  have hbound : (s.stage i).unboundAt (flipCtrlReg k) = false := by
    unfold Stage.unboundAt
    rw [if_pos (by simp only [Bool.and_eq_true, decide_eq_true_eq]; omega), hunit]
    simp [hbind]
  have hnote : (s.stage i).noteWrite ini (flipCtrlReg k) = s.stage i := by
    obtain ⟨hflipReg, hclass⟩ := flipCtrlReg_class k hk
    simp [Stage.noteWrite, hflipReg, hclass]
  rw [s.stageWrite_eq_applyWrite ini v _ hbound hflip harr (.inr hheld)]
  obtain ⟨hst, hother, hmem⟩ := s.applyWrite_local hi hnote fun u => u.writeReg_flipCtrl State.pressAbort ini i v hk
  refine ⟨hother, hmem, ?_⟩
  rcases hst with h | h
  · rw [h]; exact ⟨rfl, rfl⟩
  · rw [h]; exact Stage.flips_watchReg ..

/-- Settles O40: a write of a flip slot's control register or of a fence acts on its stage alone, by the law of the register. -/
theorem flipsAreArmedAndFencesSet : Obligations.FlipsAreArmedAndFencesSet := by
  refine ⟨fun i k v s hi hk => ?_, fun ini i f v s hi hf hflip harr hcyc => ⟨fun hmay => ?_, fun hmay => ?_⟩⟩
  · intro x o unit hbind hheld hflip harr
    have hwrite (v : Word) := s.stageWrite_flipCtrl (.press i) v hi hk hbind hheld hflip harr
    refine ⟨?_, fun hv => ?_⟩
    · have harm : bit (v ||| 0x80000000) 31 = true := by rw [bit_or]; simp [bit]
      obtain ⟨hother, hmem, harmed, hcaps⟩ := hwrite (v ||| 0x80000000)
      rw [Stage.prism_flipCtrl_arm _ k harm] at harmed hcaps
      refine ⟨_, rfl, hother, hmem, fun j hj => ?_, ?_⟩
      · exact (congrArg (·.getLsbD j) harmed).trans (getLsbD_bset _ k true hj)
      · refine (congrArg (sget _ · k) hcaps).trans ?_
        rw [sget_sset, if_pos rfl, Stage.flipCap_arm]
        rfl
    · have hno : bit (v ||| 0x40000000) 31 = false := by rw [bit_or, hv]; simp [bit]
      have hcancel : bit (v ||| 0x40000000) 30 = true := by rw [bit_or]; simp [bit]
      obtain ⟨hother, hmem, harmed, hcaps⟩ := hwrite (v ||| 0x40000000)
      rw [Stage.prism_flipCtrl_cancel _ k hno hcancel] at harmed hcaps
      exact ⟨_, rfl, hother, hmem, fun j hj => (congrArg (·.getLsbD j) harmed).trans (getLsbD_bset _ k false hj), hcaps⟩
  · have hwindow (o : Nat) : s.windowWrite ini i o v = s.stageWrite ini i o v 0xFFFFFFFF := if_pos hmay
    refine ⟨⟨_, congrArg Host.Outcome.next (hwindow _), ?_⟩, ⟨_, congrArg Host.Outcome.next (hwindow _), ?_⟩⟩
    · exact s.stageWrite_signal ini hi (by unfold fenceReg; omega) (by unfold fenceReg; omega) hflip harr hcyc
        fun u => u.writeReg_fence _ ini i v hf
    · exact s.stageWrite_signal ini hi (by unfold fenceReg; omega) (by unfold fenceReg; omega) hflip harr hcyc
        fun u => u.writeReg_fenceAdd _ ini i v hf
  · have hwindow (o : Nat) : s.windowWrite ini i o v = s.accViol ini (0x12000000 + 0x400000 * i + o) :=
      if_neg (by simp [hmay])
    refine ⟨congrArg Host.Outcome.next ((hwindow _).trans ?_), congrArg Host.Outcome.next ((hwindow _).trans ?_)⟩ <;>
      congr 1 <;> unfold fenceReg <;> omega

end Sys2Proof.Machine

namespace Sys2Proof.Machine

/-! ### Issue of a Chord instruction -/

/-- The cycle of arrival of a write due at `d` that overtakes none of the writes of `l` (R207). -/
def lastDue (l : List ChordWrite) (d : Nat) : Nat := l.foldl (fun d e => if e.isFence then d else max d e.due) d

/-- The writes of `l` brought forward to cycle `d` at the latest; a fence signal keeps its cycle (R207, R212). -/
def broughtForward (l : List ChordWrite) (d : Nat) : List ChordWrite :=
  l.map fun e => if e.isFence then e else { e with due := min e.due d }

theorem Chord.send_late (c : Chord) (w : ChordWrite) :
    c.send w false = { c with flight := c.flight ++ [{ w with due := lastDue c.flight w.due }] } := rfl

theorem Chord.send_exact (c : Chord) (w : ChordWrite) :
    c.send w true = { c with flight := broughtForward c.flight w.due ++ [w] } := rfl

/-- A write waits for the latest of those before it, and for nothing else (R207). -/
theorem lastDue_spec (l : List ChordWrite) (d : Nat) :
    d ≤ lastDue l d ∧ (∀ o ∈ l, o.isFence = false → o.due ≤ lastDue l d) ∧
      (lastDue l d = d ∨ ∃ o ∈ l, o.isFence = false ∧ o.due = lastDue l d) := by
  induction l generalizing d with
  | nil => exact ⟨Nat.le_refl d, by simp, .inl rfl⟩
  | cons e r ih =>
    cases he : e.isFence
    case true =>
      have hstep : lastDue (e :: r) d = lastDue r d := by simp [lastDue, he]
      simpa [hstep, he] using ih d
    case false =>
      have hstep : lastDue (e :: r) d = lastDue r (max d e.due) := by simp [lastDue, he]
      obtain ⟨hle, hall, hreach⟩ := ih (max d e.due)
      rw [hstep]
      refine ⟨by omega, ?_, ?_⟩
      · rintro o (_ | ⟨_, ho⟩) hf
        · omega
        · exact hall o ho hf
      · rcases hreach with h | ⟨o, ho, hf, hd⟩
        · rcases Nat.le_total d e.due with hde | hde
          · exact .inr ⟨e, List.mem_cons_self, he, by omega⟩
          · exact .inl (by omega)
        · exact .inr ⟨o, List.mem_cons_of_mem e ho, hf, hd⟩

theorem broughtForward_due {l : List ChordWrite} {d : Nat} {o : ChordWrite} (ho : o ∈ broughtForward l d)
    (hf : o.isFence = false) : o.due ≤ d := by
  obtain ⟨e, -, rfl⟩ := List.mem_map.1 ho
  by_cases he : e.isFence = true
  · rw [if_pos he, he] at hf
    exact nomatch hf
  · rw [if_neg he]
    exact Nat.min_le_right ..

theorem Chord.advance_eq {c : Chord} (h : c.pc < 2047) : c.advance = { c with pc := c.pc + 1 } := if_neg (by omega)

/-- The instruction at the PC of stage `i`'s Chord, of opcode `o` and the 64 bits `w`, can issue. -/
def State.InstrIssues (s : State) (i o w : Nat) : Prop :=
  (s.stage i).chordIssues = true ∧ (s.stage i).chord.op = o ∧ (s.stage i).chord.instr = w

/-- A Chord that runs and does not wait, with a unit neither failed, frozen nor being rebound, issues (R23, R199, R204, R377). -/
theorem Stage.chordIssues_of {x : Stage} (hrun : x.chord.running = true) (hwait : x.chord.waiting = none)
    (hfault : x.chord.faulted = false) (hfrozen : x.prism.frozen = false) (hheld : 25 ∉ x.held) : x.chordIssues = true := by
  simp [Stage.chordIssues, hrun, hwait, hfault, hfrozen, hheld]

/-- An instruction that can issue does so under the command of its opcode. -/
theorem chordStep_eq {s : State} {i o w : Nat} (f : Nat → State → State) (h : s.InstrIssues i o w) :
    chordStep o i s f = .next (f w s) := by
  obtain ⟨hissue, hop, rfl⟩ := h
  simp [chordStep, hissue, hop]

/-- A field of one bit is that bit (R205). -/
theorem ifld_one (w lo : Nat) : (ifld w lo 1 = 1) = (w.testBit lo = true) := by
  rw [ifld, Nat.pow_one, Nat.testBit_eq_decide_div_mod_eq, decide_eq_true_eq]

theorem ifld_zero (w n : Nat) : ifld w 0 n = w % 2 ^ n := by rw [ifld, Nat.pow_zero, Nat.div_one]

/-- The low half of an instruction is its VALUE (R205). -/
theorem wd_ifld_zero (w : Nat) : wd (ifld w 0 32) = BitVec.ofNat 32 w := by
  rw [ifld_zero, wd]
  exact BitVec.eq_of_toNat_eq (by simp)

/-- A change of a Chord, after free values were drawn, changes nothing but its stage's Chord. -/
theorem State.modChord_onlyStageFree {s t : State} {i : Nat} {f : Chord → Chord} {c : Chord} (hi : i < 4)
    (hdraw : t = { s with nonce := t.nonce }) (hf : f (s.stage i).chord = c) :
    OnlyStageFree i s (t.modChord i f) ∧ (t.modChord i f).stage i = { s.stage i with chord := c } := by
  rw [hdraw, ← hf]
  refine ⟨⟨rfl, fun j hj => ?_⟩, ?_⟩
  · exact (State.stage_modStage ..).trans (if_neg fun h => hj h.1.symm)
  · exact (State.stage_modStage ..).trans (if_pos ⟨rfl, hi⟩)

/-- A WRITE or MASKWRITE sets out behind the writes on their way, 12 to 40 cycles from its register (R207). -/
theorem State.chordSend_spec (s : State) {i : Nat} (off : Nat) (v m : Word) (hi : i < 4) (hpc : (s.stage i).chord.pc < 2047) :
    ∃ d, s.fab + 12 ≤ d ∧ d ≤ s.fab + 40 ∧
      let c := (s.stage i).chord
      let t := s.chordSend i off v m
      OnlyStageFree i s t ∧ t.stage i = { s.stage i with chord := { c with
        pc := c.pc + 1, flight := c.flight ++ [{ due := lastDue c.flight d, off := off, val := v, mask := m }] } } := by
  refine ⟨s.fab + 12 + Config.chordDelay s.nonce % 29, by omega, by omega, ?_⟩
  refine State.modChord_onlyStageFree (t := s.draw.2) hi rfl ?_
  rw [Chord.send_late]
  exact Chord.advance_eq hpc

section
variable {s : State} {i w : Nat}

theorem exec_chordWrite (h : s.InstrIssues i 2 w) :
    exec (.chordWrite i) s = .next (s.chordSend i (4 * (w / 2 ^ 32 % 2 ^ 20)) (BitVec.ofNat 32 w) 0xFFFFFFFF) := by
  change execChordWrite i s = _
  rw [execChordWrite, chordStep_eq _ h, wd_ifld_zero]
  rfl

theorem exec_maskwrite (h : s.InstrIssues i 3 w) :
    let k := if w.testBit 52 then 2 ^ 16 else 1
    exec (.maskwrite i) s = .next (s.chordSend i (4 * (w / 2 ^ 32 % 2 ^ 20)) (BitVec.ofNat 32 (w % 2 ^ 16 * k))
      (BitVec.ofNat 32 (w / 2 ^ 16 % 2 ^ 16 * k))) := by
  change execMaskwrite i s = _
  rw [execMaskwrite, chordStep_eq _ h]
  simp only [ifld_one, ifld_zero]
  rfl

theorem exec_writeClass0 (h : s.InstrIssues i 4 w) :
    let o := 4 * (w / 2 ^ 32 % 2 ^ 20)
    let e : ChordWrite := { due := s.fab + 12, off := o, val := BitVec.ofNat 32 w, mask := 0xFFFFFFFF }
    exec (.writeClass0 i) s = .next (if isClass0 o then s.modChord i fun c => (c.send e true).advance
      else s.modStage i fun x => (x.chordFlag 4).modChord Chord.advance) := by
  change execWriteClass0 i s = _
  rw [execWriteClass0, chordStep_eq _ h, wd_ifld_zero]
  rfl

theorem exec_fenceSignal (h : s.InstrIssues i 7 w) :
    let e : ChordWrite := { due := s.fab + 40, off := w / 2 ^ 32 % 2 ^ 8, val := BitVec.ofNat 32 w
                            mask := if w.testBit 59 then 0xFFFFFFFF else 0, isFence := true }
    exec (.fenceSignal i) s = .next (s.modChord i fun c => Chord.advance { c with flight := c.flight ++ [e] }) := by
  change execFenceSignal i s = _
  rw [execFenceSignal, chordStep_eq _ h]
  simp only [ifld_one, wd_ifld_zero]
  rfl

end

/-- Settles O42: what issues sets out by the law of its instruction: a WRITE waits for the writes on their way (`lastDue_spec`), a
WRITE-CLASS0 brings them forward (`broughtForward_due`), and a fence signal does neither. -/
theorem chordWritesSetOut : Obligations.ChordWritesSetOut := by
  intro i s hi x c w hrun hwait hfault hfrozen hheld hpc sent inOrder off
  have hissue {o : Nat} (hop : c.op = o) : s.InstrIssues i o w :=
    ⟨Stage.chordIssues_of hrun hwait hfault hfrozen hheld, hop, rfl⟩
  have hsend (v m : Word) : ∃ d, sent (s.chordSend i off v m) { due := d, off := off, val := v, mask := m } c.flight ∧
      inOrder { due := d, off := off, val := v, mask := m } := by
    obtain ⟨d, hmin, hmax, hsent⟩ := s.chordSend_spec off v m hi hpc
    obtain ⟨hle, hall, hreach⟩ := lastDue_spec c.flight d
    exact ⟨_, hsent, Nat.le_trans hmin hle, hall, hreach.imp_left fun h => Nat.le_trans (Nat.le_of_eq h) hmax⟩
  refine ⟨fun hop => ?_, fun hop => ?_, fun hop => ⟨fun hclass => ?_, fun hclass => ?_⟩, fun hop => ?_⟩
  · obtain ⟨d, hd⟩ := hsend (BitVec.ofNat 32 w) 0xFFFFFFFF
    exact ⟨_, d, exec_chordWrite (hissue hop), hd⟩
  · intro k e
    obtain ⟨d, hd⟩ := hsend (BitVec.ofNat 32 (w % 2 ^ 16 * k)) (BitVec.ofNat 32 (w / 2 ^ 16 % 2 ^ 16 * k))
    exact ⟨_, d, exec_maskwrite (hissue hop), hd⟩
  · refine ⟨_, broughtForward c.flight (s.fab + 12), (exec_writeClass0 (hissue hop)).trans (congrArg _ (if_pos hclass)),
      State.modChord_onlyStageFree (t := s) hi rfl ?_, List.length_map .., fun o ho hf => broughtForward_due ho hf⟩
    rw [Chord.send_exact]
    exact Chord.advance_eq hpc
  · refine (exec_writeClass0 (hissue hop)).trans (congrArg _ ((if_neg (Bool.eq_false_iff.1 hclass)).trans ?_))
    exact congrArg (fun c => s.setStage i { x.setRegBit 0x1A0010 4 with chord := c }) (Chord.advance_eq hpc)
  · exact ⟨_, exec_fenceSignal (hissue hop), State.modChord_onlyStageFree (t := s) hi rfl (Chord.advance_eq hpc)⟩

end Sys2Proof.Machine

namespace Sys2Proof.Machine

/-! ### A quick-input edge judged with entries that stand as disarmed -/

/-- A device whose stage 0 owns quick input 0 and has reflexes enabled. Entry 0 selects its rising edge and is not armed; no edge has
come in this FAB cycle, and yet the entry is listed among those that ONESHOT disarmed in it. -/
def rearmed : State := State.reset.setStage 0
  { phase := .running, binds := [(25, { bound := true })], qiOwn := 1, regs := [(0x1A0000, 2), (0x1A1000, 2)]
    cyc := { shot := [0] } }

/-- The edge arms the listed entry again before it is judged, and so fires it (R8, R217). -/
theorem rearmed_fires : ∃ t, exec (.qiFilterAccept 0 true) rearmed = .next t ∧ (t.stage 0).chord.reflex ≠ [] :=
  ⟨_, rfl, by decide⟩

/-- Refutes O43: the statement takes the entries an edge fires from the registers as they stand, and asks only that no edge came
before in the FAB cycle. In `rearmed` no entry matches, and an entry fires: the model first arms again what `Cycle.shot` lists. -/
theorem not_quickInputsFireReflexes : ¬ Obligations.QuickInputsFireReflexes := by
  rintro ⟨hedge, -⟩
  have howner : rearmed.qiOwner 0 = some 0 := by decide
  obtain ⟨t, ht, -, -, -, -, -, hfire, -⟩ := (hedge 0 true rearmed (by decide) (by decide) (by decide)).2 0 howner
  obtain ⟨hnone, -⟩ := hfire rfl (by decide) rfl (List.forall_mem_nil _)
  have hempty : (t.stage 0).chord.reflex = [] := hnone (by decide)
  obtain ⟨t', ht', hsome⟩ := rearmed_fires
  obtain rfl : t' = t := Host.Outcome.next.inj (ht'.symm.trans ht)
  exact hsome hempty

end Sys2Proof.Machine

namespace Sys2Proof.Machine

/-! ### What the voices' blocks and the mixer work on -/

/-- Nothing of the sound changed but what the voices' blocks and the mixer work on: voices, ramps, effect units, limiters and the
voice of `SND_FIRST`. -/
def Sound.Worked (x y : Sound) : Prop :=
  y = { x with voices := y.voices, ramps := y.ramps, fx := y.fx, lim := y.lim, first := y.first }

theorem Sound.Worked.refl (x : Sound) : x.Worked x := rfl

theorem Sound.Worked.trans {x y z : Sound} (h : x.Worked y) (g : y.Worked z) : x.Worked z := by
  unfold Sound.Worked at g
  rw [h] at g
  exact g

theorem Sound.setVoice_worked (x : Sound) (v : Nat) (y : Voice) : x.Worked (x.setVoice v y) := rfl

theorem Sound.setRamp_worked (x : Sound) (k : Nat) (r : Ramp) : x.Worked (x.setRamp k r) := rfl

theorem Sound.setFx_worked (x : Sound) (m : Sparse Fx) : x.Worked { x with fx := m } := rfl

theorem Sound.setLim_worked (x : Sound) (m : Sparse Limiter) : x.Worked { x with lim := m } := rfl

/-- Nothing of the stage changed but registers, the Conserve of its Prism, the flags of the FAB cycle, and of its sound what the
voices' blocks and the mixer work on. -/
def Stage.Worked (x y : Stage) : Prop :=
  y = { x with regs := y.regs, prism := y.prism, cyc := y.cyc, sound := y.sound } ∧ x.sound.Worked y.sound

theorem Stage.Worked.refl (x : Stage) : x.Worked x := ⟨rfl, .refl _⟩

theorem Stage.Worked.trans {x y z : Stage} (h : x.Worked y) (g : y.Worked z) : x.Worked z := by
  refine ⟨?_, h.2.trans g.2⟩
  have h' := g.1
  rw [h.1] at h'
  exact h'

/-- A branch works on what both sides work on. -/
theorem Stage.Worked.ite {x a b : Stage} {c : Prop} [Decidable c] (ha : x.Worked a) (hb : x.Worked b) :
    x.Worked (if c then a else b) := by
  split <;> assumption

theorem Stage.modReg_worked (st : Stage) (o : Nat) (f : Word → Word) : st.Worked (st.modReg o f) := ⟨rfl, .refl _⟩

theorem Stage.sndEvent_worked (st : Stage) (i : Nat) : st.Worked (st.sndEvent i) := ⟨rfl, .refl _⟩

theorem Stage.modSound_worked (st : Stage) {f : Sound → Sound} (h : st.sound.Worked (f st.sound)) : st.Worked (st.modSound f) :=
  ⟨rfl, h⟩

/-- A fold that carries a stage works on what each round works on. -/
theorem Stage.Worked.foldl_fst {α β : Type} {g : Stage × β → α → Stage × β}
    (h : ∀ (q : Stage × β) (a : α), q.1.Worked (g q a).1) (l : List α) (q : Stage × β) : q.1.Worked (l.foldl g q).1 :=
  List.foldlRecOn (motive := fun r => q.1.Worked r.1) l g (.refl _) fun r hr a _ => hr.trans (h r a)

/-- A fold over the sound works on what each round works on. -/
theorem Sound.Worked.foldl {α : Type} {g : Sound → α → Sound} (h : ∀ (x : Sound) (a : α), x.Worked (g x a)) (l : List α)
    (x : Sound) : x.Worked (l.foldl g x) :=
  List.foldlRecOn (motive := x.Worked) l g (.refl _) fun _ hy a _ => hy.trans (h _ a)

section
variable {x y : Stage} (h : x.Worked y)
include h

theorem Stage.Worked.bind (b : Nat) : y.bind b = x.bind b := by rw [h.1]; rfl

theorem Stage.Worked.brambles : y.brambles = x.brambles := by rw [h.1]; rfl

theorem Stage.Worked.homeEntry : y.homeEntry = x.homeEntry := by rw [Stage.homeEntry, h.brambles, ← Stage.homeEntry]

theorem Stage.Worked.entrySilent (k : Nat) : y.entrySilent k = x.entrySilent k := by
  have hf : y.sound.faulted = x.sound.faulted := by rw [h.2]
  have hh : y.held = x.held := by rw [h.1]
  rw [Stage.entrySilent, h.bind, hf, hh, ← Stage.entrySilent]

end

/-! ### The block boundary of a stage -/

theorem Stage.noteVoice_worked (st : Stage) (v : Nat) (x : Voice) (o : VoiceOut) : st.Worked (st.noteVoice v x o) := by
  unfold Stage.noteVoice
  extract_lets st1 st2 st3 st4
  have h1 : st.Worked st1 := st.modSound_worked (Sound.setVoice_worked ..)
  have h2 : st1.Worked st2 := Stage.modReg_worked ..
  have h3 : st2.Worked st3 := .ite (.refl _) (Stage.modReg_worked ..)
  have h4 : st3.Worked st4 := .ite (.refl _) (st3.modSound_worked rfl)
  have h := (h1.trans h2).trans h3
  exact .ite ((h.trans h4).trans (st4.sndEvent_worked 1)) h

theorem Sound.aimAll_worked (x : Sound) (first : Bool) : x.Worked (x.aimAll first) := by
  unfold Sound.aimAll
  exact .foldl (fun _ _ => Sound.setRamp_worked ..) ..

theorem Sound.fxConfig_worked (x : Sound) : x.Worked x.fxConfig := by
  refine .foldl (fun y e => ?_) ..
  dsimp only
  split
  · exact .refl y
  · exact y.setFx_worked _

theorem Sound.limConfig_worked (x : Sound) : x.Worked x.limConfig := by
  unfold Sound.limConfig
  exact .foldl (fun _ _ => Sound.setLim_worked ..) ..

/-- The stage with the snapshot `snap` taken and the next block begun, before the blocks of its voices (R224, R249). -/
def Stage.beginBlock (st : Stage) (snap : Sparse Word) : Stage :=
  st.modSound fun s => { s with snap := snap, blocks := s.blocks + 1, entries := st.brambles }

theorem Stage.Worked.beginBlock {x y : Stage} (h : x.Worked y) (snap : Sparse Word) :
    (x.beginBlock snap).Worked (y.beginBlock snap) := by
  have hb := h.brambles
  obtain ⟨hy, hs⟩ := h
  refine ⟨?_, ?_⟩
  · unfold Stage.beginBlock Stage.modSound
    rw [hy]
  · unfold Stage.beginBlock Stage.modSound Sound.Worked
    rw [hs, hb]

/-- A block boundary takes the snapshot and begins the block; the rest is the work of the voices and the mixer (R224). -/
theorem Stage.blockBoundary_worked (st : Stage) (m : Source) (late : List Nat) :
    (st.beginBlock st.sndSnap).Worked (st.blockBoundary m late).1 := by
  unfold Stage.blockBoundary
  extract_lets old new first voices
  split
  next y rd heq =>
  have hy : st.Worked y := by
    rw [show y = _ from (congrArg Prod.fst heq).symm]
    refine Stage.Worked.foldl_fst (fun q v => ?_) _ (st, [])
    split
    · exact .refl _
    · exact Stage.noteVoice_worked ..
  extract_lets count y1 y2 every
  have h1 : (y.beginBlock new).Worked y1 :=
    Stage.modSound_worked _ (f := fun s => ((s.aimAll first).fxConfig).limConfig)
      (((Sound.aimAll_worked ..).trans (Sound.fxConfig_worked _)).trans (Sound.limConfig_worked _))
  have h2 : y1.Worked y2 := .ite (Stage.sndEvent_worked ..) (.refl _)
  have h := ((hy.beginBlock new).trans h1).trans h2
  dsimp only
  split
  · exact h.trans (Stage.sndEvent_worked ..)
  · exact h

/-! ### One sample of the mixer -/

theorem Stage.throughFx_worked (st : Stage) (fv slot : Nat) (x : Stereo) : st.Worked (st.throughFx fv slot x).2 := by
  unfold Stage.throughFx
  extract_lets s f
  split
  · exact .refl _
  · split
    · exact .refl _
    · exact ⟨rfl, rfl⟩

theorem Stage.busStep_worked (fv : Nat) (q : Stage × Sums) (b : Nat) : q.1.Worked (Stage.busStep fv q b).1 := by
  obtain ⟨st, sums⟩ := q
  unfold Stage.busStep
  dsimp -zeta only
  extract_lets x y st1 w
  have h1 : st.Worked st1 := .ite ((st.modReg_worked ..).trans (Stage.sndEvent_worked ..)) (.refl _)
  exact (h1.trans (st1.throughFx_worked fv (fld w 0 4) y)).trans (Stage.throughFx_worked ..)

theorem Stage.pairStep_worked (sums : Sums) (q : Stage × List (Int × Int)) (p : Nat) :
    q.1.Worked (Stage.pairStep sums q p).1 := by
  obtain ⟨st, outs⟩ := q
  have h (m : Sparse Limiter) (f : Word → Word) :
      st.Worked ((st.modSound fun s => { s with lim := m }).modReg (outReg p 8) f) := ⟨rfl, st.sound.setLim_worked m⟩
  unfold Stage.pairStep
  dsimp only
  exact .ite (((h _ _).trans (Stage.modReg_worked ..)).trans (Stage.sndEvent_worked ..)) (h _ _)

theorem Stage.mixSample_worked (st : Stage) (fv k : Nat) : st.Worked (st.mixSample fv k).1 := by
  unfold Stage.mixSample
  extract_lets z voices sums
  have hb := Stage.Worked.foldl_fst (Stage.busStep_worked fv) (List.range 16) (st, sums)
  generalize (List.range 16).foldl (Stage.busStep fv) (st, sums) = q at hb ⊢
  obtain ⟨x, sums⟩ := q
  dsimp -zeta only at hb ⊢
  have hp := Stage.Worked.foldl_fst (Stage.pairStep_worked sums) (List.range 4) (x, [])
  generalize (List.range 4).foldl (Stage.pairStep sums) (x, []) = q at hp ⊢
  obtain ⟨y, pairs⟩ := q
  dsimp only at hp ⊢
  exact (hb.trans hp).trans (Stage.modSound_worked _ (.foldl (fun _ _ => Sound.setRamp_worked ..) ..))

/-- The home cluster gives its samples (R222, R248). -/
def Stage.homeSounds (st : Stage) : Bool := match st.homeEntry with | some k => !st.entrySilent k | none => false

theorem Stage.homeSounds_iff (st : Stage) : st.homeSounds = true ↔ ∃ k, st.homeEntry = some k ∧ st.entrySilent k = false := by
  unfold Stage.homeSounds
  cases st.homeEntry <;> simp

theorem Stage.Worked.homeSounds {x y : Stage} (h : x.Worked y) : y.homeSounds = x.homeSounds := by
  simp only [Stage.homeSounds, h.homeEntry, h.entrySilent]

/-- The stage after a strobe that took in the sample `new` and put out `o` (R224, R246). -/
def Stage.strobed (st : Stage) (new o : List (Nat × Int × Int)) : Stage :=
  st.modSound fun s => { s with
    strobe := s.strobe + 1, queue := s.queue.tail ++ [new], out := o, pins := st.pinsOf, past := [s.out] }

/-- A strobe of a stage that sounds, with 16 samples under way: a sample is mixed, and the one mixed 16 strobes before leaves the
mixer, or zeros while the home cluster gives nothing (R224, R248). -/
theorem Stage.strobe_sounding {st : Stage} (fv : Nat) (hmuted : st.sound.muted = false) (hstop : st.sound.stopRamp = none)
    (hlen : st.sound.queue.length = 16) : ∃ y new, st.Worked y ∧ st.strobe fv = y.strobed new
      (if st.homeSounds then st.sound.queue.headD [] else (st.sound.queue.headD []).map fun e => (e.1, 0, 0)) := by
  have hy := st.mixSample_worked fv (st.sound.strobe % 16)
  unfold Stage.strobe
  generalize st.mixSample fv (st.sound.strobe % 16) = q at hy ⊢
  obtain ⟨y, new⟩ := q
  have hym : y.sound.muted = false := by rw [hy.2]; exact hmuted
  have hys : y.sound.stopRamp = none := by rw [hy.2]; exact hstop
  have hyq : y.sound.queue = st.sound.queue := by rw [hy.2]
  obtain ⟨a, r, hq⟩ := List.exists_cons_of_length_eq_add_one hlen
  have hr : r.length = 15 := by simpa [hq] using hlen
  refine ⟨y, new, hy, ?_⟩
  simp [hmuted, Stage.strobed, Stage.modSound, hym, hys, hyq, hq, hr, ← hy.homeSounds]
  rfl

/-! ### What the strobe command does -/

theorem execSampleStrobe_not_due {s : State} {i : Nat} (h : (s.stage i).strobeDue = false) :
    execSampleStrobe i s = .next s := by
  simp [execSampleStrobe, h]

/-- A load that waits for the slot to be free goes on waiting while it holds a stage (R74). -/
theorem State.slotLeft_of_occupied {s : State} {i : Nat} (h : (s.stage i).phase ≠ .empty) : s.slotLeft i = s := by
  simp [State.slotLeft, h]

/-- A strobe that falls due in a slot that holds a stage, with its block begun: the stage takes it, and nothing else changes but the
count of free values (R223). -/
theorem execSampleStrobe_due {s : State} {i : Nat} (hi : i < 4) (hstart : (s.stage i).sound.started = true)
    (hdue : (s.stage i).strobeDue = true) (hblock : (s.stage i).sound.blocks = (s.stage i).sound.strobe / 16 + 1) :
    let y := (((s.stage i).takeStrobe s.root).strobe s.nonce).leave
    y.phase ≠ .empty → execSampleStrobe i s = .next (s.draw.2.setStage i y) := by
  intro y hphase
  have hleft := State.slotLeft_of_occupied (s := s.draw.2.setStage i y) (i := i)
    (by rw [State.stage_setStage, if_pos ⟨rfl, hi⟩]; exact hphase)
  rw [execSampleStrobe, if_pos (by simp [hstart, hdue, hblock])]
  exact congrArg Host.Outcome.next hleft

/-! ### VOICE_CLASS_STEP -/

theorem Stage.classStep_of_not_due {x : Stage} {v : Nat} (h : x.sound.stepDue v = false) : x.classStep v = x := by
  simp [Stage.classStep, h]

theorem Sound.stepDue_of_stepAt {x : Sound} {v a : Nat} (ha : (x.voice v).stepAt = some a) (hle : 16 * (x.blocks - 1) + a ≤ x.strobe) :
    x.stepDue v = true := by
  simp [Sound.stepDue, ha, hle]

theorem Sound.voice_setVoice (x : Sound) (v : Nat) (y : Voice) (u : Nat) :
    (x.setVoice v y).voice u = if u = v then y else x.voice u := sget_sset _ _ _ _ u

/-- The voice with the values of its step in force (R244). -/
def Sound.steppedVoice (x : Sound) (v : Nat) : Voice :=
  { x.voice v with
    level := x.eff (voiceBase v + 8), pan := min 256 ((x.eff (voiceBase v + 0xC)).toNat % 2 ^ 9), pend := false, pendT := 0
    stepAt := none, stepTo := (x.voice v).stepLate }

theorem fld_zero (w : Word) (n : Nat) : fld w 0 n = w.toNat % 2 ^ n := by rw [fld, Nat.pow_zero, Nat.div_one]

theorem Stage.classStep_of_due {x : Stage} {v : Nat} (h : x.sound.stepDue v = true) :
    x.classStep v = x.modSound (·.setVoice v (x.sound.steppedVoice v)) := by
  simp [Stage.classStep, h, Stage.modSound, Sound.steppedVoice, fld_zero]

/-! ### VOICE_FEED -/

/-- Bytes that the buffer of voice `v` holds (R237). -/
def Sound.streamSize (x : Sound) (v : Nat) : Nat :=
  2 ^ max 12 (min 24 ((x.eff (voiceBase v + 0x68)).toNat / 2 ^ 24 % 2 ^ 5))

/-- A bound voice is fed: FILL rises up to the size of the buffer, and OVERFEED shows that bytes were lost (R237). -/
theorem Stage.feedVoice_bound {x : Stage} {v : Nat} (n : Nat) (h : x.voiceBound v = true) :
    let size := x.sound.streamSize v
    let fill := (x.sound.voice v).fill + n
    ((x.feedVoice v n).sound.voice v).fill = min size fill ∧
      (size < fill → bit ((x.feedVoice v n).reg (voiceBase v + 0x80)) 3 = true) ∧
      ∀ u, u ≠ v → (x.feedVoice v n).sound.voice u = x.sound.voice u := by
  intro size fill
  have hset (y : Voice) (hy : y.fill = min size fill) : ((x.sound.setVoice v y).voice v).fill = min size fill ∧
      ∀ u, u ≠ v → (x.sound.setVoice v y).voice u = x.sound.voice u :=
    ⟨by rw [Sound.voice_setVoice, if_pos rfl, hy], fun u hu => by rw [Sound.voice_setVoice, if_neg hu]⟩
  unfold Stage.feedVoice
  rw [h, Bool.not_true, if_neg Bool.false_ne_true]
  extract_lets w cap y full f z x1
  obtain ⟨hfill, hothers⟩ := hset z rfl
  by_cases hlt : size < fill
  · rw [if_pos (show full = true from decide_eq_true hlt)]
    refine ⟨hfill, fun _ => ?_, hothers⟩
    rw [Stage.setRegBit, Stage.modReg, Stage.reg_setReg, if_pos rfl, bit_setBit, if_pos (by decide)]
  · rw [if_neg (show ¬full = true from fun e => hlt (of_decide_eq_true e))]
    exact ⟨hfill, fun e => absurd e hlt, hothers⟩

/-- `VOICE_FEED` of a voice is a register, of no class 0 and written by no flip (R229, R237). -/
theorem stageRow_voiceFeed {v : Nat} (hv : v < 1024) : (stageRow (voiceBase v + 0x70)).isSome = true := by
  have ho : (voiceBase v + 0x70) % 0x100 = 0x70 := by unfold voiceBase; omega
  have hrow : stageRow (voiceBase v + 0x70) = findRow Regs.voiceRows 0x70 := by
    unfold stageRow
    rw [ho]
    repeat rw [if_neg (by unfold voiceBase; omega)]
    rw [if_pos (by unfold voiceBase; omega)]
  rw [hrow]
  decide

theorem State.writeReg_voiceFeed (s : State) (abort : State → Nat → State) (ini : Initiator) (i : Nat) {v : Nat} (n : Word)
    (hv : v < 1024) :
    s.writeReg abort ini i (voiceBase v + 0x70) n 0xFFFFFFFF = s.modStage i (·.feedVoice v (n.toNat % 2 ^ 25)) := by
  obtain ⟨row, hrow⟩ := Option.isSome_iff_exists.1 (stageRow_voiceFeed hv)
  have hnum : (voiceBase v + 0x70 - 0x200000) / 0x100 = v := by unfold voiceBase; omega
  have hall : n &&& 0xFFFFFFFF = n := BitVec.and_allOnes
  have hcond : (decide (voiceBase v + 0x70 < 0x240000) && decide ((voiceBase v + 0x70) % 0x100 = 0x70)) = true := by
    simp only [Bool.and_eq_true, decide_eq_true_eq]; unfold voiceBase; omega
  simp only [State.writeReg, hrow, Stage.writeBramble, hnum, hall, hcond, if_true, fld_zero]
  repeat rw [if_neg (by unfold voiceBase; omega)]

/-- A watch that fires leaves the sound alone (R192). -/
theorem Stage.sound_watchReg (st : Stage) (o : Nat) : (st.watchReg o).sound = st.sound := by
  unfold Stage.watchReg
  split <;> rfl

/-- A write of `VOICE_FEED` of a bound voice that meets no hold, flip or Chord write feeds the voice, but for a watch that may fire,
and leaves the other stages and memory as they were (R237). -/
theorem State.stageWrite_voiceFeed (s : State) (ini : Initiator) {i v : Nat} (n : Word) (hi : i < 4) (hv : v < 1024)
    (hbound : (s.stage i).voiceBound v = true) (hheld : (s.stage i).held = []) (hflip : (s.stage i).chord.flips = [])
    (harr : (s.stage i).chord.arrived = []) :
    let t := s.stageWrite ini i (voiceBase v + 0x70) n 0xFFFFFFFF
    let x := (s.stage i).feedVoice v (n.toNat % 2 ^ 25)
    (t.stage i).sound = x.sound ∧ (t.stage i).reg (voiceBase v + 0x80) = x.reg (voiceBase v + 0x80) ∧
      (∀ j, j ≠ i → t.stage j = s.stage j) ∧ t.mem = s.mem := by
  have hnum : (voiceBase v + 0x70 - 0x200000) / 0x100 = v := by unfold voiceBase; omega
  have hunbound : (s.stage i).unboundAt (voiceBase v + 0x70) = false := by
    unfold Stage.unboundAt
    rw [if_neg (by simp only [Bool.and_eq_true, decide_eq_true_eq]; unfold voiceBase; omega),
      if_pos (by simp only [Bool.and_eq_true, decide_eq_true_eq]; unfold voiceBase; omega), hnum, hbound]
    rfl
  have hnote : (s.stage i).noteWrite ini (voiceBase v + 0x70) = s.stage i := by
    have hflipReg : isFlipReg (voiceBase v + 0x70) = false := by
      simp [isFlipReg, show ¬voiceBase v + 0x70 < 0x110000 by unfold voiceBase; omega,
        show ¬voiceBase v + 0x70 < 0x190000 by unfold voiceBase; omega]
    have hclass : isClass0 (voiceBase v + 0x70) = false := by
      simp [isClass0, show ¬voiceBase v + 0x70 < 0x110000 by unfold voiceBase; omega,
        show ¬voiceBase v + 0x70 < 0x190000 by unfold voiceBase; omega,
        show ¬voiceBase v + 0x70 < prismBase + 0x10000 by unfold voiceBase prismBase; omega]
    simp [Stage.noteWrite, hflipReg, hclass]
  intro t x
  unfold t
  rw [s.stageWrite_eq_applyWrite ini n _ hunbound hflip harr (.inr hheld)]
  obtain ⟨hst, hother, hmem⟩ := s.applyWrite_local hi hnote fun u => u.writeReg_voiceFeed State.pressAbort ini i n hv
  refine ⟨?_, ?_, hother, hmem⟩
  · rcases hst with h | h <;> rw [h]
    exact Stage.sound_watchReg ..
  · rcases hst with h | h <;> rw [h]
    exact Stage.reg_watchReg _ _ (by unfold voiceBase prismBase; omega)

end Sys2Proof.Machine

namespace Sys2Proof.Machine

/-! ### What leaves every stage as it was -/

@[simp] theorem State.stages_setBytes (s : State) (a : Nat) (bs : List Byte) : (s.setBytes a bs).stages = s.stages := by
  rw [s.setBytes_eq]

@[simp] theorem State.stages_setSymbols (s : State) (a n : Nat) : (s.setSymbols a n).stages = s.stages := rfl

@[simp] theorem State.stages_corrected (s : State) (a : Nat) : (s.corrected a).stages = s.stages := rfl

@[simp] theorem State.stages_uncorrectable (s : State) (a : Nat) : (s.uncorrectable a).stages = s.stages := by
  unfold State.uncorrectable
  dsimp only
  split <;> rfl

@[simp] theorem State.stages_upset (s : State) (a n : Nat) : (s.upset a n).stages = s.stages := by
  unfold State.upset
  split <;> rfl

@[simp] theorem State.stages_readWord (s : State) (fv a : Nat) : (s.readWord fv a).2.stages = s.stages := by
  unfold State.readWord
  extract_lets w n
  split
  · rfl
  · split
    · rfl
    · split <;> simp

/-- A fold leaves the stages as they were if each round does. -/
theorem stages_foldl {α : Type} {g : State → α → State} (h : ∀ s a, (g s a).stages = s.stages) (l : List α) (s : State) :
    (l.foldl g s).stages = s.stages :=
  List.foldlRecOn (motive := fun t : State => t.stages = s.stages) l g rfl fun t ht a _ => (h t a).trans ht

@[simp] theorem State.stages_readWords (s : State) (fv : Nat) (ws : List Nat) : (s.readWords fv ws).2.stages = s.stages :=
  List.foldlRecOn (motive := fun q : List Nat × State => q.2.stages = s.stages) ws _ rfl
    fun q hq w _ => (q.2.stages_readWord fv w).trans hq

@[simp] theorem State.stages_readRanges (s : State) (rs : List (Nat × Nat)) : (s.readRanges rs).2.stages = s.stages := by
  unfold State.readRanges
  split
  · rfl
  · exact s.draw.2.stages_readWords ..

@[simp] theorem State.stages_openRanges (s : State) (rs : List (Nat × Nat)) (whole : Nat → Bool) :
    (s.openRanges rs whole).2.stages = s.stages := by
  unfold State.openRanges
  split
  · rfl
  · exact (State.stages_readWords ..).trans (stages_foldl (fun s w => s.stages_setSymbols w 0) _ s.draw.2)

@[simp] theorem State.stages_fetchBytes (s : State) (a n : Nat) : (s.fetchBytes a n).2.2.stages = s.stages :=
  s.stages_readRanges _

@[simp] theorem State.stages_putBytes (s : State) (ws : List Nat) (a : Nat) (bs : List Byte) :
    (s.putBytes ws a bs).stages = s.stages := by
  induction bs generalizing s a with
  | nil => rfl
  | cons b r ih =>
    rw [State.putBytes, ih]
    split <;> rfl

@[simp] theorem State.stages_storeBytes (s : State) (a : Nat) (bs : List Byte) : (s.storeBytes a bs).stages = s.stages := by
  have h := s.stages_openRanges [(a, bs.length)] (inOne [(a, bs.length)])
  unfold State.storeBytes
  split
  · next t e => rw [e] at h; exact (t.stages_setBytes a bs).trans h
  · next ws t _ e => rw [e] at h; exact (t.stages_putBytes ws a bs).trans h

@[simp] theorem State.stages_source (s : State) (i : Nat) : (s.source i).2.stages = s.stages := rfl

theorem QueueMoved.stages {s t : State} (h : QueueMoved s t) : t.stages = s.stages := by rw [h.1]

@[simp] theorem State.stages_badBell (s : State) (g n i : Nat) : (s.badBell g n i).stages = s.stages := by
  unfold State.badBell
  extract_lets w s1
  simp only [s1, State.setDreg_stages]
  split <;> rfl

theorem State.stages_startStore (s : State) (c : Nat) : (s.startStore c).stages = s.stages := by
  unfold State.startStore
  extract_lets d todo s1
  split
  · rfl
  · exact (State.issueAll_queueMoved _).stages

/-! ### What stage `i`'s reads and doorbells can reach of the stages -/

/-- No stage but `i` changed, and of stage `i` nothing but what its voices and mixer work on, and the marks of its accesses. -/
def WorkedAt (i : Nat) (s t : State) : Prop := (∀ j, j ≠ i → t.stage j = s.stage j) ∧ (s.stage i).Worked (t.stage i)

theorem WorkedAt.refl (i : Nat) (s : State) : WorkedAt i s s := ⟨fun _ _ => rfl, .refl _⟩

theorem WorkedAt.trans {i : Nat} {s t u : State} (h : WorkedAt i s t) (g : WorkedAt i t u) : WorkedAt i s u :=
  ⟨fun j hj => (g.1 j hj).trans (h.1 j hj), h.2.trans g.2⟩

theorem WorkedAt.ite {i : Nat} {s a b : State} {c : Prop} [Decidable c] (ha : WorkedAt i s a) (hb : WorkedAt i s b) :
    WorkedAt i s (if c then a else b) := by
  split <;> assumption

theorem WorkedAt.foldl {i : Nat} {α : Type} {g : State → α → State} (h : ∀ s a, WorkedAt i s (g s a)) (l : List α) (s : State) :
    WorkedAt i s (l.foldl g s) :=
  List.foldlRecOn (motive := WorkedAt i s) l g (.refl i s) fun t ht a _ => ht.trans (h t a)

theorem workedAt_of_stages {i : Nat} {s t : State} (h : t.stages = s.stages) : WorkedAt i s t := by
  have hs (j : Nat) : t.stage j = s.stage j := by rw [State.stage, h, ← State.stage]
  exact ⟨fun j _ => hs j, by rw [hs]; exact .refl _⟩

theorem State.setChan_workedAt (i : Nat) (s : State) (c : Nat) (v : VChan) : WorkedAt i s (s.setChan c v) := workedAt_of_stages rfl

theorem State.setRing_workedAt (i : Nat) (s : State) (g n : Nat) (r : RingCtx) : WorkedAt i s (s.setRing g n r) :=
  workedAt_of_stages rfl

theorem State.dropRing_workedAt (i : Nat) (s : State) (g n : Nat) : WorkedAt i s (s.dropRing g n) := workedAt_of_stages rfl

theorem State.chanFlag_workedAt (i : Nat) (s : State) (c k : Nat) : WorkedAt i s (s.chanFlag c k) := workedAt_of_stages rfl

theorem State.dropCmds_workedAt (i : Nat) (s : State) (c : Nat) : WorkedAt i s (s.dropCmds c) := workedAt_of_stages rfl

theorem State.modStage_workedAt (s : State) (i : Nat) {f : Stage → Stage} (h : (s.stage i).Worked (f (s.stage i))) :
    WorkedAt i s (s.modStage i f) := by
  refine ⟨fun j hj => by rw [State.stage_modStage, if_neg fun e => hj e.1.symm], ?_⟩
  rw [State.stage_modStage]
  split
  · exact h
  · exact .refl _

theorem Stage.blockOut_worked (st : Stage) (initiator lindex a : Nat) (write : Bool) :
    st.Worked (st.blockOut initiator lindex a write) := by
  unfold Stage.blockOut
  extract_lets w first take w1 w2 st1
  exact .ite ⟨rfl, .refl _⟩ ⟨rfl, .refl _⟩

theorem State.blockOut_workedAt (s : State) (i initiator lindex a : Nat) (write : Bool) :
    WorkedAt i s (s.blockOut i initiator lindex a write) :=
  s.modStage_workedAt i (Stage.blockOut_worked ..)

theorem State.watchMem_workedAt (s : State) (i a n : Nat) : WorkedAt i s (s.watchMem i a n) :=
  s.modStage_workedAt i (.ite ⟨rfl, .refl _⟩ (.refl _))

theorem State.recordReads_workedAt (s : State) (i initiator lindex : Nat) (r : Source) (reads : List (Nat × Nat)) :
    WorkedAt i s (s.recordReads i initiator lindex r reads) :=
  (WorkedAt.foldl (fun s a => s.blockOut_workedAt i initiator lindex a false) _ s).trans
    (workedAt_of_stages (State.stages_readWords ..))

theorem State.groupRead_workedAt (s : State) (g a n : Nat) : WorkedAt g s (s.groupRead g a n).2.2 := by
  unfold State.groupRead
  split
  · exact s.blockOut_workedAt ..
  · exact workedAt_of_stages (s.stages_fetchBytes a n)

theorem State.groupWrite_workedAt (s : State) (g a : Nat) (bs : List Byte) : WorkedAt g s (s.groupWrite g a bs) :=
  .ite (s.blockOut_workedAt ..) ((workedAt_of_stages (s.stages_storeBytes a bs)).trans (State.watchMem_workedAt ..))

theorem State.writeCtx_workedAt (s : State) (g n : Nat) (r : RingCtx) (o k : Nat) : WorkedAt g s (s.writeCtx g n r o k) :=
  s.groupWrite_workedAt ..

theorem State.statusRecord_workedAt (s : State) (c code : Nat) : WorkedAt (chanGroup c) s (s.statusRecord c code) :=
  .ite (.refl _ s) (s.groupWrite_workedAt ..)

theorem State.endEntry_workedAt (s : State) (g n code : Nat) : WorkedAt g s (s.endEntry g n code) := by
  unfold State.endEntry
  extract_lets r0 r t
  have h : WorkedAt g s t := (s.setRing_workedAt ..).trans (State.writeCtx_workedAt ..)
  exact .ite (h.trans (t.dropRing_workedAt ..)) h

theorem State.stopChan_workedAt (s : State) (c code written : Nat) : WorkedAt (chanGroup c) s (s.stopChan c code written) := by
  unfold State.stopChan
  extract_lets t v resid t1 t2
  have h1 : WorkedAt (chanGroup c) s t1 :=
    ((s.dropCmds_workedAt _ c).trans (t.setChan_workedAt ..)).trans (State.statusRecord_workedAt ..)
  have h2 : WorkedAt (chanGroup c) t1 t2 := by
    unfold t2
    split
    · exact t1.endEntry_workedAt ..
    · exact .refl _ t1
  exact .ite (h1.trans h2) ((h1.trans h2).trans (t2.chanFlag_workedAt ..))

theorem State.beginDesc_workedAt (s : State) (c a : Nat) (ring : Option (Nat × Nat)) :
    WorkedAt (chanGroup c) s (s.beginDesc c a ring) := by
  unfold State.beginDesc
  extract_lets g v0 v ok inside
  have h0 : WorkedAt g s (if ok = true then s.groupRead g a 32 else (List.replicate 32 0, false, s)).2.2 := by
    split
    · exact s.groupRead_workedAt ..
    · exact .refl g s
  generalize (if ok = true then s.groupRead g a 32 else (List.replicate 32 0, false, s)) = q at h0 ⊢
  obtain ⟨bs, ue, u⟩ := q
  dsimp only at h0 ⊢
  have hset : WorkedAt g s (u.setChan c { v with desc := words64 bs }) := h0.trans (u.setChan_workedAt ..)
  have hstop (code : Nat) := hset.trans (State.stopChan_workedAt _ c code 0)
  have hstart := hset.trans (workedAt_of_stages (State.stages_startStore _ c))
  exact .ite (hstop _) (.ite (hstop _) (.ite (hstop _) (.ite hstart (hstop _))))

theorem State.serve_workedAt (s : State) (c : Nat) : WorkedAt (chanGroup c) s (s.serve c) := by
  unfold State.serve
  extract_lets v
  split
  · exact .refl _ s
  · split
    · exact .refl _ s
    · exact (s.setChan_workedAt ..).trans (State.beginDesc_workedAt ..)

theorem State.makeRoom_workedAt {s t : State} {g : Nat} (h : s.makeRoom g = some t) : WorkedAt g s t := by
  unfold State.makeRoom at h
  extract_lets rs at h
  split at h
  · cases h; exact .refl g s
  · split at h
    · cases h
    · cases h
      exact (s.writeCtx_workedAt ..).trans (State.dropRing_workedAt ..)

/-- A ring of group `g` is served by a channel of that group (R330). -/
theorem State.chan_of_ctxAdmits {s : State} {g : Nat} {r : RingCtx} {k : Nat} (h : s.ctxAdmits g r k = true) : r.chan ≤ 13 := by
  simp only [State.ctxAdmits, Bool.and_eq_true, decide_eq_true_eq] at h
  obtain ⟨⟨⟨-, hchan⟩, -⟩, -⟩ := h
  exact hchan

theorem chanGroup_of_stage {g k : Nat} (hg : g < 4) (hk : k ≤ 13) : chanGroup (14 * g + k) = g := by
  rw [chanGroup, if_pos (by omega)]
  omega

/-- A doorbell of a stage's ring reaches no other stage (R330, R332). -/
theorem State.bell_workedAt (s : State) {g : Nat} (n add : Nat) (hg : g < 4) : WorkedAt g s (s.bell g n add) := by
  unfold State.bell
  extract_lets k hit
  split
  · exact workedAt_of_stages (s.stages_badBell ..)
  · have h0 : WorkedAt g s (if hit = true then ([], false, s) else s.groupRead g (s.ctxAddr g n) 64).2.2 := by
      split
      · exact .refl g s
      · exact s.groupRead_workedAt ..
    generalize (if hit = true then ([], false, s) else s.groupRead g (s.ctxAddr g n) 64) = q at h0 ⊢
    obtain ⟨bs, ue, u⟩ := q
    dsimp -zeta only at h0 ⊢
    extract_lets r
    split
    · exact h0.trans (workedAt_of_stages (u.stages_badBell ..))
    · next hadm =>
      have hchan : r.chan ≤ 13 := State.chan_of_ctxAdmits (s := u) (g := g) (k := k) (by
        simp only [Bool.or_eq_true, Bool.not_eq_true', not_or, Bool.not_eq_false] at hadm
        exact hadm.2)
      split
      · exact h0.trans (workedAt_of_stages (u.stages_badBell ..))
      · next w hw =>
        have hroom : WorkedAt g u w := by
          split at hw
          · cases hw; exact .refl g u
          · exact State.makeRoom_workedAt hw
        extract_lets stamp r'
        have hserve := ((w.setRing g n r').writeCtx g n r' 0 4).serve_workedAt (14 * g + r'.chan)
        rw [chanGroup_of_stage hg hchan] at hserve
        exact (((h0.trans hroom).trans (w.setRing_workedAt ..)).trans (State.writeCtx_workedAt ..)).trans hserve

theorem State.ringVoices_workedAt (s : State) {i : Nat} (hi : i < 4) : WorkedAt i s (s.ringVoices i) := by
  refine WorkedAt.foldl (fun u p => ?_) _ s
  exact (u.modStage_workedAt i (Stage.modSound_worked _ (Sound.setVoice_worked ..))).trans (State.bell_workedAt _ _ _ hi)

end Sys2Proof.Machine

namespace Sys2Proof.Machine

/-! ### The sound commands -/

/-- The stage with the held voices of ATTRACT as `b` has them (R250). -/
def Stage.setHalved (x : Stage) (b : Bool) : Stage := x.modSound fun d => { d with halved := b }

/-- A block boundary that is due begins the block of its stage, and what follows is the work of the voices and the mixer; no other
stage changes (R224, R237). -/
theorem execBlockBoundary_due {s : State} {i : Nat} (late ue : List Nat) (hi : i < 4) (hstart : (s.stage i).sound.started = true)
    (hdue : (s.stage i).sound.blocks * 16 = (s.stage i).sound.strobe) :
    ∃ t b, execBlockBoundary i late ue s = .next t ∧ (∀ j, j ≠ i → t.stage j = s.stage j) ∧
      (((s.stage i).setHalved b).beginBlock (s.stage i).sndSnap).Worked (t.stage i) := by
  unfold execBlockBoundary
  extract_lets x
  rw [if_pos (by simp [x, hstart, hdue])]
  have hu : ((ue.foldl (fun (st : State) a => st.upset a 3) s).source i).2.stages = s.stages :=
    (State.stages_source ..).trans (stages_foldl (fun s a => s.stages_upset a 3) ue s)
  generalize (ue.foldl (fun (st : State) a => st.upset a 3) s).source i = q at hu ⊢
  obtain ⟨m, u⟩ := q
  have hstage (j : Nat) : u.stage j = s.stage j := by rw [State.stage, hu, ← State.stage]
  have hblock := ((s.stage i).setHalved u.slow).blockBoundary_worked m late
  have hafter (y : Stage) (rd : List (Nat × Nat)) :=
    ((u.setStage i y).recordReads_workedAt i 6 0 m rd).trans (State.ringVoices_workedAt _ hi)
  obtain ⟨hothers, hwork⟩ := hafter _ (((s.stage i).setHalved u.slow).blockBoundary m late).2
  rw [State.stage_setStage, if_pos ⟨rfl, hi⟩] at hwork
  dsimp -zeta only
  rw [hstage i]
  refine ⟨_, u.slow, rfl, fun j hj => ?_, hblock.trans hwork⟩
  exact (hothers j hj).trans (((State.stage_setStage ..).trans (if_neg fun e => hj e.1.symm)).trans (hstage j))

/-- A stage that sounds stays in its slot (R387). -/
theorem Stage.leave_of_sounding {x : Stage} (h : x.sound.muted = false) : x.leave = x := by
  simp [Stage.leave, h]

/-- A strobe that falls due in a stage that sounds, with its block begun and 16 samples under way: after the work of the mixer the
oldest sample goes out (R224). -/
theorem execSampleStrobe_sounding {s : State} {i : Nat} (hi : i < 4) (hstart : (s.stage i).sound.started = true)
    (hmuted : (s.stage i).sound.muted = false) (hstop : (s.stage i).sound.stopRamp = none)
    (hlen : (s.stage i).sound.queue.length = 16) (hblock : (s.stage i).sound.blocks = (s.stage i).sound.strobe / 16 + 1)
    (hdue : (s.stage i).strobeDue = true) (hphase : (s.stage i).phase ≠ .empty) :
    let x := s.stage i
    let oldest := x.sound.queue.headD []
    ∃ y new, (x.takeStrobe s.root).Worked y ∧ execSampleStrobe i s = .next (s.draw.2.setStage i
      (y.strobed new (if x.homeSounds then oldest else oldest.map fun e => (e.1, 0, 0)))) := by
  intro x oldest
  obtain ⟨y, new, hy, hstrobe⟩ := Stage.strobe_sounding (st := x.takeStrobe s.root) s.nonce hmuted hstop hlen
  have hleave (o : List (Nat × Int × Int)) : (y.strobed new o).leave = y.strobed new o :=
    Stage.leave_of_sounding (show y.sound.muted = false by rw [hy.2]; exact hmuted)
  have hexec := execSampleStrobe_due hi hstart hdue hblock
  rw [hstrobe, hleave] at hexec
  exact ⟨y, new, hy, hexec (show y.phase ≠ .empty by rw [hy.1]; exact hphase)⟩

/-- A change of the own stage, after free values were drawn, changes nothing else. -/
theorem State.setStage_onlyStageFree (s : State) (i : Nat) (y : Stage) : OnlyStageFree i s (s.draw.2.setStage i y) :=
  ⟨rfl, fun j hj => by rw [State.stage_setStage, if_neg fun e => hj e.1.symm]; rfl⟩

/-- Settles O44: a block boundary and a strobe do what their rules say but for the work of the voices and the mixer
(`Stage.Worked`), and a step and a feed act on one voice. -/
theorem soundGoesBlockByBlock : Obligations.SoundGoesBlockByBlock := by
  intro i s hi x d
  refine ⟨fun late ue hstart hblock => ?_, fun hstart hmuted hstop hblock hlen hdue hphase => ?_, fun _ _ hdue => ?_,
    fun v hdue => ?_, fun v a ha hle => ?_, fun ini v n hv hmay hbound hheld hflip harr => ?_⟩
  · obtain ⟨t, b, hexec, hothers, hst, hsound⟩ := execBlockBoundary_due late ue hi hstart hblock
    refine ⟨t, hexec, ?_, ?_, ?_, ?_, by rw [hst]; rfl, by rw [hst]; rfl, hothers⟩ <;> (rw [hsound]; rfl)
  · obtain ⟨y, new, hy, hexec⟩ := execSampleStrobe_sounding hi hstart hmuted hstop hlen hblock hdue hphase
    refine ⟨_, new, hexec, s.setStage_onlyStageFree i _, ?_⟩
    rw [State.stage_setStage, if_pos ⟨rfl, hi⟩]
    simp only [Stage.strobed, Stage.modSound]
    rw [hy.2]
    exact ⟨rfl, rfl, rfl, rfl, fun hhome => if_pos (x.homeSounds_iff.2 hhome),
      fun hhome => if_neg fun e => hhome (x.homeSounds_iff.1 e)⟩
  · exact execSampleStrobe_not_due hdue
  · change execVoiceClassStep i v s = _
    rw [execVoiceClassStep, State.modStage, Stage.classStep_of_not_due hdue]
  · have hstep : x.classStep v = x.modSound (·.setVoice v (d.steppedVoice v)) :=
      Stage.classStep_of_due (Sound.stepDue_of_stepAt ha hle)
    have hstage : (s.modStage i (·.classStep v)).stage i = x.modSound (·.setVoice v (d.steppedVoice v)) := by
      rw [State.stage_modStage, if_pos ⟨rfl, hi⟩, hstep]
    refine ⟨_, rfl, ⟨rfl, fun j hj => ?_⟩, ?_, ?_, fun u hu => ?_⟩
    · rw [State.stage_modStage, if_neg fun e => hj e.1.symm]
    · rw [hstage]; rfl
    · rw [hstage]; exact (Sound.voice_setVoice ..).trans (if_pos rfl)
    · rw [hstage]; exact (Sound.voice_setVoice ..).trans (if_neg hu)
  · obtain ⟨hsound, hreg, hothers, hmem⟩ := s.stageWrite_voiceFeed ini n hi hv hbound hheld hflip harr
    obtain ⟨hfill, hover, hvoices⟩ := Stage.feedVoice_bound (n.toNat % 2 ^ 25) hbound
    refine ⟨_, congrArg Host.Outcome.next (if_pos hmay), ?_, fun hlt => ?_, fun u hu => ?_, hothers, hmem⟩
    · rw [hsound]; exact hfill
    · rw [hreg]; exact hover hlt
    · rw [hsound]; exact hvoices u hu

end Sys2Proof.Machine
